-- ==== Sys2Proof/Word.lean ====
section
/-! DEFINITION. The word types of the Veper and the shapes of what its commands carry: a message (Table 12.13)
and the payload of a link-control flit (Table 12.11). -/

namespace Sys2Proof

/-- One byte of HBM, CBUF, Cobbler-local memory, a flit or an MSP frame (R7: the byte at the lowest address holds bits [7:0]). -/
abbrev Byte := BitVec 8

/-- One direct register or one data word of an indirect table (R380, R376). -/
abbrev Word := BitVec 32

/-- One 64-bit word of a descriptor, a Last record or a message payload. -/
abbrev Word64 := BitVec 64

/-- Bits [hi:lo] of `n`, right-aligned (§00.3). -/
def bits (n hi lo : Nat) : Nat := (n >>> lo) % 2 ^ (hi + 1 - lo)

/-- Bit `i` of `n`. -/
def bit (n i : Nat) : Bool := n.testBit i

/-- `n` read as a two's complement number of `w` bits. -/
def toSigned (w n : Nat) : Int :=
  if n % 2 ^ w < 2 ^ (w - 1) then (n % 2 ^ w : Nat) else ((n % 2 ^ w : Nat) : Int) - (2 ^ w : Nat)

/-- The `w`-bit two's complement pattern of `i`. -/
def ofSigned (w : Nat) (i : Int) : Nat := (i % ((2 ^ w : Nat) : Int)).toNat

/-- The integer whose little-endian bytes are `bs` (R7). -/
def leNat (bs : List Byte) : Nat := bs.foldr (fun b acc => b.toNat + 256 * acc) 0

/-- The `k` little-endian bytes of `n` (R7). -/
def leBytes : Nat → Nat → List Byte
  | 0, _ => []
  | k + 1, n => BitVec.ofNat 8 n :: leBytes k (n / 256)

/-- The integer whose bytes, most significant first, are `bs` (R364: multi-byte MSP fields are sent high byte first). -/
def beNat (bs : List Byte) : Nat := bs.foldl (fun acc b => 256 * acc + b.toNat) 0

/-- The `k` bytes of `n`, most significant first. -/
def beBytes (k n : Nat) : List Byte := (leBytes k n).reverse

/-- `bs` cut or padded with zeros to `n` bytes. -/
def padTo (n : Nat) (bs : List Byte) : List Byte := (bs ++ List.replicate (n - bs.length) 0#8).take n

/-- Little-endian 64-bit word `i` of a byte string (bytes 8i to 8i + 7), zero past its end. -/
def word64At (bs : List Byte) (i : Nat) : Nat := leNat ((bs.drop (8 * i)).take 8)

/-- A message of the transaction layer: the header of Table 12.13 and its payload bytes.
`rsvd` is the OR of the header's reserved bits, so that a nonzero one can be judged (R277). -/
structure Msg where
  type    : Nat := 0
  dst     : Nat := 0
  src     : Nat := 0
  tenant  : Nat := 0
  tag     : Nat := 0xFFFFFF
  txn     : Nat := 0
  status  : Nat := 0
  fault   : Nat := 0
  rsvd    : Nat := 0
  len     : Nat := 0
  payload : List Byte := []
  deriving DecidableEq, Repr

/-- The fields a link-control flit carries (Table 12.11), with the result of its TAG check (R270). -/
structure Lctrl where
  ltype   : Nat := 0
  lanes   : Nat := 0
  crMg    : Nat := 0
  crRs    : Nat := 0
  crRq    : Nat := 0
  crEv    : Nat := 0
  auth    : Bool := false
  session : Nat := 0
  /-- The key generation the flit's header names. -/
  keyId   : Nat := 0
  tagOk   : Bool := true
  deriving DecidableEq, Repr

/-- What the FEC decoder makes of one codeword of a lane (R249): no symbol in error, corrected, or uncorrectable. -/
inductive CwRes where
  | clean | corrected | bad
  deriving DecidableEq, Repr

/-- A lane and what its latest codewords are, the latest first. -/
structure LaneCws where
  no  : Fin 8
  cws : List CwRes
  deriving DecidableEq, Repr

end Sys2Proof
end

