-- ==== Sys2Proof/Syntax.lean ====
section
/-! DEFINITION. The commands of the Veper, one constructor for each row of spec/opcode_table.json.
An operand typed `Fin n` names a unit of that kind: `q` one of DQ0-DQ63, `v` a VC, `k` a Cobbler, `p` a port (8 is TP, the Twin
port), `h` an HBM controller, `r` a reference, `c` a stream channel. A message command carries the message as it is decoded.
The table gives no bits for any row (log entry 1). -/

namespace Sys2Proof

/-- One command or event of the Veper (spec/opcode_table.json). -/
inductive Instr where
  /-- REGISTER_WRITE (R1): A committed MSP write to a direct register that has no row of its own stores its RW fields, clears W1C bits written 1 and ignores RO and reserved fields. -/
  | registerWrite (addr : Nat) (w : Word)
  /-- RC_READ (R372): A read of a register holding RC fields returns the value and, after its CRC byte is sent, reduces each RC field by the value sent. -/
  | rcRead (addr : Nat)
  /-- LATCHED_GROUP_READ (R382): A read of the first register of a latched group returns its part and latches the whole multi-word value for the group's other registers. -/
  | latchedGroupRead (addr : Nat)
  /-- MSP_WRITE (R370): A WRITE frame commits each burst word whose CRC is correct, each in its own cc, and discards the first bad word and every word after it. -/
  | mspWrite (frame : List Byte) (extraBits : Nat)
  /-- MSP_READ (R372): A READ frame returns the status byte and then register words, each fetched at a fixed SCK edge, or HDR_ERR with zero words for a bad header. -/
  | mspRead (frame : List Byte) (clocks : Nat)
  /-- MSP_STATUS (R373): A STATUS frame returns the status byte and a word giving the last frame's outcome and committed-word count, then clears WR_DISCARD and FRAME_ERR. -/
  | mspStatus (frame : List Byte) (clocks : Nat)
  /-- TABLE_READ (R377): TAB_CMD OP READ copies the selected indirect table entry into the data words in cc c+4 and reduces its RC fields. -/
  | tableRead (wmask : BitVec 8)
  /-- TABLE_WRITE (R378): TAB_CMD OP WRITE writes the data words named by WMASK into the selected entry in cc c+4, with the effect time of its table. -/
  | tableWrite (wmask : BitVec 8)
  /-- TABLE_CMD_NONE (R376): TAB_CMD with OP NONE or 3 does nothing and leaves ERR unchanged. -/
  | tableCmdNone (wmask : BitVec 8) (op3 : Bool)
  /-- EPC_CTRL_BOUNDARY (R20): Writing 1 to EPC_CTRL.BOUNDARY is the MSP boundary trigger, opening an epoch from IDLE or starting the close sequence from OPEN. -/
  | epcCtrlBoundary (run : Bool)
  /-- GLB_NODE_WRITE (R385): A write of GLB_NODE takes effect only when every port and TP is DISABLED, and is otherwise refused with NODE_REFUSED set. -/
  | glbNodeWrite (w : Word)
  /-- CLK_CCLK_M_WRITE (R338): A write of CLK_CCLK.M starts a 100 µs frequency change in IDLE, and is otherwise ignored with FREQ_REFUSED set. -/
  | clkCclkMWrite (w : Word)
  /-- MEM_SCRUB_WRITE (R391): A write of MEM_SCRUB sets scrub enables and dividers, effective at each scrubber's next step, and re-times a re-enabled scrubber. -/
  | memScrubWrite (w : Word)
  /-- TOD_INCR_HI_WRITE (R353): A write of TOD_INCR_HI is held until a write of TOD_INCR_LO applies it. -/
  | todIncrHiWrite (w : Word)
  /-- TOD_INCR_LO_WRITE (R353): A write of TOD_INCR_LO applies a new INCR from the held or current high part in the next cc and empties the hold. -/
  | todIncrLoWrite (w : Word)
  /-- EPC_SCHED_SEC_WRITE (R383): A write of EPC_SCHED_SEC_HI or EPC_SCHED_SEC_LO is held for the next EPC_SCHED_NS write. -/
  | epcSchedSecWrite (hi : Bool) (w : Word)
  /-- EPC_SCHED_NS_WRITE (R383): A write of EPC_SCHED_NS applies the schedule instant from the held seconds and arms the schedule, even during a held OPENING. -/
  | epcSchedNsWrite (w : Word)
  /-- TOD_APPLY_NONE (R356): TOD_CTRL.APPLY value NONE has no effect. -/
  | todApplyNone
  /-- TOD_APPLY_NOW (R356): TOD_CTRL.APPLY NOW loads TOD from TOD_SET in the next cc, discarding that cc's increment. -/
  | todApplyNow
  /-- TOD_APPLY_AT_NEXT_SECOND (R356): TOD_CTRL.APPLY AT_NEXT_SECOND arms a pending apply for the next rollover cc. -/
  | todApplyAtNextSecond
  /-- TOD_APPLY_AT_NEXT_PPS (R356): TOD_CTRL.APPLY AT_NEXT_PPS arms a pending apply for the event cc of the next counted PPS edge. -/
  | todApplyAtNextPps
  /-- TOD_CANCEL (R357): Writing 1 to TOD_CTRL.CANCEL clears a pending TOD apply. -/
  | todCancel
  /-- FLT_POP (R392): Writing 1 to FLT_CTRL.POP removes the oldest record from the global fault FIFO, and does nothing when the FIFO is empty. -/
  | fltPop
  /-- WLT_CTRL_EN_SET (R253): Writing WLT_CTRL.EN 1 moves a DISABLED port to DOWN. -/
  | wltCtrlEnSet (p : Fin 9)
  /-- WLT_CTRL_EN_CLEAR (R253): Writing WLT_CTRL.EN 0 moves the port from any state to DISABLED. -/
  | wltCtrlEnClear (p : Fin 9)
  /-- WLT_CTRL_RELEASE (R290): Writing 1 to WLT_CTRL.RELEASE moves a QUARANTINED port to DOWN and clears STRIKES. -/
  | wltCtrlRelease (p : Fin 8)
  /-- WLT_CTRL_RETRAIN (R256): Writing 1 to the staged WLT_CTRL.RETRAIN sends the port to DOWN at the next boundary so that it retrains to full width. -/
  | wltCtrlRetrain (p : Fin 9)
  /-- TWN_PEER_NODE_WRITE (R390): A write changing TWN_PEER_NODE or TWN_CTRL.REQ_AUTH sends TP in HELLO, UP or FENCED to DOWN. -/
  | twnPeerNodeWrite (ctrl : Bool) (w : Word)
  /-- TWN_CMD_ADOPT (R337): Writing TWN_CMD.ADOPT holds an adoption that applies at a boundary in ISOLATED or PEER_FAILED, and is cleared in any other pair state. -/
  | twnCmdAdopt
  /-- PERIOD_EXPIRY (R26): EPC_PERIOD cc after the open the period trigger requests a boundary. -/
  | periodExpiry
  /-- DEADLINE_EXPIRY (R31): EPC_DEADLINE cc after the open the deadline starts the close if the state is OPEN, and abandons every undrained tenant's work. -/
  | deadlineExpiry
  /-- SCHEDULE_TRIGGER (R37): When TOD reaches the schedule instant less the lead, the schedule trigger requests a boundary. -/
  | scheduleTrigger
  /-- KNOT_SAMPLE (R89): Every 256 cc each tenant's knot detector evaluates the knot condition. -/
  | knotSample
  /-- DRAIN_COMPLETE (R29): In the first cc in which every drain condition holds, the epoch moves from DRAIN to FLUSH. -/
  | drainComplete
  /-- FLUSH_COMPLETE (R34): When the last pending write of the epoch is acknowledged, the epoch moves to COMMIT. -/
  | flushComplete
  /-- COMMIT_END (R35): COMMIT ends on record formation in SOLO, or on the twin's acknowledgement or a declared failure, and the epoch moves to CLEAR. -/
  | commitEnd
  /-- CLEAR (R36): CLEAR clears the transit state, and reads RUN to decide between OPENING and IDLE. -/
  | clear
  /-- APPLY_STAGED (R39): The CLEAR apply stage applies staged fields, commanded states and table entries, and validates them. -/
  | applyStaged
  /-- OPENING (R20): OPENING prepares the next epoch: it grants timed masks, advances delay queues, resets journal budgets and loads the counts. -/
  | opening
  /-- EPOCH_OPEN (R21): The state becomes OPEN, EPC_COUNT increments and the period and deadline counts restart. -/
  | epochOpen
  /-- SCHEDULE_HOLD_RELEASE (R37): A boundary held in OPENING opens in the first cc in which TOD reaches the schedule instant. -/
  | scheduleHoldRelease
  /-- SUBMIT (R53): A SUBMIT message is checked in order, and is appended to the queue's chain-head FIFO or answered with a refusal status. -/
  | submit (p : Fin 8) (m : Msg)
  /-- CHAIN_HEAD_TAKE (R45): An idle queue takes the next head from its chain-head FIFO once one is present. -/
  | chainHeadTake (q : Fin 64)
  /-- DESCRIPTOR_FETCH (R46): The queue engine starts a descriptor fetch through the DCACHE, at most four ahead of issue. -/
  | descriptorFetch (q : Fin 64)
  /-- DESCRIPTOR_RETURN (R47): A returned descriptor is checked in the order of Table 03.9, and a failed check faults and stops the queue. -/
  | descriptorReturn (q : Fin 64)
  /-- LAST_RECORD_RETURN (R152): A Last record loaded from HBM is validated under Table 07.7 and cached. -/
  | lastRecordReturn (q : Fin 64) (operand : Fin 5)
  /-- LOOP (R81): LOOP reads its count and pushes a loop stack entry, or skips its body when the count is 0. -/
  | loop (q : Fin 64)
  /-- BRANCH (R83): BRANCH evaluates its comparator and continues at TAKEN or NEXT, or ends the chain. -/
  | branch (q : Fin 64)
  /-- WAIT (R86): WAIT issues and begins evaluating its tack each cc against THRESH. -/
  | wait (q : Fin 64)
  /-- WAIT_SATISFIED (R86): The tack reaches THRESH, the WAIT is satisfied and consumes if CONSUME is 1, and the queue fetches on. -/
  | waitSatisfied (q : Fin 64)
  /-- WAIT_TIMEOUT (R87): TIMEOUT×1,024 cc after issue an unsatisfied WAIT faults WAIT_TIMEOUT or continues at TO_NEXT. -/
  | waitTimeout (q : Fin 64)
  /-- TACK_ADD (R84): SET kind 0 adds VALUE to a tack when it completes, saturating at 0xFFFF. -/
  | tackAdd (q : Fin 64)
  /-- TACK_WRITE (R84): SET kind 1 writes VALUE to a tack when it completes. -/
  | tackWrite (q : Fin 64)
  /-- CNT_WRITE (R77): SET kind 2 stores VALUE[31:0] in a counter. -/
  | cntWrite (q : Fin 64)
  /-- CNT_ADD (R77): SET kind 3 adds VALUE[31:0] to a counter modulo 2^32. -/
  | cntAdd (q : Fin 64)
  /-- SR_WRITE (R77): SET kind 4 stores VALUE in a scalar register. -/
  | srWrite (q : Fin 64)
  /-- CMP_CONFIG (R77): SET kind 5 stores a comparator configuration. -/
  | cmpConfig (q : Fin 64)
  /-- EPOCH_END (R45): EPOCH_END ends the chain, and its queue issues nothing more in the epoch. -/
  | epochEnd (q : Fin 64)
  /-- COBBLER (R201): COBBLER checks its image and launches programs on the named idle Cobblers with ARG. -/
  | cobbler (q : Fin 64)
  /-- SR_LOAD (R121): SR_LOAD reads one element at a flat index and delivers it to SR_OUT. -/
  | srLoad (q : Fin 64)
  /-- SR_STORE (R121): SR_STORE writes P1, converted, at a flat index of its destination. -/
  | srStore (q : Fin 64)
  /-- ADD (R103): Element-wise a + b. -/
  | add (q : Fin 64)
  /-- SUB (R103): Element-wise a − b. -/
  | sub (q : Fin 64)
  /-- MUL (R103): Element-wise a × b. -/
  | mul (q : Fin 64)
  /-- DIV (R103): Element-wise a / b, optionally truncating. -/
  | div (q : Fin 64)
  /-- MAX (R103): Element-wise maximum. -/
  | max (q : Fin 64)
  /-- MIN (R103): Element-wise minimum. -/
  | min (q : Fin 64)
  /-- FMA (R103): Element-wise a × b + c, rounded once. -/
  | fma (q : Fin 64)
  /-- AND (R103): Bitwise AND of the stored bits. -/
  | opAnd (q : Fin 64)
  /-- OR (R103): Bitwise OR of the stored bits. -/
  | opOr (q : Fin 64)
  /-- XOR (R103): Bitwise XOR of the stored bits. -/
  | opXor (q : Fin 64)
  /-- SHL (R103): Left shift of the stored bits of a by b. -/
  | shl (q : Fin 64)
  /-- SHR (R103): Right shift of the stored bits of a by b. -/
  | shr (q : Fin 64)
  /-- PADD (R104): Exact sum of pair or float operands, delivered as a pair. -/
  | padd (q : Fin 64)
  /-- PMUL (R104): Product delivered as a compensated pair. -/
  | pmul (q : Fin 64)
  /-- SELECT (R106): Selects b or c under a mask bit. -/
  | select (q : Fin 64)
  /-- CLAMP (R103): Clamps a between the bounds P0 and P1. -/
  | clamp (q : Fin 64)
  /-- ABS (R103): Element-wise absolute value. -/
  | abs (q : Fin 64)
  /-- NEG (R103): Element-wise negation. -/
  | neg (q : Fin 64)
  /-- NOT (R103): Bitwise NOT. -/
  | opNot (q : Fin 64)
  /-- RELU (R103): max(a, +0). -/
  | relu (q : Fin 64)
  /-- LRELU (R103): Leaky ReLU with slope P0. -/
  | lrelu (q : Fin 64)
  /-- FLOOR (R103): Rounds toward −∞. -/
  | floor (q : Fin 64)
  /-- CEIL (R103): Rounds toward +∞. -/
  | ceil (q : Fin 64)
  /-- RINT (R103): Rounds to nearest, ties to even. -/
  | rint (q : Fin 64)
  /-- SIGN (R103): Gives −1, 0 or +1. -/
  | sign (q : Fin 64)
  /-- EXP (R105): SFU e^x. -/
  | exp (q : Fin 64)
  /-- EXP2 (R105): SFU 2^x. -/
  | exp2 (q : Fin 64)
  /-- LOG (R105): SFU ln x. -/
  | log (q : Fin 64)
  /-- LOG2 (R105): SFU log2 x. -/
  | log2 (q : Fin 64)
  /-- RECIP (R105): SFU 1/x. -/
  | recip (q : Fin 64)
  /-- RSQRT (R105): SFU 1/√x. -/
  | rsqrt (q : Fin 64)
  /-- SQRT (R105): Correctly rounded √x of class DIV. -/
  | sqrt (q : Fin 64)
  /-- TANH (R105): SFU tanh. -/
  | tanh (q : Fin 64)
  /-- SIGMOID (R105): SFU sigmoid. -/
  | sigmoid (q : Fin 64)
  /-- GELU (R105): SFU GELU in erf or tanh form. -/
  | gelu (q : Fin 64)
  /-- SILU (R105): SFU x·sigmoid(x). -/
  | silu (q : Fin 64)
  /-- ERF (R105): SFU erf. -/
  | erf (q : Fin 64)
  /-- SIN (R105): SFU sin. -/
  | sin (q : Fin 64)
  /-- COS (R105): SFU cos. -/
  | cos (q : Fin 64)
  /-- SOFTPLUS (R105): SFU ln(1 + e^x). -/
  | softplus (q : Fin 64)
  /-- CMP (R106): Writes MASK1 bits for the relation REL between a and b. -/
  | cmp (q : Fin 64)
  /-- RSUM (R109): Sum reduction in WF. -/
  | rsum (q : Fin 64)
  /-- RCSUM (R109): Compensated pair-sum reduction. -/
  | rcsum (q : Fin 64)
  /-- RMAX (R109): Maximum reduction. -/
  | rmax (q : Fin 64)
  /-- RMIN (R109): Minimum reduction. -/
  | rmin (q : Fin 64)
  /-- RARGMAX (R109): Index of the first maximum. -/
  | rargmax (q : Fin 64)
  /-- RARGMIN (R109): Index of the first minimum. -/
  | rargmin (q : Fin 64)
  /-- RLSE (R109): Log-sum-exp reduction. -/
  | rlse (q : Fin 64)
  /-- RSUMSQ (R109): Sum of squares reduction. -/
  | rsumsq (q : Fin 64)
  /-- RCOUNT (R109): Counts the mask bits set. -/
  | rcount (q : Fin 64)
  /-- SCANSUM (R110): Inclusive or exclusive prefix sum per row. -/
  | scansum (q : Fin 64)
  /-- SCANMAX (R110): Prefix maximum per row. -/
  | scanmax (q : Fin 64)
  /-- COMPACT (R110): Packs the masked elements of each row to its start. -/
  | compact (q : Fin 64)
  /-- TOPK (R111): Writes the k largest or smallest elements of each row, or their indices. -/
  | topk (q : Fin 64)
  /-- LNORM (R112): Layer normalisation per row. -/
  | lnorm (q : Fin 64)
  /-- RMSNORM (R112): RMS normalisation per row. -/
  | rmsnorm (q : Fin 64)
  /-- SOFTMAX (R112): Softmax per row, optionally masked. -/
  | softmax (q : Fin 64)
  /-- GNORM (R113): Group normalisation over channel groups. -/
  | gnorm (q : Fin 64)
  /-- CONVERT (R116): Converts each element to the destination type. -/
  | convert (q : Fin 64)
  /-- QUANT_MX (R117): Quantises to an MX type by scale rule 0 or 1. -/
  | quantMx (q : Fin 64)
  /-- FINISH (R118): Applies scale, bias, clip and conversion to accumulator tiles. -/
  | finish (q : Fin 64)
  /-- FILL (R119): Writes P0 to every element. -/
  | fill (q : Fin 64)
  /-- IOTA (R119): Writes P0 + P1 × index. -/
  | iota (q : Fin 64)
  /-- COPY (R116): Copies bits between records of identical type. -/
  | copy (q : Fin 64)
  /-- PERMUTE (R119): Permutes the dimensions of the source. -/
  | permute (q : Fin 64)
  /-- GATHER (R120): Reads source elements selected by an index tensor along AXIS. -/
  | gather (q : Fin 64)
  /-- SCATTER (R120): Sends source elements to destination positions along AXIS and combines them by COMB. -/
  | scatter (q : Fin 64)
  /-- EV_EMIT (R122): Enters a spike for each element at or above the threshold. -/
  | evEmit (q : Fin 64)
  /-- EV_COUNT (R223): Writes the neurons' SCOUNT values and zeroes them. -/
  | evCount (q : Fin 64)
  /-- TILE_DEAL (R91): The Clicker deals a tile to the next eligible VC with a free input slot, waiting while none is free. -/
  | tileDeal (q : Fin 64)
  /-- TILE_EXECUTE (R125): A VC starts a tile once it arrives and the previous tile's P cycles end, then reads, computes and writes rows at fixed offsets. -/
  | tileExecute (v : Fin 64)
  /-- REDUCTION_COMBINE (R126): The combining VC combines reduction partials in ascending tile number as they arrive, then writes the result. -/
  | reductionCombine (q : Fin 64)
  /-- CONTRIBUTION (R172): A home Awl receives a scatter contribution and buffers or applies it. -/
  | contribution (source home : Fin 8)
  /-- END_MARKER (R172): A home Awl receives a tile's end marker, which lets the following tile be applied. -/
  | endMarker (source home : Fin 8)
  /-- SCATTER_WRITEBACK (R173): After the last end marker the home Awl reads, combines and writes each touched element. -/
  | scatterWriteback (home : Fin 8)
  /-- TILE_RESUME (R175): A suspended scatter tile resumes when its refused contribution is accepted. -/
  | tileResume (source : Fin 8)
  /-- DESCRIPTOR_RETIRE (R64): A descriptor retires once its work has completed and every earlier descriptor of its queue has retired. -/
  | descriptorRetire (q : Fin 64)
  /-- HBM_ACCESS_COMPLETE (R242): An HBM controller completes an accepted read or write, correcting or poisoning the line as its code finds. -/
  | hbmAccessComplete (h : Fin 4) (n : Nat)
  /-- HBM_SCRUB_STEP (R243): Every 2^HBM_DIV cc a controller scrubs its next line. -/
  | hbmScrubStep (h : Fin 4)
  /-- CBUF_SCRUB_STEP (R244): Every 2^CBUF_DIV cc, when a bank is free, a CBUF or local word is scrubbed. -/
  | cbufScrubStep (u : Fin 80)
  /-- CBL_ADD (R189): Cobbler RD = x + y. -/
  | cblAdd (k : Fin 16)
  /-- CBL_SUB (R189): Cobbler RD = x − y. -/
  | cblSub (k : Fin 16)
  /-- CBL_AND (R189): Cobbler bitwise AND. -/
  | cblAnd (k : Fin 16)
  /-- CBL_OR (R189): Cobbler bitwise OR. -/
  | cblOr (k : Fin 16)
  /-- CBL_XOR (R189): Cobbler bitwise XOR. -/
  | cblXor (k : Fin 16)
  /-- CBL_SLL (R189): Cobbler logical left shift. -/
  | cblSll (k : Fin 16)
  /-- CBL_SRL (R189): Cobbler logical right shift. -/
  | cblSrl (k : Fin 16)
  /-- CBL_SRA (R189): Cobbler arithmetic right shift. -/
  | cblSra (k : Fin 16)
  /-- CBL_SLT (R189): Cobbler signed set-less-than. -/
  | cblSlt (k : Fin 16)
  /-- CBL_SLTU (R189): Cobbler unsigned set-less-than. -/
  | cblSltu (k : Fin 16)
  /-- CBL_MIN (R189): Cobbler signed minimum. -/
  | cblMin (k : Fin 16)
  /-- CBL_MAX (R189): Cobbler signed maximum. -/
  | cblMax (k : Fin 16)
  /-- CBL_MUL (R189): Cobbler low 32 bits of the product. -/
  | cblMul (k : Fin 16)
  /-- CBL_MULH (R189): Cobbler high 32 bits of the signed product. -/
  | cblMulh (k : Fin 16)
  /-- CBL_DIV (R190): Cobbler signed truncating division. -/
  | cblDiv (k : Fin 16)
  /-- CBL_DIVU (R190): Cobbler unsigned division. -/
  | cblDivu (k : Fin 16)
  /-- CBL_REM (R190): Cobbler signed remainder. -/
  | cblRem (k : Fin 16)
  /-- CBL_REMU (R190): Cobbler unsigned remainder. -/
  | cblRemu (k : Fin 16)
  /-- CBL_ADDI (R189): Cobbler add immediate. -/
  | cblAddi (k : Fin 16)
  /-- CBL_ANDI (R189): Cobbler AND with a zero-extended immediate. -/
  | cblAndi (k : Fin 16)
  /-- CBL_ORI (R189): Cobbler OR with a zero-extended immediate. -/
  | cblOri (k : Fin 16)
  /-- CBL_XORI (R189): Cobbler XOR with a zero-extended immediate. -/
  | cblXori (k : Fin 16)
  /-- CBL_SLLI (R189): Cobbler left shift by an immediate. -/
  | cblSlli (k : Fin 16)
  /-- CBL_SRLI (R189): Cobbler logical right shift by an immediate. -/
  | cblSrli (k : Fin 16)
  /-- CBL_SRAI (R189): Cobbler arithmetic right shift by an immediate. -/
  | cblSrai (k : Fin 16)
  /-- CBL_SLTI (R189): Cobbler signed compare with an immediate. -/
  | cblSlti (k : Fin 16)
  /-- CBL_LUI (R189): Cobbler RD = imm << 10. -/
  | cblLui (k : Fin 16)
  /-- CBL_LB (R193): Cobbler loads a sign-extended local byte. -/
  | cblLb (k : Fin 16)
  /-- CBL_LBU (R193): Cobbler loads a zero-extended local byte. -/
  | cblLbu (k : Fin 16)
  /-- CBL_LH (R193): Cobbler loads a sign-extended local halfword. -/
  | cblLh (k : Fin 16)
  /-- CBL_LHU (R193): Cobbler loads a zero-extended local halfword. -/
  | cblLhu (k : Fin 16)
  /-- CBL_LW (R193): Cobbler loads a local word. -/
  | cblLw (k : Fin 16)
  /-- CBL_SB (R193): Cobbler stores a local byte. -/
  | cblSb (k : Fin 16)
  /-- CBL_SH (R193): Cobbler stores a local halfword. -/
  | cblSh (k : Fin 16)
  /-- CBL_SW (R193): Cobbler stores a local word. -/
  | cblSw (k : Fin 16)
  /-- CBL_LWC (R194): Cobbler loads a word from a member's CBUF. -/
  | cblLwc (k : Fin 16)
  /-- CBL_SWC (R194): Cobbler stores a word to a member's CBUF. -/
  | cblSwc (k : Fin 16)
  /-- CBL_CGET (R194): Cobbler copies words from CBUF to local memory. -/
  | cblCget (k : Fin 16)
  /-- CBL_CPUT (R194): Cobbler copies words from local memory to CBUF. -/
  | cblCput (k : Fin 16)
  /-- CBL_LWH (R196): Cobbler starts an asynchronous HBM word load. -/
  | cblLwh (k : Fin 16)
  /-- CBL_SWH (R196): Cobbler starts an asynchronous HBM word store. -/
  | cblSwh (k : Fin 16)
  /-- CBL_HGET (R196): Cobbler starts an asynchronous copy from HBM to local memory. -/
  | cblHget (k : Fin 16)
  /-- CBL_HPUT (R196): Cobbler starts an asynchronous copy from local memory to HBM. -/
  | cblHput (k : Fin 16)
  /-- CBL_HBM_COMPLETE (R196): An outstanding Cobbler HBM operation completes, releasing stalled instructions. -/
  | cblHbmComplete (k : Fin 16) (n : Nat)
  /-- CBL_FENCE (R197): Cobbler FENCE issues once no operation is outstanding. -/
  | cblFence (k : Fin 16)
  /-- CBL_BEQ (R189): Cobbler branch if equal. -/
  | cblBeq (k : Fin 16)
  /-- CBL_BNE (R189): Cobbler branch if not equal. -/
  | cblBne (k : Fin 16)
  /-- CBL_BLT (R189): Cobbler branch if signed less. -/
  | cblBlt (k : Fin 16)
  /-- CBL_BGE (R189): Cobbler branch if signed greater or equal. -/
  | cblBge (k : Fin 16)
  /-- CBL_BLTU (R189): Cobbler branch if unsigned less. -/
  | cblBltu (k : Fin 16)
  /-- CBL_BGEU (R189): Cobbler branch if unsigned greater or equal. -/
  | cblBgeu (k : Fin 16)
  /-- CBL_JAL (R189): Cobbler jump and link, PC relative. -/
  | cblJal (k : Fin 16)
  /-- CBL_JALR (R189): Cobbler jump and link to a register target. -/
  | cblJalr (k : Fin 16)
  /-- CBL_TSET_ADD (R198): Cobbler TSET with FN[0] at 0 adds to a tack. -/
  | cblTsetAdd (k : Fin 16)
  /-- CBL_TSET_WRITE (R198): Cobbler TSET with FN[0] at 1 writes a tack. -/
  | cblTsetWrite (k : Fin 16)
  /-- CBL_TWAIT (R198): Cobbler TWAIT starts waiting on a tack threshold. -/
  | cblTwait (k : Fin 16)
  /-- CBL_TWAIT_SATISFIED (R198): A TWAIT is satisfied, optionally consumes, and RD receives 1. -/
  | cblTwaitSatisfied (k : Fin 16)
  /-- CBL_TWAIT_TIMEOUT (R198): A TWAIT times out and RD receives 0. -/
  | cblTwaitTimeout (k : Fin 16)
  /-- CBL_SRRD (R199): Cobbler reads half of a queue scalar register. -/
  | cblSrrd (k : Fin 16)
  /-- CBL_SRWR (R199): Cobbler writes a queue scalar register. -/
  | cblSrwr (k : Fin 16)
  /-- CBL_SUBMIT (R200): Cobbler appends a chain head to a queue and receives a status. -/
  | cblSubmit (k : Fin 16)
  /-- CBL_HALT (R202): HALT ends the program once nothing is outstanding. -/
  | cblHalt (k : Fin 16)
  /-- CBL_LINE_FILL (R192): A requested image line returns to the Cobbler fetch buffer, and waiting instructions can issue. -/
  | cblLineFill (k : Fin 16)
  /-- EVENT_DELIVER (R213): A due event is looked up in the axon map and its matrix row is added to the input accumulators. -/
  | eventDeliver (v : Fin 64)
  /-- DELIVERY_END (R219): A VC's delivery ends at the close under DROP or when no due event remains under STRETCH, and its update follows. -/
  | deliveryEnd (v : Fin 64)
  /-- STRETCH_LIMIT (R220): EVT_STRETCH_MAX cc after the close started, the remaining due events are dropped under cause STRETCH. -/
  | stretchLimit
  /-- FLIT_SLOT_TRANSMIT (R251): Each flit slot carries a replayed, LCTRL, MG, RS, RQ/EV or IDLE flit by priority and credit. -/
  | flitSlotTransmit (p : Fin 9)
  /-- FLIT_RECEIVE (R261): A received flit is checked by CRC and TAG and accepted in sequence, or discarded as a duplicate or as a gap. -/
  | flitReceive (p : Fin 9) (flit : List Byte)
  /-- NAK_RESEND (R261): While a gap stays open, NAK is set again every WLT_REPLAY.TIMEOUT. -/
  | nakResend (p : Fin 9)
  /-- REPLAY_TIMEOUT (R262): With flits held and ACK stalled for the timeout, the transmitter replays, and after MAX replays the port goes DOWN. -/
  | replayTimeout (p : Fin 9)
  /-- DOWN_RETRY_EXPIRY (R253): WLT_RETRY after entry to DOWN the port enters TRAINING when commanded ON or DEGRADED. -/
  | downRetryExpiry (p : Fin 9)
  /-- LANE_LOCK (R249): A lane gains codeword lock, and the port moves to ALIGN when its full width locks. -/
  | laneLock (p : Fin 9) (lane : LaneCws)
  /-- TRAIN_TIMEOUT (R253): WLT_TRAIN_TO in TRAINING moves the port to ALIGN on a locked lane set, or to DOWN. -/
  | trainTimeout (p : Fin 9)
  /-- ALIGN_TIMEOUT (R253): 1 ms in ALIGN sends the port to DOWN. -/
  | alignTimeout (p : Fin 9)
  /-- LANE_BAD (R256): An active lane goes bad, and the port stops MSG flits and sends LANE_MAP naming a narrower set. -/
  | laneBad (p : Fin 9) (lane : LaneCws)
  /-- LANE_SWITCH (R256): Both ends switch to the new lane set at the next CWSEQ 0 boundary and replay. -/
  | laneSwitch (p : Fin 9)
  /-- ALIGN (R270): A received ALIGN is checked for AUTH and SESSION, and its buffer sizes and lane set are adopted. -/
  | align (p : Fin 9) (f : Lctrl)
  /-- ALIGN_DONE (R268): A received ALIGN_DONE completes ALIGN and moves the port to HELLO. -/
  | alignDone (p : Fin 9) (f : Lctrl)
  /-- LANE_MAP (R256): A received LANE_MAP stops MSG flits and is answered LANE_MAP_DONE. -/
  | laneMap (p : Fin 9) (f : Lctrl)
  /-- LANE_MAP_DONE (R256): A received LANE_MAP_DONE lets the width switch proceed. -/
  | laneMapDone (p : Fin 9) (f : Lctrl)
  /-- HELLO (R284): A received HELLO is put to the identity check, and the port enters UP when it passes. -/
  | hello (p : Fin 9) (m : Msg)
  /-- HELLO_RESEND (R286): In HELLO the port resends HELLO every 100 µs. -/
  | helloResend (p : Fin 9)
  /-- HELLO_TIMEOUT (R286): 1 ms in HELLO without a passing HELLO sends the port to DOWN. -/
  | helloTimeout (p : Fin 9)
  /-- HEARTBEAT (R281): A received HEARTBEAT restarts the heartbeat timeout. -/
  | heartbeat (p : Fin 9) (m : Msg)
  /-- HEARTBEAT_SEND (R280): Every WLT_HB.PERIOD the port sends HEARTBEAT. -/
  | heartbeatSend (p : Fin 9)
  /-- HEARTBEAT_TIMEOUT (R281): No HEARTBEAT for WLT_HB.TIMEOUT sends the port to DOWN. -/
  | heartbeatTimeout (p : Fin 9)
  /-- READ (R274): A partner READ is checked and served, and answered by READ_RSP with lines and poison bits. -/
  | read (p : Fin 8) (m : Msg)
  /-- WRITE (R275): A partner WRITE writes lines or masked bytes, and is answered by WRITE_ACK once accepted. -/
  | write (p : Fin 8) (m : Msg)
  /-- TACK_SET (R276): A TACK_SET adds to or writes a tack when its EXT and EXT_WRITE permit, optionally answered by CTRL_ACK. -/
  | tackSet (p : Fin 8) (m : Msg)
  /-- EPOCH_CTRL (R276): An EPOCH_CTRL from a partner with epoch authority is a boundary trigger, answered by CTRL_ACK. -/
  | epochCtrl (p : Fin 8) (m : Msg)
  /-- READ_RSP (R166): A READ_RSP for a Veper request delivers its lines, or poisoned +0 on error. -/
  | readRsp (p : Fin 8) (m : Msg)
  /-- WRITE_ACK (R166): A WRITE_ACK completes a remote write of the Veper. -/
  | writeAck (p : Fin 8) (m : Msg)
  /-- EVENT_BATCH (R217): A received EVENT_BATCH is checked, and its events are filed by due step in matching VCs or dropped. -/
  | eventBatch (p : Fin 8) (m : Msg)
  /-- STREAM_DATA (R311): A STREAM_DATA message is staged and written into its channel's FRAME or EVENT ring. -/
  | streamData (p : Fin 8) (m : Msg)
  /-- FRAME_PUBLISH (R312): Once every line of a closed frame or event message is acknowledged, WR is incremented and published. -/
  | framePublish (c : Fin 8)
  /-- REQUEST_SEND (R292): A Veper request waiting for a response reserve reserves it and is sent. -/
  | requestSend (p : Fin 8)
  /-- REQUEST_TIMEOUT (R294): WLT_REQ_TO after reservation an unanswered request completes locally with TIMEOUT. -/
  | requestTimeout (p : Fin 8) (txn : Nat)
  /-- CREDIT_STALL_FENCE (R296): An RS or MG stall lasting WLT_STALL_TO fences the port and adds 16 strikes. -/
  | creditStallFence (p : Fin 9)
  /-- QUOTA_REFILL (R288): Every 1,024 cc QRATE tokens are added to each bucket, up to QBURST. -/
  | quotaRefill (p : Fin 8)
  /-- STRIKE_LEAK (R289): Every 2^20 cc STRIKES falls by 1. -/
  | strikeLeak
  /-- JRNL (R326): A received journal record is written to the RX ring, or counted bad. -/
  | jrnl (m : Msg)
  /-- COMMIT (R327): A received COMMIT is answered by COMMIT_ACK once every earlier record is in the RX ring. -/
  | commit (m : Msg)
  /-- COMMIT_ACK (R328): A received COMMIT_ACK ends COMMIT, and OK advances the mirror state or another status marks it STALE. -/
  | commitAck (m : Msg)
  /-- COMMIT_TIMEOUT (R321): A COMMIT unanswered after TWN_COMMIT_TO makes the pair ISOLATED. -/
  | commitTimeout
  /-- TSTATE (R333): A received TSTATE replaces the held one and may send the pair to MISCONFIG. -/
  | tstate (m : Msg)
  /-- TDOWN (R321): A received TDOWN moves the pair to PEER_FAILED. -/
  | tdown (m : Msg)
  /-- REPLICA_APPLY (R328): Committed records are applied from the RX ring into replica windows in ring order. -/
  | replicaApply
  /-- SEED_WALK (R334): With OUT SEEDING the walk reads protected lines and forms SEED records. -/
  | seedWalk
  /-- REF_CHECK_FAIL (R341): A reference fails an activity or frequency check and is disqualified. -/
  | refCheckFail (r : Fin 3) (cause : Nat) (offset : BitVec 16)
  /-- REF_QUALIFY (R343): A reference that passes every check for CLK_QUAL_TIME qualifies. -/
  | refQualify (r : Fin 3) (offset : BitVec 16)
  /-- REVERT_HOLDOFF_EXPIRY (R344): A better candidate held for CLK_REV_HOLDOFF in revertive mode starts a switch. -/
  | revertHoldoffExpiry
  /-- REF_SWITCH_END (R347): A switch ends after 2 ms, and selection is applied again. -/
  | refSwitchEnd
  /-- FREQ_CHANGE_END (R339): A CCLK change ends after 100 µs, and TOD_INCR is reloaded with VALID cleared. -/
  | freqChangeEnd
  /-- TOD_ROLLOVER (R352): TOD's nanoseconds pass 999,999,999 and its seconds advance. -/
  | todRollover
  /-- PPS_OUT_FALL (R362): PPS_OUT falls WIDTH × 1,024 cc after rising. -/
  | ppsOutFall
  /-- PPS_EDGE (R359): A filtered PPS_IN rising edge is counted, and its event occurs 16 cc later. -/
  | ppsEdge (high : Nat)
  /-- FAULT_RING_COPY (R399): The fault writer issues a record's ring copy to HBM in order. -/
  | faultRingCopy
  /-- TRACE_RECORD_WRITE (R407): The trace writer writes a held record at TRACE_WR, and drops records when its buffer is full. -/
  | traceRecordWrite
  /-- CONTAINMENT (R400): An uncorrectable error in control state stops the Veper and writes CHIP_FATAL. -/
  | containment (unit : Fin 105)
  /-- SUPPLY_FAULT (R410): VDD, VDDM or VDDIO out of range for 1 µs acts as PORST_N. -/
  | supplyFault
  /-- PORST_ASSERT (R420): PORST_N asserted resets the Veper in any state. -/
  | porstAssert
  /-- PORST_RELEASE (R415): The release of PORST_N samples the straps and starts the cold sequence. -/
  | porstRelease (straps : BitVec 4)
  /-- PLL_LOCK (R415): The core PLL locks to the boot reference, and GLB_CCNT, TOD, the self-test and HBM initialisation start. -/
  | pllLock
  /-- BIST_COMPLETE (R416): The SRAM self-test ends, marking units OFF or entering containment for unrepaired faults. -/
  | bistComplete (failed : List Nat)
  /-- HBM_TRAINING_COMPLETE (R417): A stack finishes training and starts zero-fill, or is marked failed. -/
  | hbmTrainingComplete (h : Fin 4) (ok : Bool)
  /-- ZERO_FILL_COMPLETE (R415): Zero-fill ends, and DEV_READY rises once the last stage ends. -/
  | zeroFillComplete (h : Fin 4)
  /-- WARMRST_ASSERT (R413): WARMRST_N recognised lowers DEV_READY, sends TDOWN and stops work. -/
  | warmrstAssert
  /-- WARM_RESET_POINT (R414): 3,072 cc later blocks reset as Table 20.3 gives and HBM enters self-refresh. -/
  | warmResetPoint
  /-- WARMRST_RELEASE (R419): WARMRST_N recognised released starts the warm sequence. -/
  | warmrstRelease
  /-- WARM_SEQUENCE_END (R419): The warm sequence ends and DEV_READY rises. -/
  | warmSequenceEnd (failed : List Nat)
  /-- CBL_ILLEGAL (R188): A Cobbler instruction word whose OP is reserved (0x00, 0x13, 0x1D to 0x1F, 0x3F), the all-zero word included, halts the program with fault CBL_ILLEGAL. -/
  | cblIllegal (k : Fin 16)
  /-- MALFORMED_MESSAGE (R277): A received message with a reserved TYPE, a twin code on a Welt port, a type of another virtual channel or an unreadable LEN is discarded up to the next FIRST offset, counted in WLT_MALFORMED and given a strike. -/
  | malformedMessage (p : Fin 9) (m : Msg)
  /-- LATE_RSP (R279): A received SUBMIT_RSP or CTRL_ACK matches no outstanding request, since the Veper sends no SUBMIT, TACK_SET or EPOCH_CTRL, and is discarded and counted in WLT_LATE_RSP. -/
  | lateRsp (p : Fin 8) (m : Msg)
  /-- SUPPLY_RETURN (R410): When VDD, VDDM and VDDIO all return within range, the supply monitors release as PORST_N does and the cold sequence starts. -/
  | supplyReturn
  /-- JTAG_ACCESS (R436): TCK-clocked IEEE 1149.1 operations through TMS and TDI run BYPASS, IDCODE, SAMPLE/PRELOAD and EXTEST, and drive the balls only while TEST_EN is sampled low and DEV_READY is low. -/
  | jtagAccess (instr : Fin 4) (shift : List Bool)
  deriving DecidableEq, Repr

end Sys2Proof
end

