-- ==== Sys2Proof/Config.lean ====
section
/-! DEFINITION. The values the spec leaves open, as constants without a body: no proof can see what they are.
Each is applied to the operands it depends on, or to the count `freeCtr` of State for a fresh value at each use. -/

namespace Sys2Proof

/-- The FP32 result bits of an SFU function outside the edge cases of Table 05.6 (R105 bounds the error and gives no
bits; they count where they keep the bound; log entry 20). The arguments are the opcode, MOD_P0 and the operand: its sign
and its magnitude as a reduced fraction. -/
opaque Config.sfu : Nat → Nat → Bool → Nat → Nat → BitVec 32

/-- The stored bits that a scalar operand gives a bitwise operation or shift where its value is no element of the
source's type: the type, P0 and the stored bits of a (Table 05.5 states no result there; log entry 26). -/
opaque Config.scalarBits : Nat → Nat → Nat → BitVec 64

/-- The syndrome bits MEM_LOG_INFO.SYN reports (R247: not part of the interface; log entry 21). -/
opaque Config.freeSyn : Nat → BitVec 5

/-- The random session and nonce material of ALIGN where R271 takes a fresh value (log entry 22). -/
opaque Config.freeNonce : Nat → BitVec 48

/-- The raw data a read delivers where the spec fixes only that it is poisoned (log entry 23). -/
opaque Config.freeByte : Nat → BitVec 8

/-- What a lane's scrambler holds before its first codeword (R249 names the scrambler and no start; log entry 83). The
argument is 8 times the port plus the lane. -/
opaque Config.freeScr : Nat → BitVec 58

/-- A value the spec does not state, as FP32 bits (log entry 23). -/
opaque Config.freeWord : Nat → BitVec 32

/-- The boundary-scan cell order and the level a ball shows to it (R436: the BSDL file, not the manual; log entry 24). -/
opaque Config.freeCell : Nat → Bool

end Sys2Proof
end

