-- ==== Sys2Proof/Machine/Map.lean ====
section
/-! DEFINITION. Sparse maps keyed by a number: lists of (key, value) pairs in one canonical form (keys strictly
rising, no entry equal to what an unlisted key reads as). HBM is one of them, a list of Host.Cell. -/

namespace Sys2Proof.Machine

variable {α : Type}

/-- The value at key `k`: the first listed entry of that key, else what an unlisted key reads as, `d k`. -/
def mget (d : Nat → α) : List (Nat × α) → Nat → α
  | [], k => d k
  | (k', v) :: m, k => if k' = k then v else mget d m k

/-- `m` without any entry of key `k`. -/
def merase : List (Nat × α) → Nat → List (Nat × α)
  | [], _ => []
  | (k', v) :: m, k => if k' = k then merase m k else (k', v) :: merase m k

/-- `m` with the entry (k, v) put before the first greater key. -/
def minsert (m : List (Nat × α)) (k : Nat) (v : α) : List (Nat × α) :=
  match m with
  | [] => [(k, v)]
  | (k', v') :: m' => if k < k' then (k, v) :: (k', v') :: m' else (k', v') :: minsert m' k v

/-- The map with `v` at key `k`; writing what an unlisted key reads as removes the entry. -/
def mset [DecidableEq α] (d : Nat → α) (m : List (Nat × α)) (k : Nat) (v : α) : List (Nat × α) :=
  if v = d k then merase m k else minsert (merase m k) k v

/-- The map with `f` applied to the value at key `k`. -/
def mmod [DecidableEq α] (d : Nat → α) (m : List (Nat × α)) (k : Nat) (f : α → α) : List (Nat × α) :=
  mset d m k (f (mget d m k))

/-- The canonical form: keys strictly rising above `lo` and no entry equal to its default. -/
def mwfFrom [DecidableEq α] (d : Nat → α) : Nat → List (Nat × α) → Bool
  | _, [] => true
  | lo, (k, v) :: m => decide (lo ≤ k) && decide (v ≠ d k) && mwfFrom d (k + 1) m

/-- The canonical form of a sparse map. -/
def mwf [DecidableEq α] (d : Nat → α) (m : List (Nat × α)) : Bool := mwfFrom d 0 m

/-- Bytes, all zero where nothing is listed. -/
def zeroByte (_ : Nat) : Byte := 0

/-- The `n` bytes at `a`. -/
def bytesAt (m : List (Nat × Byte)) (a n : Nat) : List Byte := (List.range n).map fun i => mget zeroByte m (a + i)

/-- `m` with the bytes `bs` at `a`. -/
def putBytes (m : List (Nat × Byte)) (a : Nat) (bs : List Byte) : List (Nat × Byte) :=
  match bs with
  | [] => m
  | b :: bs => putBytes (mset zeroByte m a b) (a + 1) bs

/-- Every entry whose key lies in [lo, lo + n) removed. -/
def dropRange (m : List (Nat × α)) (lo n : Nat) : List (Nat × α) :=
  m.filter fun e => !(decide (lo ≤ e.1) && decide (e.1 < lo + n))

end Sys2Proof.Machine
end

