-- ==== Sys2Proof/Machine/State.lean ====
section
/-! DEFINITION. The state of the Veper as plain data: every register, table, queue, memory and unit record the spec
names, the queue of waiting commands, and the state after the cold sequence (R418). -/

namespace Sys2Proof.Machine

/-- Why a run stops with a fault. -/
inductive Fault where
  /-- A self-test result names a unit number the Veper does not have (Table 18.14). Raised by BIST_COMPLETE and
  WARM_SEQUENCE_END; safe: the self-test forms no such number. -/
  | noSuchUnit (unit : Nat)
  deriving DecidableEq, Repr

/-- Why a command has no meaning here. -/
inductive Refusal where
  /-- The command has no meaning in the model yet. Raised by no arm of `exec` once every meaning stands; safe. -/
  | notModelled (mnemonic : String)
  deriving DecidableEq, Repr

/-- What the code of a memory word or line finds (R237, R239): no error, a correctable error, a natural uncorrectable
error, or the poison marker. -/
inductive Err where
  | clean | ce | ue | poison
  deriving DecidableEq, Repr

/-- The epoch states of Table 02.2. -/
inductive EState where
  | idle | opened | drain | flush | commit | clear | opening
  deriving DecidableEq, Repr

/-- The stages from PORST_N to DEV_READY and through a warm reset (R411 to R420). -/
inductive Stage where
  /-- PORST_N (or R410) is asserted. -/
  | porst
  /-- TEST_EN was sampled high: only the JTAG port works (R412). -/
  | test
  /-- The cold sequence waits for the core PLL to lock (R415 stage 1). -/
  | locking
  /-- Self-test, training and zero-fill run (R415 stages 2 to 4). -/
  | cold
  /-- DEV_READY is high. -/
  | ready
  /-- WARMRST_N is recognised as asserted and the reset point has not come (R413). -/
  | warmHold
  /-- The reset point has passed and WARMRST_N is still asserted (R414). -/
  | warmReset
  /-- The warm sequence runs (R419). -/
  | warmSeq
  deriving DecidableEq, Repr

/-- Power-up and reset (chapter 20). -/
structure Power where
  stage     : Stage := .ready
  /-- The cc in which the stage was entered. -/
  since     : Nat := 0
  /-- The core PLL has locked (CLK_STATUS.LOCK). -/
  pllLock   : Bool := true
  bistDone  : Bool := true
  bistFail  : Bool := false
  /-- An unrepaired fault outside the units of R416: containment at DEV_READY. -/
  bistFatal : Option Nat := none
  /-- Stacks that have finished training, trained or failed. -/
  trainEnd  : Nat := 15
  trained   : Nat := 15
  trainFail : Nat := 0
  zeroed    : Nat := 15
  /-- The sampled straps, GLB_STRAP[3:0] (R411). -/
  straps    : Nat := 0
  /-- A supply monitor holds the Veper in reset (R410). -/
  supplyLow : Bool := false
  /-- The cc in which PORST_N was last released (R289). -/
  porstAt   : Nat := 0
  /-- The PORST_N ball is low; WARMRST_N is recognised as asserted. -/
  porstLow  : Bool := false
  warmLow   : Bool := false
  /-- Containment is in force (R400). -/
  contained : Bool := false
  deriving DecidableEq, Repr

/-- The epoch state machine (chapter 02). -/
structure Epoch where
  state    : EState := .idle
  /-- EPC_COUNT, 40 bits. -/
  count    : Nat := 0
  /-- The cc in which the present epoch state was entered. -/
  since    : Nat := 0
  /-- The cc of the open, and the period and deadline it loaded (R26). -/
  openAt   : Nat := 0
  period   : Nat := 4096
  deadline : Nat := 4096
  /-- The period and deadline of this open have passed. -/
  periodHit   : Bool := false
  deadlineHit : Bool := false
  /-- The cc in which the close sequence started (R220). -/
  closeAt  : Nat := 0
  /-- The cc in which drain completed, and the cc spent waiting for the twin (R34). -/
  drainAt  : Nat := 0
  waitCc   : Nat := 0
  /-- EPC_CTRL.RUN as read in the first cc of CLEAR; CLEAR has cleared; the apply stage has run. -/
  runRead  : Bool := false
  cleared  : Bool := false
  applied  : Bool := false
  /-- The boundary opened from IDLE (no overhead counted before it). -/
  fromIdle : Bool := false
  /-- The boundary is to open at the schedule instant, and OPENING has completed before it and waits (R37, R38). -/
  held     : Bool := false
  waiting  : Bool := false
  /-- The commit record has been formed in this boundary, and COMMIT has ended without acknowledgement (R35). -/
  formed   : Bool := false
  unacked  : Bool := false
  /-- EPC_ABANDON, EPC_OVERHEAD, EPC_CAUSE. -/
  abandoned : Nat := 0
  overhead : Nat := 0
  cause    : Nat := 0
  /-- The triggers already seen in this cc, and the cc they were seen in (R23). -/
  causeCc  : Nat := 0
  /-- Schedule instant: armed, seconds, nanoseconds (R37, R383), and whether its trigger has occurred. -/
  armed    : Bool := false
  instSec  : Nat := 0
  instNs   : Nat := 0
  schedHit : Bool := false
  deriving DecidableEq, Repr

/-- A fault record (Table 19.2). -/
structure FaultRec where
  tag    : Nat := 0xFFFFFF
  code   : Nat := 0
  unit   : Nat := 0
  tenant : Nat := 0
  tv     : Bool := false
  queue  : Nat := 0
  qv     : Bool := false
  level  : Nat := 0
  time   : Nat := 0
  epoch  : Nat := 0
  detail : Nat := 0
  deriving DecidableEq, Repr

/-- The fault writer (R392, R398, R399). -/
structure FaultSt where
  /-- The global FIFO, oldest first, at most 64. -/
  fifo : List FaultRec := []
  /-- Records detected, with the cc in which they enter the FIFO, in the order of R398. -/
  due  : List (Nat × FaultRec) := []
  /-- Ring copies not yet issued: tenant and record, at most 8,192. -/
  ring : List (Nat × FaultRec) := []
  deriving DecidableEq, Repr

/-- The trace writer (R404 to R407): at most 256 records held, each as its two 64-bit words. -/
structure TraceSt where
  held   : List (Nat × Nat) := []
  valid  : Bool := false
  cfgErr : Bool := false
  wr     : Nat := 0
  deriving DecidableEq, Repr

/-- One unit of the unit state table (Table 19.5), CMD apart, which is a table word. -/
structure UnitSt where
  force   : Nat := 3
  obs     : Nat := 3
  changes : Nat := 0
  cause   : Nat := 0
  deriving DecidableEq, Repr

/-- A table access under way (R376): the cc it is made in, write or read, WMASK, and what TAB_SEL, TAB_INDEX and
TAB_DATA0-7 held at the commit. -/
structure TabAccess where
  due   : Nat := 0
  write : Bool := false
  wmask : Nat := 0
  sel   : Nat := 0
  index : Nat := 0
  data  : List Nat := []
  deriving DecidableEq, Repr

/-- The MSP (chapter 17). -/
structure MspSt where
  outcome   : Nat := 0
  committed : Nat := 0
  wrDiscard : Bool := false
  frameErr  : Bool := false
  /-- The bytes last driven on MSP_SDO. -/
  sdo       : List Byte := []
  /-- MSP_ALERT_N is driven low (R374). -/
  alertLow  : Bool := false
  /-- A table access under way. -/
  tabAt     : Option TabAccess := none
  tabErr    : Nat := 0
  deriving DecidableEq, Repr

/-- A tack's dynamic state (Table 04.3). -/
structure TackSt where
  value      : Nat := 0
  updates    : Nat := 0
  extRefused : Bool := false
  saturated  : Bool := false
  deriving DecidableEq, Repr

/-- A tack update on its way (R85): the cc it applies in, the rank of its source, the tack, whether it writes, and
its value. Ranks rise as SET by queue, Cobbler, TACK_SET by port, a port's stream adds after its messages. -/
structure TackUpd where
  due   : Nat
  rank  : Nat
  tack  : Nat
  write : Bool
  value : Nat
  deriving DecidableEq, Repr

/-- A tenant's state in the open epoch (Table 14.3) and its knot detector (R88 to R90). -/
structure TenSt where
  valid      : Bool := false
  cfgErr     : Bool := false
  abandoned  : Bool := false
  jexhausted : Bool := false
  jused      : Nat := 0
  fringWr    : Nat := 0
  faults     : Nat := 0
  /-- The knot condition held at the last sample. -/
  knotOnce   : Bool := false
  deriving DecidableEq, Repr

/-- A window's dynamic fields (Table 11.2). -/
structure WinSt where
  valid  : Bool := false
  cfgErr : Bool := false
  gen    : Nat := 0
  deriving DecidableEq, Repr

/-- A Last record as it stands in memory or the record cache: 64 bytes as eight 64-bit words (chapter 07). -/
abbrev LastRec := List Nat

/-- A scoreboard entry (R66, R67): write or read, and what it covers: an HBM granule range of tenant addresses, a CBUF
granule range of one VC or of every VC (`vc` none), a Cobbler-local granule range, or a set of scalar registers. -/
inductive Span where
  | hbm (lo n : Nat)
  | cbuf (vc : Option Nat) (lo n : Nat)
  | cbl (k lo n : Nat)
  | sr (queue mask : Nat)
  deriving DecidableEq, Repr

/-- A chain of a queue and the answer it owes (R55). -/
structure Chain where
  id       : Nat := 0
  /-- The head: tenant address, or the inline descriptor's sixteen words. -/
  addr     : Nat := 0
  inline   : Option (List Nat) := none
  /-- The port that submitted it; none for a Cobbler submit. -/
  port     : Option Nat := none
  submitId : Nat := 0
  rsp      : Nat := 0
  /-- What the answer echoes of the SUBMIT's header: TXN, TAG, SRC, TENANT. -/
  txn      : Nat := 0
  htag     : Nat := 0
  src      : Nat := 0
  tenant   : Nat := 0
  /-- The link-up of the port it came on (R254). -/
  link     : Nat := 0
  faults   : Nat := 0
  deriving DecidableEq, Repr

/-- How far a fetched descriptor has come. -/
inductive FetchPhase where
  /-- The fetch has started; a DCACHE hit already holds its content (R57). -/
  | asked
  /-- Its own checks (orders 1 to 4) passed; the Last records of these operands are still loading. -/
  | loading (missing : List Nat)
  /-- Every check passed; it can issue. -/
  | ready
  /-- A check failed: fault code, tag and detail (R47). -/
  | bad (code tag detail : Nat)
  deriving DecidableEq, Repr

/-- A descriptor between its fetch and its issue (R46). -/
structure Fetch where
  addr    : Nat := 0
  /-- The tag a fetch fault carries (Table 03.9): the predecessor's, or HEAD. -/
  predTag : Nat := 0xFFFFFD
  inline  : Bool := false
  chain   : Nat := 0
  /-- The sixteen 64-bit words, none until its HBM read returns. -/
  words   : Option (List Nat) := none
  poison  : Bool := false
  recs    : List (Option LastRec) := [none, none, none, none, none]
  /-- The once-per-descriptor codes its fetch has written (R239). -/
  wrote   : List Nat := []
  phase   : FetchPhase := .asked
  /-- The cc of the last phase change. -/
  at_     : Nat := 0
  deriving DecidableEq, Repr

/-- A WAIT or TWAIT under evaluation (R86, R87, R198). -/
structure Waiting where
  tack    : Nat := 0
  thresh  : Nat := 0
  consume : Bool := false
  /-- The cc it times out in, if ever. -/
  until_  : Option Nat := none
  /-- WAIT: continue at this address on timeout; none: fault WAIT_TIMEOUT. -/
  toNext  : Option Nat := none
  /-- WAIT: where its queue goes on when it is satisfied; none: its chain has ended (R45, R82). -/
  goes    : Option Nat := none
  deriving DecidableEq, Repr

/-- A value of the number system of chapter 06, exact: NaN, an infinity, or (−1)^neg · num / den (den positive; a
zero keeps its sign), with its poison. -/
structure Num where
  nan    : Bool := false
  inf    : Bool := false
  neg    : Bool := false
  num    : Nat := 0
  den    : Nat := 1
  poison : Bool := false
  deriving DecidableEq, Repr

/-- A value held between tiles: a reduction partial (R108) with its tile, its set, the VC that formed it and its one or
two values; or a result of an MX block the store path still gathers (R144), `slot` its flat destination index. -/
structure Partial where
  tile : Nat := 0
  slot : Nat := 0
  vc   : Nat := 0
  vals : List Num := []
  deriving DecidableEq, Repr

/-- A 64-byte line a READ_RSP delivered: the request's node, tenant and address at the owner, its data and poison bit. -/
structure RemoteLine where
  port   : Nat := 0
  node   : Nat := 0
  tenant : Nat := 0
  addr   : Nat := 0
  data   : List Byte := []
  poison : Bool := false
  deriving DecidableEq, Repr

/-- An owner entry as it stood when a tile's accesses through it were issued: its first three words (Table 02.7, R164). -/
structure OwnSnap where
  tile  : Nat := 0
  entry : Nat := 0
  words : List Nat := []
  deriving DecidableEq, Repr

/-- An in-flight descriptor (R63, R64). -/
structure Flight where
  seq     : Nat := 0
  words   : List Nat := []
  recs    : List (Option LastRec) := []
  chain   : Nat := 0
  /-- The cc of its issue. -/
  issued  : Nat := 0
  /-- P0 to P4 as resolved at issue (R42). -/
  params  : List Nat := []
  entries : List (Bool × Span) := []
  /-- How many of the tenant's 512 scoreboard entries it holds (R66). -/
  need    : Nat := 0
  /-- The chain ends with this descriptor (R45). -/
  ends    : Bool := false
  tiles   : Nat := 0
  dealt   : Nat := 0
  lastVc  : Option Nat := none
  /-- The cc in which its last tile was dealt (R91). -/
  dealtAt : Nat := 0
  done    : Nat := 0
  /-- Its own work has completed, stores apart. -/
  complete : Bool := false
  wait    : Option Waiting := none
  /-- The codes of the once-per-descriptor fault records it has written (R101, R102, R239). -/
  wrote   : List Nat := []
  faults  : Nat := 0
  srOut   : Option Nat := none
  /-- Reduction partials, and results of MX blocks not yet complete. -/
  partials : List Partial := []
  /-- The count an opcode delivers to SR_OUT, and that a poisoned element entered it (R100). -/
  count    : Nat := 0
  cntPoison : Bool := false
  combined : Bool := false
  /-- Remote requests it has sent and not seen completed (R64, R165). -/
  remote  : Nat := 0
  /-- Lines READ_RSP has brought for its remote reads: owner port, address, 64 bytes, poison. -/
  lines   : List RemoteLine := []
  /-- The owner entries its tiles' issued accesses go by (a SCATTER's destination addresses under 2^64 + the tile), and
  the tiles a source Awl has taken (R168). -/
  owns    : List OwnSnap := []
  taken   : List Nat := []
  /-- Cobblers a COBBLER descriptor launched that have not halted. -/
  launched : Nat := 0
  abandoned : Bool := false
  deriving DecidableEq, Repr

/-- A loop stack entry (R81). -/
structure LoopEntry where
  left : Nat := 0
  body : Nat := 0
  idx  : Nat := 0
  /-- Where the queue goes on when the loop is left: the LOOP's NEXT, or what its LAST gave as it issued; none: the
  chain ends (R45, R82). -/
  next : Option Nat := none
  iter : Nat := 0
  deriving DecidableEq, Repr

/-- A comparator's configuration (R77, R78). -/
structure Cmp where
  a      : Nat := 0
  b      : Nat := 0
  rel    : Nat := 0
  interp : Nat := 0
  imm    : Nat := 0
  deriving DecidableEq, Repr

/-- Scoreboard entries a retired descriptor held: the cc of its issue and of its retirement, how many they were, and what
they cover. They hold new descriptors back until 13 cc later (R69). -/
structure Freed where
  issued  : Nat := 0
  cc      : Nat := 0
  need    : Nat := 0
  entries : List (Bool × Span) := []
  deriving DecidableEq, Repr

/-- One of DQ0 to DQ63. -/
structure QueueSt where
  /-- Valid under R60, and CFG_ERR. -/
  valid     : Bool := false
  cfgErr    : Bool := false
  /-- The chain-head FIFO, oldest first. -/
  fifo      : List Chain := []
  /-- The chain running, and chains whose end has issued but whose answer is still owed. -/
  chain     : Option Chain := none
  owed      : List Chain := []
  /-- Descriptors fetched and not issued, in chain order. -/
  fetch     : List Fetch := []
  /-- The next address to fetch and the tag of the descriptor that named it; none while it is unknown (R46). -/
  next      : Option (Nat × Nat) := none
  /-- The first cc in which that fetch may start: the one after a head left the FIFO, a BRANCH or LOOP issued, or a WAIT
  was satisfied (R46, R74, R86). -/
  nextAt    : Nat := 0
  flight    : List Flight := []
  freed     : List Freed := []
  loops     : List LoopEntry := []
  cnt       : List Nat := List.replicate 8 0
  cmp       : List Cmp := List.replicate 4 {}
  sr        : List Nat := List.replicate 8 0
  stopped   : Bool := false
  /-- An EPOCH_END has issued in this epoch (R45). -/
  ended     : Bool := false
  abandoned : Bool := false
  retired   : Nat := 0
  cringWr   : Nat := 0
  lastTag   : Nat := 0
  refused   : Nat := 0
  credit    : Nat := 0
  /-- The granted mask of a timed queue (R71). -/
  granted   : Option Nat := none
  /-- base(k) of R74. -/
  base      : Nat := 0
  nextSeq   : Nat := 0
  nextChain : Nat := 0
  deriving DecidableEq, Repr

/-- A tile in a VC's input queue: its descriptor (queue and issue number) and its number. -/
structure Tile where
  queue : Nat := 0
  seq   : Nat := 0
  no    : Nat := 0
  deriving DecidableEq, Repr

/-- Who made an HBM write or read that the controller has accepted and not yet completed. -/
inductive Who where
  | flight (queue seq : Nat)
  | cobbler (k n : Nat)
  | stream (c : Nat)
  | port (p : Nat)
  /-- The completion writer and the descriptor fetches of a queue. -/
  | queue (q : Nat)
  | status
  | twin
  deriving DecidableEq, Repr

/-- An accepted HBM access of one line not yet complete (R242): its controller, its line, whether it writes, and the
rewrite R239 makes at its completion (the error state the line then takes). -/
structure Acc where
  hc    : Nat := 0
  line  : Nat := 0
  write : Bool := true
  who   : Who := .status
  fix   : Option Err := none
  deriving DecidableEq, Repr

/-- A scrubber's place, the cc of its next step, and the passes it has completed (R243 to R245). -/
structure Scrub where
  pos : Nat := 0
  due : Nat := 0
  passes : Nat := 0
  deriving DecidableEq, Repr

/-- A record of the record cache (R153): tenant, Last index, the physical address of its line, its content. -/
structure CachedRec where
  tenant : Nat := 0
  index  : Nat := 0
  pa     : Nat := 0
  record : LastRec := []
  /-- The error state of its stored words (R238). -/
  err    : Err := .clean
  deriving DecidableEq, Repr

/-- HBM, CBUF and Cobbler local memory, the DCACHE and the record cache (chapter 11). Keys of `sram`: CBUF byte o of
VC v at v·2^21 + o, local byte o of Cobbler q at 2^27 + q·2^16 + o; its words are 16 bytes, its groups 512. -/
structure MemSt where
  hbm      : List Host.Cell := []
  hbmErr   : List (Nat × Err) := []
  sram     : List Host.Cell := []
  sramErr  : List (Nat × Err) := []
  valid    : List (Nat × Bool) := []
  badPar   : List (Nat × Bool) := []
  acc      : List Acc := []
  /-- Valid DCACHE lines (HBM line pairs), most recently used first, as physical address / 128. -/
  dcache   : List Nat := []
  /-- The error state of a DCACHE line's stored words, by physical address / 128 (R238). -/
  dcErr    : List (Nat × Err) := []
  /-- Cached Last records: tenant, index, physical address, content. -/
  rcache   : List CachedRec := []
  hbmScrub : List (Nat × Scrub) := []
  sramScrub : List (Nat × Scrub) := []
  deriving DecidableEq, Repr

/-- An asynchronous HBM operation of a Cobbler (R196). -/
structure CblOp where
  id    : Nat := 0
  /-- 0 LWH, 1 SWH, 2 HGET, 3 HPUT. -/
  kind  : Nat := 0
  addr  : Nat := 0
  n     : Nat := 4
  /-- RD of LWH, or the local address of HGET. -/
  dest  : Nat := 0
  data  : List Byte := []
  /-- The PC of its instruction. -/
  pc    : Nat := 0
  /-- The first 16-byte word of a read that is poisoned. -/
  bad   : Option Nat := none
  /-- Its program has halted: outstanding reads are discarded (R202). -/
  dead  : Bool := false
  deriving DecidableEq, Repr

/-- A 128-byte image line of a Cobbler's fetch buffer (R192): its number, and its content once it has returned. -/
structure CblLine where
  no     : Nat := 0
  /-- The line whose instruction asked for it, and the cc it is asked for in. -/
  src    : Nat := 0
  at_    : Nat := 0
  bytes  : Option (List Byte) := none
  /-- The error state of the buffer's own words (R238). -/
  err    : Err := .clean
  deriving DecidableEq, Repr

/-- What an instruction does in a later cc: the read of a scalar register half by SRRD (R199), or the head a SUBMIT
brings to the queue engine for its tenant (R200), and the register that receives the result (0: none). -/
structure CblLate where
  due    : Nat := 0
  submit : Bool := false
  queue  : Nat := 0
  /-- SRRD: FN[3:0]. SUBMIT: the head. -/
  arg    : Nat := 0
  tenant : Nat := 0
  rd     : Nat := 0
  deriving DecidableEq, Repr

/-- One of CBL0 to CBL15 (chapter 09). -/
structure CblSt where
  running : Bool := false
  regs    : List Nat := List.replicate 16 0
  pc      : Nat := 0
  /-- The launching descriptor's queue, number, tenant, tag, PROG and LEN. -/
  queue   : Nat := 0
  seq     : Nat := 0
  tenant  : Nat := 0
  tag     : Nat := 0
  prog    : Nat := 0
  len     : Nat := 0
  started : Bool := false
  /-- The first cc in which the next instruction may issue, in which each register has passed the Lat of the instruction
  that last wrote it, and in which the divider is free (R191, R192). -/
  issueAt : Nat := 0
  regAt   : List (Nat × Nat) := []
  divAt   : Nat := 0
  late    : List CblLate := []
  lines   : List CblLine := []
  ops     : List CblOp := []
  nextOp  : Nat := 0
  /-- The TWAIT it stands at and its RD. -/
  twait   : Option Waiting := none
  twaitRd : Nat := 0
  /-- The once-per-program record codes written (R239). -/
  wrote   : List Nat := []
  /-- The tenant that holds it in the open epoch (R184). -/
  holder  : Option Nat := none
  deriving DecidableEq, Repr

/-- An event in a delay-queue slot: its address and bit 4 of its due step (R215). -/
structure DelayEv where
  addr : Nat := 0
  bit4 : Bool := false
  /-- The error state of its delay-queue entry (R238). -/
  err  : Err := .clean
  deriving DecidableEq, Repr

/-- One of VC0 to VC63: its tile input queue (R91) and its event plane (chapter 10). -/
structure VcSt where
  tiles     : List Tile := []
  /-- The tenant whose turn it is to have its slots filled, and the tiles left of that turn (R92). -/
  turn      : Nat := 0
  turnLeft  : Nat := 0
  /-- The route entry set is valid and enabled (R205), and CFG_ERR. -/
  evValid   : Bool := false
  evCfgErr  : Bool := false
  /-- The sixteen delay-queue slots, by slot number. -/
  delay     : List (Nat × List DelayEv) := []
  /-- Events of this step from batches and stream rings, after the slot's own (R217, R218). -/
  extra     : List Nat := []
  delivered : Nat := 0
  delivEnd  : Bool := true
  updated   : Bool := true
  /-- Input accumulators by neuron, and neurons with a poisoned input (R225). -/
  acc       : List (Nat × Int) := []
  accPoison : List Nat := []
  evtPoison : Bool := false
  stretch   : Nat := 0
  /-- The cc in which an event due in the step was last delivered or dropped (R220). -/
  lastDue   : Nat := 0
  deriving DecidableEq, Repr

/-- A batch of remote events being gathered or waiting for EV credit (R216). -/
structure Batch where
  port   : Nat := 0
  node   : Nat := 0
  tenant : Nat := 0
  due    : Nat := 0
  events : List Nat := []
  closed : Bool := false
  deriving DecidableEq, Repr

/-- A message a source Awl has sent to a home Awl (R171): a contribution of a tile (destination element offset and
address, the value's stored bits or exact value, poison), or the tile's end marker. -/
structure ScMsg where
  queue   : Nat := 0
  seq     : Nat := 0
  tile    : Nat := 0
  marker  : Bool := false
  /-- Flat destination index, and the VC that performs a LOCAL access. -/
  dst     : Nat := 0
  vc      : Nat := 0
  value   : List Num := []
  deriving DecidableEq, Repr

/-- An entry of a combine table: the destination element, the tile that first touched it and its running value (R173). -/
structure Comb where
  dst   : Nat := 0
  vc    : Nat := 0
  tile  : Nat := 0
  value : List Num := []
  deriving DecidableEq, Repr

/-- A SCATTER descriptor at a home Awl: the reorder buffer, the tiles whose end markers it holds, and the table. -/
structure ScJob where
  queue   : Nat := 0
  seq     : Nat := 0
  held    : List ScMsg := []
  ended   : List Nat := []
  applied : Nat := 0
  table   : List Comb := []
  /-- The write-back has been made, or none is due. -/
  done    : Bool := false
  deriving DecidableEq, Repr

/-- One of AWL0 to AWL7: as source, the messages on the Shank to each home in order, and the suspended tiles; as home,
the SCATTER descriptors it serves in issue order. -/
structure AwlSt where
  out       : List (Nat × List ScMsg) := []
  suspended : List Tile := []
  jobs      : List ScJob := []
  deriving DecidableEq, Repr

/-- The port states of Table 12.5. -/
inductive PState where
  | disabled | down | training | align | hello | up | fenced | quarantined
  deriving DecidableEq, Repr

/-- A message on its way out of a port: its bytes, and the egress reserve it holds (R293). -/
structure TxMsg where
  bytes : List Byte := []
  heads : Nat := 0
  units : Nat := 0
  deriving DecidableEq, Repr

/-- A MSG flit the replay buffer holds (R260). -/
structure HeldFlit where
  seq     : Nat := 0
  vc      : Nat := 0
  first   : Nat := 31
  payload : List Byte := []
  deriving DecidableEq, Repr

/-- A message decoded in a receive buffer and the flits its leaving frees (R267). -/
structure RxMsg where
  msg   : Msg := {}
  flits : Nat := 0
  deriving DecidableEq, Repr

/-- One virtual channel of a port. -/
structure Chan where
  /-- Messages waiting to be sent, and how many bytes of the first have gone. -/
  tx      : List TxMsg := []
  txOff   : Nat := 0
  /-- The partner's announced buffer, MSG flits sent, and the partner's running count of flits freed (R266). -/
  peerBuf : Nat := 0
  sent    : Nat := 0
  peerCum : Nat := 0
  /-- The receive buffer: the message being assembled, the flits it has used, bytes to skip, decoded messages, flits freed. -/
  part    : List Byte := []
  partFl  : Nat := 0
  skip    : Bool := false
  rx      : List RxMsg := []
  freed   : Nat := 0
  deriving DecidableEq, Repr

/-- A request the Veper has formed on a port (R279, R292 to R294). -/
structure Req where
  txn     : Nat := 0
  write   : Bool := false
  who     : Who := .status
  addr    : Nat := 0
  nlines  : Nat := 1
  tenant  : Nat := 0
  tag     : Nat := 0
  node    : Nat := 0
  body    : List Byte := []
  /-- The cc its WLT_REQ_TO ends, once its reserve is held; none while it waits. -/
  due     : Option Nat := none
  deriving DecidableEq, Repr

/-- A codeword a port puts on a lane (R249, R250): the lane, the 20-bit control field, the 640 scrambled bytes. -/
structure CwOut where
  lane    : Nat := 0
  control : Nat := 0
  block   : List Byte := []
  deriving DecidableEq, Repr

/-- One of WP0 to WP7, or TP (port 8). -/
structure PortSt where
  state     : PState := .disabled
  /-- The cc in which the wait, attempt or limit of the present state ends (Table 12.6). -/
  limit     : Nat := 0
  /-- WLT_PHY as taken at the last entry to TRAINING, WLT_AUTH.EN and KSET as taken at the last entry to ALIGN (R389). -/
  phy       : Nat := 0
  authEn    : Bool := false
  kset      : Nat := 0
  /-- Lanes that hold codeword lock, the lane set in use, and a proposed narrower set (R256). -/
  locked    : Nat := 0
  lanes     : Nat := 0
  newLanes  : Option Nat := none
  mapDone   : Bool := false
  retrain   : Bool := false
  alignRx   : Bool := false
  doneTx    : Bool := false
  doneRx    : Bool := false
  txSess    : Nat := 0
  rxSess    : Nat := 0
  txc       : Nat := 0
  rxc       : Nat := 0
  slot      : Nat := 0
  txSeq     : Nat := 0
  rxSeq     : Nat := 0
  gotAny    : Bool := false
  gap       : Bool := false
  nak       : Bool := false
  /-- The cc in which an open gap sets NAK again, and in which held flits replay without a NAK. -/
  nakAt     : Nat := 0
  heldFl    : List HeldFlit := []
  /-- The held flits still to be resent in the replay under way. -/
  replay    : List HeldFlit := []
  replays   : Nat := 0
  ackAt     : Nat := 0
  crTurn    : Nat := 0
  evTurn    : Bool := false
  tagFails  : Nat := 0
  chans     : List (Nat × Chan) := []
  /-- LCTRL flits waiting to be sent: LTYPE and LANES. -/
  lctrl     : List (Nat × Nat) := []
  /-- Link-control content received and not yet acted on, oldest first (R268). -/
  lcRx      : List Lctrl := []
  /-- The last flit the port put on its lanes. -/
  lastFlit  : List Byte := []
  /-- The flit stream not yet cut into blocks, CWSEQ of the next codewords, the last codewords sent, and what each
  lane's scrambler holds (R249, R250). -/
  txStream  : List Byte := []
  cwSeq     : Nat := 0
  cwOut     : List CwOut := []
  scr       : List (Nat × Nat) := []
  nonce     : Nat := 0
  peerNonce : Nat := 0
  echoed    : Bool := false
  /-- The cc in which the next HELLO and the next HEARTBEAT are due, and in which the heartbeat timeout ends. -/
  helloAt   : Nat := 0
  hbTxAt    : Nat := 0
  hbRxAt    : Nat := 0
  hbCount   : Nat := 0
  helloFail : Nat := 0
  peerCaps  : Nat := 0
  strikes   : Nat := 0
  /-- HEARTBEATs formed and waiting for a reserved MG slot (R280). -/
  hb        : List TxMsg := []
  /-- How often the port has left HELLO, UP or FENCED: a response owed from before is discarded (R254). -/
  links     : Nat := 0
  /-- QRATE as taken at the last refill (R283, R288). -/
  qrate     : Nat := 0
  buckets   : List (Nat × Nat) := []
  /-- The cc of the next refill (R288). -/
  refillAt  : Nat := 0
  /-- Response reserve and egress reserve in use: headers and line units (R292, R293). -/
  rsvHeads  : Nat := 0
  rsvUnits  : Nat := 0
  egHeads   : Nat := 0
  egUnits   : Nat := 0
  nextTxn   : Nat := 0
  reqs      : List Req := []
  batches   : List Batch := []
  /-- The cc in which the stall under way ends (R296). -/
  stallAt   : Option Nat := none
  deriving DecidableEq, Repr

/-- A key table entry's key and dynamic fields (Table 12.12). -/
structure KeySt where
  key     : List Nat := [0, 0, 0, 0]
  session : Nat := 0
  tagFail : Nat := 0
  /-- KCV, 0 until a KEY word is written. -/
  kcv     : Nat := 0
  deriving DecidableEq, Repr

/-- An open frame of a FRAME-mode stream (R311). -/
structure Frame where
  fseq   : Nat := 0
  gap    : Bool := false
  trunc  : Bool := false
  bytes  : Nat := 0
  index  : Nat := 0
  sec    : Nat := 0
  ns     : Nat := 0
  frac   : Nat := 0
  epoch  : Nat := 0
  /-- The frame found the ring full, or its writes were refused: it is dropped whole. -/
  drop   : Bool := false
  refusedWr : Bool := false
  deriving DecidableEq, Repr

/-- A frame or event message written and not yet published: the entries it adds, and its channel's entry words as they
stood, which give its own ring and FTACK (R312, R314). -/
structure Unpub where
  n     : Nat := 0
  words : List Nat := []
  deriving DecidableEq, Repr

/-- One of SC0 to SC7 (chapter 14). -/
structure StrSt where
  valid     : Bool := false
  cfgErr    : Bool := false
  frame     : Option Frame := none
  lastFseq  : Option Nat := none
  written   : Nat := 0
  dropFull  : Nat := 0
  dropOther : Nat := 0
  /-- WR as published, and frames or event messages written and not yet published. -/
  wr        : Nat := 0
  unpub     : List Unpub := []
  deriving DecidableEq, Repr

/-- A journal record (Tables 15.8 and 15.9), or a COMMIT in the TX ring. -/
structure JRec where
  commit : Bool := false
  seed   : Bool := false
  tenant : Nat := 0
  epoch  : Nat := 0
  addr   : Nat := 0
  lines  : List (List Byte) := []
  poison : Nat := 0
  auth   : Bool := false
  jcount : Nat := 0
  /-- With AUTH: the 12-byte TAG. -/
  tag    : List Byte := []
  /-- In the RX ring: the record is bad (R326) and is written to no window. -/
  bad    : Bool := false
  /-- COMMIT: RECORDS, SEEDED, LOST. -/
  records : Nat := 0
  seeded : Bool := false
  lost   : Bool := false
  deriving DecidableEq, Repr

/-- A received TSTATE (Table 15.11). -/
structure TState where
  side   : Nat := 0
  pstate : Nat := 0
  mode   : Nat := 0
  active : Nat := 0
  epoch  : Nat := 0
  run    : Nat := 0
  deriving DecidableEq, Repr

/-- Twin pairing (chapter 15). -/
structure TwnSt where
  /-- PSTATE, OUT and IN, as Tables 15.5 and 15.7 number them. -/
  pstate    : Nat := 0
  outDir    : Nat := 0
  inDir     : Nat := 0
  adopt     : Bool := false
  cfgErr    : Bool := false
  ringsOk   : Bool := false
  mode      : Nat := 0
  active    : Nat := 0
  home      : Nat := 0
  /-- TWN_RUN, TWN_REPLICA and TWN_PENDING. -/
  run       : Nat := 0
  replica   : Nat := 0
  pending   : Nat := 0
  tx        : List JRec := []
  rx        : List JRec := []
  /-- Bytes put into the TX ring and into the RX ring, which give each record's place in its ring (R324, R326). -/
  txWr      : Nat := 0
  rxWr      : Nat := 0
  /-- Records answered OK and still to be applied in ring order, each epoch's COMMIT behind its records. -/
  apply     : List JRec := []
  /-- A COMMIT was answered with a failure: IN returns to SEEDING at the peer's next TSTATE (R329). -/
  stale     : Bool := false
  /-- The epochs of the COMMITs that failed: OUT and IN return to SEEDING at a later boundary (R329). -/
  staleOut  : Nat := 0
  staleIn   : Nat := 0
  /-- The pair left PAIRED while TP stayed UP: it pairs again only once TP has left UP (Table 15.6). -/
  needDown  : Bool := false
  /-- Of the epoch being sent: records formed, records lost. -/
  sentRecs  : Nat := 0
  lost      : Bool := false
  seedEnded : Bool := false
  /-- Of the epoch being received: records seen, overflow, bad. -/
  gotRecs   : Nat := 0
  overflow  : Bool := false
  bad       : Bool := false
  acked     : Nat := 0
  replicaEp : Nat := 0
  /-- The seeding walk: window entry and line within it; done. -/
  seedWin   : Nat := 0
  seedLine  : Nat := 0
  seedDone  : Bool := true
  /-- The cc COMMIT was formed in, its TXN, its epoch and its SEEDED, while unanswered. -/
  commitAt  : Option Nat := none
  commitTxn : Nat := 0
  commitEp  : Nat := 0
  commitSeed : Bool := false
  sentTs    : Option TState := none
  gotTs     : Option TState := none
  /-- Journal sessions and counts by tenant: sending, and receiving (R325). -/
  txSess    : List (Nat × Nat) := []
  txCnt     : List (Nat × Nat) := []
  rxSess    : List (Nat × Nat) := []
  rxCnt     : List (Nat × Nat) := []
  deriving DecidableEq, Repr

/-- One clock reference (§16.2). -/
structure RefSt where
  qual   : Bool := false
  act    : Bool := false
  cause  : Nat := 0
  /-- The last fine offset, 16-bit two's complement (CLK_REF_OFFSET). -/
  offset : Nat := 0
  /-- The cc since which it has passed every check, and since which it has been a candidate. -/
  okAt   : Nat := 0
  candAt : Nat := 0
  deriving DecidableEq, Repr

/-- The CLKU (§16.1 to §16.5). -/
structure ClkSt where
  /-- ACTUAL, and a change of M under way: the new M and the cc it ends in. -/
  m         : Nat := 48
  change    : Option (Nat × Nat) := none
  sel       : Nat := 0
  switchEnd : Option Nat := none
  holdover  : Bool := true
  lastEnd   : Nat := 0
  refs      : List (Nat × RefSt) := []
  /-- A boundary trigger held by a change of M (R340). -/
  held      : Bool := false
  heldSched : Bool := false
  deriving DecidableEq, Repr

/-- TOD and PPS (§16.6 to §16.8). -/
structure TodSt where
  sec     : Nat := 0
  ns      : Nat := 0
  /-- The 48-bit fraction of a ns. -/
  frac    : Nat := 0
  incr    : Nat := 0xAAAAAAAAAAAB
  hold    : Option Nat := none
  valid   : Bool := false
  /-- The pending apply: 0 none, else its mode (Table 16.3), and the cc in which a NOW is made. -/
  pend    : Nat := 0
  nowAt   : Nat := 0
  /-- PPS: the last counted edge, the event on its way with its captured TOD, the capture, the count. -/
  lastPps : Option Nat := none
  ppsDue  : Option Nat := none
  ppsCap  : Nat × Nat × Nat := (0, 0, 0)
  cap     : Nat × Nat × Nat := (0, 0, 0)
  ppsCnt  : Nat := 0
  out     : Bool := false
  riseAt  : Option Nat := none
  fallAt  : Nat := 0
  deriving DecidableEq, Repr

/-- A write of one line or word in the present cc: its place in the order of its cc (R231, R232, R242), its bytes and the
bits of each it writes (none listed: all), its poison, and the cell as it stood before it. -/
structure CellWr where
  cell   : Nat := 0
  rank   : Nat := 0
  new    : List (Option Byte) := []
  mask   : List Byte := []
  poison : Bool := false
  bytes  : List Byte := []
  err    : Err := .clean
  valid  : Bool := true
  deriving DecidableEq, Repr

/-- What has happened in the present cc, for the rules that order the events of one cc; empty as a cc begins. -/
structure CcSt where
  /-- W1C bits set in this cc, by register key and bit, and by tack and bit (§00: the set is applied after the clear). -/
  sets     : List (Nat × Nat) := []
  tackSets : List (Nat × Nat) := []
  /-- RC registers raised in this cc, as they stood before it (§00, R372). -/
  rc       : List (Nat × Nat) := []
  /-- Writes of HBM lines, and of CBUF and Cobbler-local words, each list in ascending rank. -/
  hbm      : List CellWr := []
  sram     : List CellWr := []
  /-- Banks of CBUF and local memory touched (R244), and the scrubbers whose step has been asked for. -/
  touched  : List Nat := []
  scrub    : List Nat := []
  /-- DCACHE lines and cached records invalidated by a write of this cc (R58, R153). -/
  dcGone   : List Nat := []
  rcGone   : List CachedRec := []
  /-- STRIKES have leaked in this cc (R289), and TP has left UP in it (ch. 15). -/
  leaked   : Bool := false
  /-- Flits of STREAM_DATA that entered each channel's staging in this cc (R309). -/
  staged   : List (Nat × Nat) := []
  tpLeft   : Bool := false
  /-- SUBMITs the queue engine has handled: queue and port (R54); a knot sample has been taken (R90). -/
  submits  : List (Nat × Nat) := []
  knot     : Bool := false
  /-- Records that have entered the FIFO in this cc, and those that found it full, in order (R392); a ring copy has been
  issued (R399). -/
  fltIn    : Nat := 0
  fltFull  : List FaultRec := []
  ringed   : Bool := false
  /-- Trace records formed in this cc, the last of those held (R405). -/
  traced   : Nat := 0
  deriving DecidableEq, Repr

/-- What a command sets for the next cc (R5, R353, R383, R385). -/
inductive Fx where
  | node (w : Nat)
  | incr (v : Nat)
  | sched (sec ns : Nat)
  deriving DecidableEq, Repr

/-- A write to a scalar register made in this cc and applied at its end in the order of R79: rank, queue, register, value. -/
structure SrWr where
  due   : Nat := 0
  rank  : Nat := 0
  queue : Nat := 0
  reg   : Nat := 0
  value : Nat := 0
  deriving DecidableEq, Repr

/-- The JTAG port (R436): the instruction (0 BYPASS, 1 IDCODE, 2 SAMPLE/PRELOAD, 3 EXTEST), the boundary cells as last
shifted in, the TDO bits last shifted out, first first. -/
structure JtagSt where
  ir     : Nat := 1
  cells  : List Bool := []
  tdo    : List Bool := []
  deriving DecidableEq, Repr

/-- The issues of one cc (R61, R62): the cc, how many, the tenants whose guarded queues had one, and the tenant granted
last before it. -/
structure IssueSt where
  cc   : Nat := 0
  n    : Nat := 0
  tens : List Nat := []
  base : Nat := 0
  deriving DecidableEq, Repr

/-- The Veper. -/
structure State where
  /-- The commands that wait, first in, first out. -/
  pending : List Instr := []
  /-- The model's own: how many free values have been taken (log entry 3). -/
  freeCtr : Nat := 0
  /-- The model's own: the cc that have passed, the time base of every count of cc (log entry 2). -/
  now     : Nat := 0
  /-- GLB_CCNT. -/
  ccnt    : Nat := 0
  power   : Power := {}
  /-- Stored register words by address; a Welt port p's bank register at address a is key 0x1000·(p + 1) + a. -/
  regs    : List (Nat × Nat) := []
  /-- The staged direct registers as they are in force. -/
  regsF   : List (Nat × Nat) := []
  /-- Latched groups (R382), by address. -/
  latch   : List (Nat × Nat) := []
  /-- RW words of the indirect tables as written, and as in force: key select·2^17 + index·8 + word. -/
  tab     : List (Nat × Nat) := []
  tabF    : List (Nat × Nat) := []
  epc     : Epoch := {}
  flt     : FaultSt := {}
  trc     : TraceSt := {}
  units   : List (Nat × UnitSt) := []
  msp     : MspSt := {}
  tacks   : List (Nat × TackSt) := []
  tackUpd : List TackUpd := []
  tens    : List (Nat × TenSt) := []
  wins    : List (Nat × WinSt) := []
  queues  : List (Nat × QueueSt) := []
  mem     : MemSt := {}
  cbls    : List (Nat × CblSt) := []
  vcs     : List (Nat × VcSt) := []
  awls    : List (Nat × AwlSt) := []
  ports   : List (Nat × PortSt) := []
  keys    : List (Nat × KeySt) := []
  /-- FAULTS of the owner entries, ROUTED of the route entries. -/
  ownFlt  : List (Nat × Nat) := []
  routed  : List (Nat × Nat) := []
  strs    : List (Nat × StrSt) := []
  twn     : TwnSt := {}
  clk     : ClkSt := {}
  tod     : TodSt := {}
  nextFx  : List Fx := []
  srPend  : List SrWr := []
  jtag    : JtagSt := {}
  /-- The once-per-message fault codes the message or fetch under way has written (R239). -/
  once    : List Nat := []
  /-- The issues of the last cc that had one, and the tenant granted last (R61, R62; log entry 40). -/
  issue   : IssueSt := {}
  lastTen : Nat := 0
  /-- What has happened in the present cc. -/
  cc      : CcSt := {}
  deriving DecidableEq, Repr

/-- The observed state of a port that is DISABLED: OFF by LINK, against a commanded ON (R402, R418). -/
def portOff : UnitSt := { force := 3, obs := 0, changes := 1, cause := 3 }

/-- The Veper in the cc after a cold sequence with every strap low and every stack trained (R418): registers and tables
at their reset values, the epoch IDLE, ports DISABLED and observed OFF, the CLKU in holdover with CLK_STATUS.EVENT set
and one entry counted (R345, R350, R351), nothing valid in any memory. -/
def State.reset : State :=
  { regs  := [(0x0104, 0x100), (0x0130, 1)]
    units := [(92, portOff), (93, portOff), (94, portOff), (95, portOff), (96, portOff), (97, portOff), (98, portOff),
              (99, portOff), (100, portOff), (101, { force := 3, obs := 2, changes := 1, cause := 4 })] }

end Sys2Proof.Machine
end

