-- ==== Sys2Proof/Machine/Crypto.lean ====
section
/-! DEFINITION. AES-128 and its GMAC (R269, R325, R441) and the CRC-32 of a flit (R258). A block is a Nat of 128 bits,
its first byte the most significant. -/

namespace Sys2Proof.Machine

/-- The AES substitution box (FIPS 197), entry x at bits [8x + 7:8x]. -/
def aesSbox : Nat :=
  0x16bb54b00f2d99416842e6bf0d89a18cdf2855cee9871e9b948ed9691198f8e1 * 2 ^ 1792 +
  0x9e1dc186b95735610ef6034866b53e708a8bbd4b1f74dde8c6b4a61c2e2578ba * 2 ^ 1536 +
  0x08ae7a65eaf4566ca94ed58d6d37c8e779e4959162acd3c25c2406490a3a32e0 * 2 ^ 1280 +
  0xdb0b5ede14b8ee4688902a22dc4f816073195d643d7ea7c41744975fec130ccd * 2 ^ 1024 +
  0xd2f3ff1021dab6bcf5389d928f40a351a89f3c507f02f94585334d43fbaaefd0 * 2 ^ 768 +
  0xcf584c4a39becb6a5bb1fc20ed00d153842fe329b3d63b52a05a6e1b1a2c8309 * 2 ^ 512 +
  0x75b227ebe28012079a059618c323c7041531d871f1e5a534ccf73f362693fdb7 * 2 ^ 256 +
  0xc072a49cafa2d4adf04759fa7dc982ca76abd7fe2b670130c56f6bf27b777c63

/-- SubBytes of one byte. -/
def aesSub (x : Nat) : Nat := aesSbox / 2 ^ (8 * (x % 256)) % 256

/-- Multiplication by x in GF(2^8). -/
def aesX (b : Nat) : Nat := if b < 128 then 2 * b else (2 * b) ^^^ 0x11B

/-- Multiplication of a byte by 1, 2 or 3 in GF(2^8). -/
def aesMul (k b : Nat) : Nat := match k with | 2 => aesX b | 3 => aesX b ^^^ b | _ => b

/-- The next round key from a round key of sixteen bytes and the round constant. -/
def aesNextKey (k : List Nat) (rc : Nat) : List Nat :=
  let g (i : Nat) := k.getD i 0
  let w0 := [g 0 ^^^ aesSub (g 13) ^^^ rc, g 1 ^^^ aesSub (g 14), g 2 ^^^ aesSub (g 15), g 3 ^^^ aesSub (g 12)]
  let x (w : List Nat) (j : Nat) := List.zipWith (· ^^^ ·) w ((k.drop (4 * j)).take 4)
  let w1 := x w0 1
  let w2 := x w1 2
  w0 ++ w1 ++ w2 ++ x w2 3

/-- SubBytes and ShiftRows of a state of sixteen bytes in column order. -/
def aesShift (s : List Nat) : List Nat :=
  (List.range 16).map fun i => aesSub (s.getD ((i + 4 * (i % 4)) % 16) 0)

/-- MixColumns. -/
def aesMix (s : List Nat) : List Nat :=
  (List.range 16).map fun i =>
    let c := i / 4 * 4
    let g (j : Nat) := s.getD (c + (i + j) % 4) 0
    aesMul 2 (g 0) ^^^ aesMul 3 (g 1) ^^^ g 2 ^^^ g 3

/-- The rounds after the first key addition: round constants still to come, the last round without MixColumns. -/
def aesRounds : List Nat → List Nat → List Nat → List Nat
  | [], _, s => s
  | rc :: rcs, k, s =>
    let k := aesNextKey k rc
    let t := aesShift s
    let t := if rcs.isEmpty then t else aesMix t
    aesRounds rcs k (List.zipWith (· ^^^ ·) t k)

/-- The bytes of a block, most significant first. -/
def blkBytes (n : Nat) : List Nat := (List.range 16).map fun i => n / 2 ^ (8 * (15 - i)) % 256

/-- The block of sixteen bytes. -/
def blkNat (bs : List Nat) : Nat := bs.foldl (fun a b => a * 256 + b) 0

/-- AES-128 of a block under a key. -/
def aes128 (key block : Nat) : Nat :=
  let k := blkBytes key
  blkNat (aesRounds [1, 2, 4, 8, 16, 32, 64, 128, 0x1B, 0x36] k (List.zipWith (· ^^^ ·) (blkBytes block) k))

/-- The product in GF(2^128) of SP 800-38D: the bits of `x` from the most significant, `n` of them still to come. -/
def ghashMulAux : Nat → Nat → Nat → Nat → Nat
  | 0, _, _, z => z
  | n + 1, x, v, z =>
    ghashMulAux n x (if v % 2 = 1 then (v / 2) ^^^ (0xE1 * 2 ^ 120) else v / 2) (if x.testBit n then z ^^^ v else z)

/-- x · y in GF(2^128) (SP 800-38D). -/
def ghashMul (x y : Nat) : Nat := ghashMulAux 128 x y 0

/-- GHASH over blocks. -/
def ghash (h : Nat) (blocks : List Nat) : Nat := blocks.foldl (fun y b => ghashMul (y ^^^ b) h) 0

/-- Bytes as blocks, the last padded with zeros. -/
def toBlocks : Nat → List Byte → List Nat
  | 0, _ => []
  | _, [] => []
  | n + 1, bs => beNat (padTo 16 (bs.take 16)) :: toBlocks n (bs.drop 16)

/-- The first 96 bits of AES-128 GMAC with the given initialisation vector of 96 bits and no plaintext (R269, R325), as
its twelve bytes. -/
def gmac96 (key iv : Nat) (aad : List Byte) : List Byte :=
  let h := aes128 key 0
  let s := ghash h (toBlocks aad.length aad ++ [8 * aad.length * 2 ^ 64])
  (beBytes 16 (s ^^^ aes128 key (iv * 2 ^ 32 + 1))).take 12

/-- The key of a key table entry (R441): words 4 to 1 hold it from its most significant byte on. -/
def keyNat (k : KeySt) : Nat :=
  ((k.key.getD 3 0 * 2 ^ 32 + k.key.getD 2 0) * 2 ^ 32 + k.key.getD 1 0) * 2 ^ 32 + k.key.getD 0 0

/-- KCV of a key table entry (R441). -/
def keyKcv (k : KeySt) : Nat := aes128 (keyNat k) 0 / 2 ^ 96

/-- One bit of the CRC-32 of IEEE 802.3, least significant bit first. -/
def crc32Bit (c : Nat) : Nat := if c % 2 = 1 then (c / 2) ^^^ 0xEDB88320 else c / 2

/-- One byte of it. -/
def crc32Byte (c : Nat) (b : Byte) : Nat :=
  crc32Bit (crc32Bit (crc32Bit (crc32Bit (crc32Bit (crc32Bit (crc32Bit (crc32Bit (c ^^^ b.toNat))))))))

/-- The frame check sequence of IEEE 802.3 Clause 3.2.9 (R258). -/
def crc32 (bs : List Byte) : Nat := (bs.foldl crc32Byte 0xFFFFFFFF) ^^^ 0xFFFFFFFF

end Sys2Proof.Machine
end

