-- ==== Sys2Proof/Machine/Tables.lean ====
section
/-! DEFINITION. Names for the parts of State: one reader and one writer for each sparse map, the words of the direct
registers (chapter 18) and of the indirect tables (R394) with their reset values, and their fields by bit slice. -/

namespace Sys2Proof.Machine

/-- What a command answers. -/
abbrev Out := Host.Outcome State Fault Refusal

/-- The record of queue `i`. -/
def State.q (s : State) (i : Nat) : QueueSt := mget (fun _ => ({} : QueueSt)) s.queues i

/-- `s` with the record of queue `i` replaced. -/
def State.setQ (s : State) (i : Nat) (v : QueueSt) : State :=
  { s with queues := mset (fun _ => ({} : QueueSt)) s.queues i v }

/-- `s` with `f` applied to the record of queue `i`. -/
def State.modQ (s : State) (i : Nat) (f : QueueSt → QueueSt) : State := s.setQ i (f (s.q i))

/-- The record of VC `i`. -/
def State.vc (s : State) (i : Nat) : VcSt := mget (fun _ => ({} : VcSt)) s.vcs i

/-- `s` with the record of VC `i` replaced. -/
def State.setVc (s : State) (i : Nat) (v : VcSt) : State :=
  { s with vcs := mset (fun _ => ({} : VcSt)) s.vcs i v }

/-- `s` with `f` applied to the record of VC `i`. -/
def State.modVc (s : State) (i : Nat) (f : VcSt → VcSt) : State := s.setVc i (f (s.vc i))

/-- The record of Cobbler `i`. -/
def State.cbl (s : State) (i : Nat) : CblSt := mget (fun _ => ({} : CblSt)) s.cbls i

/-- `s` with the record of Cobbler `i` replaced. -/
def State.setCbl (s : State) (i : Nat) (v : CblSt) : State :=
  { s with cbls := mset (fun _ => ({} : CblSt)) s.cbls i v }

/-- `s` with `f` applied to the record of Cobbler `i`. -/
def State.modCbl (s : State) (i : Nat) (f : CblSt → CblSt) : State := s.setCbl i (f (s.cbl i))

/-- The record of Awl unit `i`. -/
def State.awl (s : State) (i : Nat) : AwlSt := mget (fun _ => ({} : AwlSt)) s.awls i

/-- `s` with the record of Awl unit `i` replaced. -/
def State.setAwl (s : State) (i : Nat) (v : AwlSt) : State :=
  { s with awls := mset (fun _ => ({} : AwlSt)) s.awls i v }

/-- `s` with `f` applied to the record of Awl unit `i`. -/
def State.modAwl (s : State) (i : Nat) (f : AwlSt → AwlSt) : State := s.setAwl i (f (s.awl i))

/-- The record of port `i`. -/
def State.port (s : State) (i : Nat) : PortSt := mget (fun _ => ({} : PortSt)) s.ports i

/-- `s` with the record of port `i` replaced. -/
def State.setPort (s : State) (i : Nat) (v : PortSt) : State :=
  { s with ports := mset (fun _ => ({} : PortSt)) s.ports i v }

/-- `s` with `f` applied to the record of port `i`. -/
def State.modPort (s : State) (i : Nat) (f : PortSt → PortSt) : State := s.setPort i (f (s.port i))

/-- The record of tenant `i`. -/
def State.ten (s : State) (i : Nat) : TenSt := mget (fun _ => ({} : TenSt)) s.tens i

/-- `s` with the record of tenant `i` replaced. -/
def State.setTen (s : State) (i : Nat) (v : TenSt) : State :=
  { s with tens := mset (fun _ => ({} : TenSt)) s.tens i v }

/-- `s` with `f` applied to the record of tenant `i`. -/
def State.modTen (s : State) (i : Nat) (f : TenSt → TenSt) : State := s.setTen i (f (s.ten i))

/-- The record of window `i`. -/
def State.win (s : State) (i : Nat) : WinSt := mget (fun _ => ({} : WinSt)) s.wins i

/-- `s` with the record of window `i` replaced. -/
def State.setWin (s : State) (i : Nat) (v : WinSt) : State :=
  { s with wins := mset (fun _ => ({} : WinSt)) s.wins i v }

/-- `s` with `f` applied to the record of window `i`. -/
def State.modWin (s : State) (i : Nat) (f : WinSt → WinSt) : State := s.setWin i (f (s.win i))

/-- The record of tack `i`. -/
def State.tack (s : State) (i : Nat) : TackSt := mget (fun _ => ({} : TackSt)) s.tacks i

/-- `s` with the record of tack `i` replaced. -/
def State.setTack (s : State) (i : Nat) (v : TackSt) : State :=
  { s with tacks := mset (fun _ => ({} : TackSt)) s.tacks i v }

/-- `s` with `f` applied to the record of tack `i`. -/
def State.modTack (s : State) (i : Nat) (f : TackSt → TackSt) : State := s.setTack i (f (s.tack i))

/-- The record of unit `i`. -/
def State.unit (s : State) (i : Nat) : UnitSt := mget (fun _ => ({} : UnitSt)) s.units i

/-- `s` with the record of unit `i` replaced. -/
def State.setUnit (s : State) (i : Nat) (v : UnitSt) : State :=
  { s with units := mset (fun _ => ({} : UnitSt)) s.units i v }

/-- `s` with `f` applied to the record of unit `i`. -/
def State.modUnit (s : State) (i : Nat) (f : UnitSt → UnitSt) : State := s.setUnit i (f (s.unit i))

/-- The record of stream channel `i`. -/
def State.str (s : State) (i : Nat) : StrSt := mget (fun _ => ({} : StrSt)) s.strs i

/-- `s` with the record of stream channel `i` replaced. -/
def State.setStr (s : State) (i : Nat) (v : StrSt) : State :=
  { s with strs := mset (fun _ => ({} : StrSt)) s.strs i v }

/-- `s` with `f` applied to the record of stream channel `i`. -/
def State.modStr (s : State) (i : Nat) (f : StrSt → StrSt) : State := s.setStr i (f (s.str i))

/-- The record of key table entry `i`. -/
def State.key (s : State) (i : Nat) : KeySt := mget (fun _ => ({} : KeySt)) s.keys i

/-- `s` with the record of key table entry `i` replaced. -/
def State.setKey (s : State) (i : Nat) (v : KeySt) : State :=
  { s with keys := mset (fun _ => ({} : KeySt)) s.keys i v }

/-- `s` with `f` applied to the record of key table entry `i`. -/
def State.modKey (s : State) (i : Nat) (f : KeySt → KeySt) : State := s.setKey i (f (s.key i))

/-- The record of reference `i`: REFA, REFB, REFT. -/
def State.ref (s : State) (i : Nat) : RefSt := mget (fun _ => ({} : RefSt)) s.clk.refs i

/-- `s` with the record of reference `i` replaced. -/
def State.setRef (s : State) (i : Nat) (v : RefSt) : State :=
  { s with clk := { s.clk with refs := mset (fun _ => ({} : RefSt)) s.clk.refs i v } }

/-- The channel record `v` of a port: 0 MG, 1 RS, 2 RQ, 3 EV. -/
def PortSt.chan (p : PortSt) (v : Nat) : Chan := mget (fun _ => ({} : Chan)) p.chans v

/-- A port with channel record `v` replaced. -/
def PortSt.setChan (p : PortSt) (v : Nat) (c : Chan) : PortSt :=
  { p with chans := mset (fun _ => ({} : Chan)) p.chans v c }

/-- A map of numbers that reads 0 where nothing is listed. -/
def zeroNat (_ : Nat) : Nat := 0

/-- A saturating 32-bit add (R381). -/
def sat32 (n : Nat) : Nat := if n < 2 ^ 32 then n else 2 ^ 32 - 1

/-! ### Direct registers -/

/-- The key of a Welt port's bank register (R388). -/
def bankKey (p a : Nat) : Nat := 0x1000 * (p + 1) + a

/-- The reset value of a stored register word (Tables 18.4 to 18.13); bank keys read as their bank address. -/
def regDefault (k : Nat) : Nat :=
  match k % 0x1000 with
  | 0x0108 => 0x30
  | 0x0120 => 0x32
  | 0x0124 => 0x64
  | 0x0128 => 0x2710
  | 0x01C8 => 0x01
  | 0x0214 => 0xFFFFFFFF
  | 0x0310 => 0x3E8
  | 0x0314 => 0x7A120
  | 0x0318 => 0x40
  | 0x031C => 0x01000010
  | 0x0320 => 0x64
  | 0x0324 => 0x4A
  | 0x0328 => 0x03E80064
  | 0x0428 => 0x3E8
  | 0x042C => 0x004A3201
  | 0x0460 => 0x40
  | 0x0464 => 0x01000010
  | 0x0468 => 0x0064000A
  | 0x0480 => 0x92008C00
  | 0x0628 => 0xFF00
  | 0x0784 => 0x00010000
  | _ => 0

/-- The stored word of a register. -/
def State.reg (s : State) (k : Nat) : Nat := mget regDefault s.regs k

/-- Bits [hi:lo] of a register's stored word. -/
def State.regB (s : State) (k hi lo : Nat) : Nat := bits (s.reg k) hi lo

/-- `s` with a register's stored word replaced. -/
def State.setReg (s : State) (k v : Nat) : State := { s with regs := mset regDefault s.regs k v }

/-- A staged register's word in force (R5). -/
def State.regF' (s : State) (k : Nat) : Nat := mget regDefault s.regsF k

/-- `s` with the word in force of a staged register replaced. -/
def State.setRegF (s : State) (k v : Nat) : State := { s with regsF := mset regDefault s.regsF k v }

/-- What an RC register held as this cc began: its value before the events of this cc (§00, R372). -/
def State.rcBefore (s : State) (k : Nat) : Nat := mget (fun _ => s.reg k) s.cc.rc k

/-- `s` with what has happened in this cc replaced. -/
def State.setCc (s : State) (c : CcSt) : State := { s with cc := c }

/-- A 32-bit counter register raised by `n`, saturating (R381). -/
def State.bump (s : State) (k n : Nat) : State :=
  (s.setReg k (sat32 (s.reg k + n))).setCc { s.cc with rc := (k, s.rcBefore k) :: s.cc.rc.filter (fun e => e.1 != k) }

/-- A register with bit `i` set (W1C bits; a set wins over a clear of its cc, §00). -/
def State.setBit (s : State) (k i : Nat) : State :=
  (s.setReg k (s.reg k ||| 2 ^ i)).setCc { s.cc with sets := (k, i) :: s.cc.sets }

/-- Tack `k` with STATUS bit `i` set, 1 SATURATED or 2 EXT_REFUSED (a set wins over a clear of its cc, §00). -/
def State.tackBit (s : State) (k i : Nat) : State :=
  (s.modTack k fun x => { x with saturated := x.saturated || i == 1, extRefused := x.extRefused || i == 2 }).setCc
    { s.cc with tackSets := (k, i) :: s.cc.tackSets }

/-- A link register of port `p`: the Welt bank register `a`, or TP's counterpart `t` (Table 15.3). -/
def State.lreg (s : State) (p a t : Nat) : Nat := if p < 8 then s.reg (bankKey p a) else s.reg t

/-- The TP counterpart key or the bank key of a link register. -/
def lkey (p a t : Nat) : Nat := if p < 8 then bankKey p a else t

/-! ### Indirect tables -/

/-- The key of data word `w` of entry `i` of the table with select code `sel`. -/
def tabKey (sel i w : Nat) : Nat := sel * 2 ^ 17 + i * 8 + w

/-- The reset value of a table word's RW fields. -/
def tabDefault (k : Nat) : Nat :=
  if k % 8 ≠ 0 then 0
  else match k / 2 ^ 17 with
    | 0x01 => 0x01FF0000
    | 0x05 => 0x00000100
    | 0x08 => if (k / 8) % 64 = 63 then 0x00B00000 else 0
    | 0x0B => 0x00010000
    | 0x0C => 3
    | _ => 0

/-- A table word as last written. -/
def State.tw (s : State) (sel i w : Nat) : Nat := mget tabDefault s.tab (tabKey sel i w)

/-- A table word as it is in force since the last boundary. -/
def State.tf (s : State) (sel i w : Nat) : Nat := mget tabDefault s.tabF (tabKey sel i w)

/-- Bits [hi:lo] of a table word in force. -/
def State.tfB (s : State) (sel i w hi lo : Nat) : Nat := bits (s.tf sel i w) hi lo

/-- Bits [hi:lo] of a table word as written. -/
def State.twB (s : State) (sel i w hi lo : Nat) : Nat := bits (s.tw sel i w) hi lo

/-- `s` with a table word written. -/
def State.setTw (s : State) (sel i w v : Nat) : State := { s with tab := mset tabDefault s.tab (tabKey sel i w) v }

/-- The number of entries of a table (Table 18.16); 0 for a reserved select code. -/
def tabCount : Nat → Nat
  | 0x01 => 32 | 0x02 => 32 | 0x03 => 128 | 0x04 => 64 | 0x05 => 64 | 0x06 => 1024 | 0x07 => 16384 | 0x08 => 4096
  | 0x09 => 8 | 0x0A => 256 | 0x0B => 8 | 0x0C => 105 | _ => 0

/-- The number of data words of a table's entries (Table 18.16). -/
def tabWords : Nat → Nat
  | 0x01 => 8 | 0x02 => 4 | 0x03 => 4 | 0x04 => 2 | 0x05 => 8 | 0x06 => 2 | 0x07 => 4 | 0x08 => 4
  | 0x09 => 8 | 0x0A => 8 | 0x0B => 8 | 0x0C => 2 | _ => 0

/-- The RW bits of data word `w` of entry `i` of table `sel` (each table's layout table). -/
def tabMask (sel i w : Nat) : Nat :=
  match sel, w with
  | 0x01, 0 => 0x8FFFFFFF | 0x01, 3 => 0xFFFF03FF | 0x01, 5 => 0xFF1FFFFF | 0x01, _ => 0xFFFFFFFF
  | 0x03, 0 => 0xC0000000 | 0x03, 1 => 0x7FFFF | 0x03, _ => 0xFFFF
  | 0x04, _ => 0xFFFFFFFF
  | 0x05, 0 => 0xFFFF0F7F | 0x05, 1 => 0xFFFFFFFF | 0x05, 2 => 0xFFFFFFFF | 0x05, 3 => 0xFFFFFFFF
  | 0x06, 0 => 0xC0000000
  | 0x07, 0 => 0xFFFF03FF | 0x07, 1 => 0xFFFFFFFF | 0x07, 2 => 0xFF
  | 0x08, 0 => if i % 64 = 63 then 0xFFFFC7FF else 0xFFFF03FF
  | 0x08, 1 => if i % 64 = 63 then 0xFFFFFF else 0xFFFFFFFF
  | 0x08, 2 => if i % 64 = 63 then 0xFFFFFF else 0xFFFFFFFF
  | 0x08, 3 => if i % 64 = 63 then 0x7FFFFF else 0
  | 0x09, 0 => 0xFFF003FF | 0x09, 1 => 0xFFFFFFF0 | 0x09, 2 => 0xFFFFFFFF | 0x09, 3 => 0xFFFFFFFF
  | 0x09, 4 => 0xFFFFFFFF | 0x09, 5 => 0xFFFFFFFF | 0x09, 6 => 0xFFFFFF00
  | 0x0A, 0 => 0x80000000
  | 0x0B, 0 => 0xFEFF83FF | 0x0B, 1 => 0xFFFFFFFF | 0x0B, 2 => 0xFFFFC000
  | 0x0C, 0 => 3
  | _, _ => 0

/-! ### Fields of the tables in force -/

/-- Tenant `t` runs or is held as a replica: its entry is enabled and passed R300. -/
def State.tenOk (s : State) (t : Nat) : Bool := (s.ten t).valid

/-- Tenant `t` is in the run set: it exists for the epoch's work (R301, R317). -/
def State.tenRun (s : State) (t : Nat) : Bool := s.tenOk t && bit s.twn.run t

/-- Tenant `t` is a replica tenant (R317). -/
def isReplica (s : State) (t : Nat) : Bool := s.tenOk t && s.twn.mode != 0 && !bit s.twn.run t

/-- The cluster mask of tenant `t` (Table 14.2), 64 bits. -/
def State.cmask (s : State) (t : Nat) : Nat := if s.tenRun t then s.tf 1 t 1 + s.tf 1 t 2 * 2 ^ 32 else 0

/-- The tack range of tenant `t` holds tack `k`. -/
def State.ownsTack (s : State) (t k : Nat) : Bool :=
  s.tenRun t && decide (s.tfB 1 t 3 9 0 ≤ k) && decide (k < s.tfB 1 t 3 9 0 + s.tfB 1 t 3 26 16)

/-- Base of the Last table of tenant `t`. -/
def State.lastBase (s : State) (t : Nat) : Nat := s.tf 1 t 4 + s.tfB 1 t 5 31 24 * 2 ^ 32

/-- Records in the Last table of tenant `t`. -/
def State.lastSize (s : State) (t : Nat) : Nat := s.tfB 1 t 5 20 0

/-- Queue `q`'s entry is enabled and valid, and its tenant runs (R60, R301). -/
def State.qOn (s : State) (q : Nat) : Bool :=
  bit (s.tf 5 q 0) 5 && (s.q q).valid && s.tenRun (s.tfB 5 q 0 4 0)

/-- The tenant a queue belongs to. -/
def State.qTen (s : State) (q : Nat) : Nat := s.tfB 5 q 0 4 0

/-- Queue `q` is timed. -/
def State.qTimed (s : State) (q : Nat) : Bool := bit (s.tf 5 q 0) 6

/-- Tenant `t` owns queue `q` (R301: a tenant that does not exist owns none). -/
def State.ownsQ (s : State) (t q : Nat) : Bool := s.tenRun t && decide (s.qTen q = t)

/-- The effective state of a unit: the lower of CMD_FORCE and OBS (R401). -/
def State.eff (s : State) (u : Nat) : Nat := min (s.unit u).force (s.unit u).obs

/-- A unit is in effective state ON. -/
def State.isOn (s : State) (u : Nat) : Bool := s.eff u == 3

/-! ### Power -/

/-- DEV_READY is high (R375). -/
def State.ready (s : State) : Bool := s.power.stage == .ready

/-- The units that run work do so: DEV_READY is high and containment is not in force (R400, R413). -/
def State.live (s : State) : Bool := s.ready && !s.power.contained

/-- A change of M is under way, in which the VCs, Cobblers, Awl units, queue engine and event plane do nothing (R339). -/
def State.frozen (s : State) : Bool := s.clk.change.isSome

/-- The MSP answers: DEV_READY is high and no change of M is under way (R365). -/
def State.mspOn (s : State) : Bool := s.ready && !s.frozen

/-- The ports, controllers and clocks work: from DEV_READY up to a warm reset point (R413). -/
def State.linkOn (s : State) : Bool := s.ready || s.power.stage == .warmHold

/-- Work and partner requests are stopped (R400, R413). -/
def State.halted (s : State) : Bool := s.power.contained || s.power.stage == .warmHold

/-- The queue engine, VCs, Cobblers, Awl units and event plane run. -/
def State.runs (s : State) : Bool := s.live && !s.frozen

/-- A count of µs as cc at the M in force: CCLK is 31.25 MHz × M (R338). -/
def State.usCc (s : State) (us : Nat) : Nat := (us * s.clk.m * 125 + 3) / 4

/-- 0 acts as 1. -/
def atLeast1 (n : Nat) : Nat := if n = 0 then 1 else n

/-- `s` with a fresh free-value index taken. -/
def State.tick1 (s : State) : State := { s with freeCtr := s.freeCtr + 1 }

end Sys2Proof.Machine
end

