-- ==== Sys2Proof/Machine/Flags.lean ====
section
/-! DEFINITION. What the Veper reports about itself: unit states and GLB_DISAGREE (R384, R401, R402), the selection among
its clock references, whose change CLKU reports (R341, R344, R345, R350), alert sources
(R393), trace records (R404, R405) and fault records (R395 to R398). -/

namespace Sys2Proof.Machine

/-- OBS of unit `u` takes a value, with its cause; a change is counted (Table 19.5). -/
def setObs (s : State) (u obs cause : Nat) : State :=
  if (s.unit u).obs = obs then s
  else s.modUnit u fun x => { x with obs := obs, cause := cause, changes := if x.changes < 0xFFFF then x.changes + 1 else x.changes }

/-! ### The references of CCLK (§16.2, §16.3) -/

/-- The CLKU, TOD and PPS logic run: from DEV_READY, warm resets included (R351, Table 20.3). -/
def State.clkOn (s : State) : Bool :=
  match s.power.stage with
  | .ready => true
  | .warmHold => true
  | .warmReset => true
  | .warmSeq => true
  | _ => false

/-- EN and PRIO of reference `r` (0 REFA, 1 REFB, 2 REFT). -/
def refEn (s : State) (r : Nat) : Bool := bit (s.reg (0x010C + 4 * r)) 4
def refPrio (s : State) (r : Nat) : Nat := s.regB (0x010C + 4 * r) 1 0

/-- A candidate: enabled and qualified. -/
def isCand (s : State) (r : Nat) : Bool := refEn s r && (s.ref r).qual

/-- The best reference of a list: lowest PRIO, ties in the order REFA, REFB, REFT (R344). -/
def bestRef (s : State) (l : List Nat) : Option Nat :=
  l.foldl (fun b r => match b with
    | none => some r
    | some c => if refPrio s r < refPrio s c then some r else b) none

/-- A switch to reference `r` starts in this cc (R346, R350). -/
def startSwitch (s : State) (r : Nat) : State :=
  let s := { s with clk := { s.clk with sel := r, holdover := false, switchEnd := some (s.now + s.usCc 2000) } }
  setObs ((s.bump 0x012C 1).setBit 0x0104 8) 101 3 0

/-- Holdover is entered in this cc (R345, R350). -/
def enterHoldover (s : State) : State :=
  let s := { s with clk := { s.clk with holdover := true } }
  setObs ((s.bump 0x0130 1).setBit 0x0104 8) 101 2 4

/-- REFT has activity: the lowest-numbered active lane of TP holds codeword lock (§16.2). -/
def reftActive (s : State) : Bool :=
  let x := s.port 8
  match (List.range 8).find? fun i => x.lanes.testBit i with
  | some i => x.locked.testBit i
  | none => false

/-- REFT while its lane gives it no activity: it is disqualified, and its count does not run (R341, R343). -/
def reftDrop (s : State) : State :=
  if reftActive s then s
  else
    let x := s.ref 2
    s.setRef 2 { x with qual := false, act := false, cause := if x.qual then 5 else x.cause, okAt := s.now }

/-- R344 and R345 applied in this cc, the revertive case apart. -/
def clkEval (s : State) : State :=
  if !s.clkOn then s
  else
    let s := reftDrop s
    if s.clk.switchEnd.isSome then s
    else if s.clk.holdover || !isCand s s.clk.sel then
      match bestRef s ((List.range 3).filter (isCand s)) with
      | some r => startSwitch s r
      | none => if s.clk.holdover then s else enterHoldover s
    else s

/-- TP's lane set changes: a check of REFT has failed (Table 16.2). -/
def reftMoved (s : State) : State :=
  let x := s.ref 2
  clkEval (s.setRef 2 { x with qual := false, cause := if x.qual then 5 else x.cause, okAt := s.now })

/-! ### Reports -/

/-- An element put behind those of rank not above its own. -/
def putByRank {α : Type} (rank : α → Nat) (x : α) : List α → List α
  | [] => [x]
  | y :: ys => if rank y ≤ rank x then y :: putByRank rank x ys else x :: y :: ys

/-- A list in ascending rank, equal ranks in their order. -/
def byRank {α : Type} (rank : α → Nat) (l : List α) : List α := l.foldl (fun a x => putByRank rank x a) []

/-- The GLB_DISAGREE bit of unit `u`: CMD_FORCE differs from OBS (R384, R401). -/
def disagree (s : State) (u : Nat) : Bool := (s.unit u).force != (s.unit u).obs

/-- Some unit disagrees. -/
def anyDisagree (s : State) : Bool := s.units.any fun e => decide (e.1 < 105) && e.2.force != e.2.obs

/-- ALERT_STATUS (Table 18.15). -/
def alertStatus (s : State) : Nat :=
  let b (i : Nat) (c : Bool) : Nat := if c then 2 ^ i else 0
  b 0 (!s.flt.fifo.isEmpty || bit (s.reg 0x0500) 31) + b 1 (anyDisagree s) + b 2 (bit (s.reg 0x04C0) 31) +
  b 3 (bit (s.reg 0x0104) 8) +
  b 4 ((List.range 8).any (fun p => bit (s.reg (bankKey p 0x0308)) 31) || bit (s.reg 0x0454) 31) +
  b 5 (bit (s.reg 0x0408) 31) + b 6 (bit (s.reg 0x0204) 11) + b 7 (bit (s.reg 0x0598) 0) + b 8 (bit (s.reg 0x0184) 4)

/-- ALERT_SUMMARY (R393). -/
def alertSummary (s : State) : Nat := alertStatus s &&& (s.reg 0x0544 % 512)

/-- The place of a trace record among those of its cc (R405): by queue, ISSUE, RETIRE and FAULT of one queue in turn, OPEN
and CLOSE last. -/
def traceRank (r : Nat × Nat) : Nat :=
  let kind := bits r.2 39 36
  if 4 ≤ kind then 2 ^ 10 + kind else bits r.2 30 25 * 4 + kind

/-- A trace record takes its place among those of this cc, and the last of more than 256 is not held (R405, R407). -/
def traceHold (s : State) (r : Nat × Nat) : State :=
  let n := min s.cc.traced s.trc.held.length
  let k := s.trc.held.length - n
  let all := s.trc.held.take k ++ putByRank traceRank r (s.trc.held.drop k)
  { s with trc := { s.trc with held := all.take 256 }, cc := { s.cc with traced := n + 1 } }

/-- A trace record is formed while the ring is valid: held, or one is dropped when 256 are held (R405, R407). -/
def traceAdd (s : State) (tag kind tenant queue detail : Nat) : State :=
  if !s.trc.valid then s
  else
    let t := traceHold s (s.ccnt, tag * 2 ^ 40 + kind * 2 ^ 36 + tenant * 2 ^ 31 + queue * 2 ^ 25 + detail)
    if s.trc.held.length < 256 then t else (t.bump 0x0594 1).setBit 0x0598 0

/-- A trace record of tenant `t`, whose TRACE_TEN bit must be 1 (R405). -/
def traceTen (s : State) (tag kind t queue detail : Nat) : State :=
  if bit (s.reg 0x058C) t then traceAdd s tag kind t queue detail else s

/-- The order of R398 among records of one cc: UNIT, then CODE. -/
def faultBefore (a b : Nat × FaultRec) : Bool :=
  decide (a.1 < b.1) || (decide (a.1 = b.1) && (decide (a.2.unit < b.2.unit) ||
    (decide (a.2.unit = b.2.unit) && decide (a.2.code ≤ b.2.code))))

/-- A record put in its place among those on their way to the FIFO, behind those of the same place. -/
def faultInsert (r : Nat × FaultRec) : List (Nat × FaultRec) → List (Nat × FaultRec)
  | [] => [r]
  | x :: xs => if faultBefore x r then x :: faultInsert r xs else r :: x :: xs

/-- A fault record is written: TIME and EPOCH are of this cc, it enters the FIFO 4 cc later, it counts in its tenant's
FAULTS, and it forms a FAULT trace record (R395, R398, R405). -/
def recordFault (s : State) (r : FaultRec) : State :=
  let r := { r with time := s.ccnt, epoch := s.epc.count }
  let s := { s with flt := { s.flt with due := faultInsert (s.now + 4, r) s.flt.due } }
  if r.tv then
    traceTen (s.modTen r.tenant fun t => { t with faults := sat32 (t.faults + 1) }) r.tag 3 r.tenant
      (if r.qv then r.queue else 0) r.code
  else s

/-- The eight words of a fault record as FLT_HEAD0 to FLT_HEAD7 show them (Table 19.2, R395). -/
def faultWord0 (r : FaultRec) : Nat :=
  r.tag * 2 ^ 40 + r.code * 2 ^ 32 + r.unit * 2 ^ 25 + r.tenant * 2 ^ 20 + (if r.tv then 2 ^ 19 else 0) +
  r.queue * 2 ^ 13 + (if r.qv then 2 ^ 12 else 0) + r.level * 2 ^ 9

/-- The 32 bytes of a fault record (R395). -/
def faultBytes (r : FaultRec) : List Byte :=
  leBytes 8 (faultWord0 r) ++ leBytes 8 r.time ++ leBytes 8 r.epoch ++ leBytes 8 r.detail

/-- A record whose time has come enters the FIFO, or finds it full (R392); its ring copy waits to be issued when its
tenant runs and has a ring (R303, R317, R399). -/
def faultEnter (s : State) (r : FaultRec) : State :=
  let s := if s.flt.fifo.length < 64 then
      { s with flt := { s.flt with fifo := s.flt.fifo ++ [r] }, cc := { s.cc with fltIn := s.cc.fltIn + 1 } }
    else { s with cc := { s.cc with fltFull := s.cc.fltFull ++ [r] } }
  if r.tv && s.tenRun r.tenant && decide (s.tfB 1 r.tenant 3 31 27 ≠ 0) && decide (s.flt.ring.length < 8192) then
    { s with flt := { s.flt with ring := s.flt.ring ++ [(r.tenant, r)] } }
  else s

/-- Every record due by this cc enters, in order. -/
def faultEnterDue (s : State) : State :=
  let due := s.flt.due.filter fun e => decide (e.1 ≤ s.now)
  let s := { s with flt := { s.flt with due := s.flt.due.filter fun e => !decide (e.1 ≤ s.now) } }
  due.foldl (fun s e => faultEnter s e.2) s

/-- The records that found the FIFO full in the cc that ends, and for which no POP made room, are lost for it (R392). -/
def faultLost (s : State) : State := s.cc.fltFull.foldl (fun s _ => (s.bump 0x0508 1).setBit 0x0500 31) s

/-- The sources whose change MSP_ALERT_N follows (R374): it is low in the cc after ALERT_SUMMARY was nonzero. -/
def alertFollow (s : State) : State := { s with msp := { s.msp with alertLow := alertSummary s != 0 } }

end Sys2Proof.Machine
end

