-- ==== Sys2Proof/Machine/Ops.lean ====
section
/-! DEFINITION. The operations over memory: HBM lines, CBUF and Cobbler-local words with their error states
(R226 to R247), tenant addresses through windows (R227), the journal's part in a write (R304, R323, R324), and the
fault records an access writes once for its requester (R239, R240). -/

namespace Sys2Proof.Machine

/-- What kind of requester makes an access. -/
inductive AKind where
  /-- A tile or an Awl unit of an in-flight descriptor: queue, issue number. -/
  | tile (q seq : Nat)
  /-- A Cobbler's program, and the number of its operation. -/
  | cob (k n : Nat)
  /-- The queue engine for a queue: the tag its records carry and the chain that counts them. -/
  | fetch (q tag chain : Nat)
  /-- The event plane of a VC. -/
  | event (v : Nat)
  /-- A partner message of tenant `t` on port `p`. -/
  | partner (p t : Nat)
  /-- Stream ingress of a channel, for tenant `t`. -/
  | stream (c t : Nat)
  /-- Journal replay and the seeding walk. -/
  | twin
  /-- The completion, fault and trace writers. -/
  | writer
  | scrub
  deriving DecidableEq, Repr

/-- A requester: its kind, its class in MEM_LOG_INFO, and the unit number its records name. -/
structure Agent where
  kind : AKind
  cls  : Nat
  unit : Nat
  /-- The tile of a store, which orders the stores of one descriptor (R231). -/
  tile : Nat := 0
  deriving DecidableEq, Repr

/-- The in-flight descriptor of queue `q` with issue number `n`. -/
def State.flightAt (s : State) (q n : Nat) : Option Flight := (s.q q).flight.find? fun f => f.seq == n

/-- `s` with `f` applied to that in-flight descriptor. -/
def State.modFlight (s : State) (q n : Nat) (f : Flight → Flight) : State :=
  s.modQ q fun x => { x with flight := x.flight.map fun y => if y.seq = n then f y else y }

/-- The tag of a descriptor's header word (Table 03.3). -/
def tagOf (words : List Nat) : Nat := bits (words.getD 0 0) 47 24

/-- The tag a requester's records carry (R52, Table 03.11). DESIGN CHOICE: those of stream ingress carry 0xFF_FFFE as a
partner's WRITE does, since a partner's message causes them; Table 03.11 names only READ and WRITE (log entry 92). -/
def agentTag (s : State) (a : Agent) : Nat :=
  match a.kind with
  | .tile q n => match s.flightAt q n with
    | some f => tagOf f.words
    | none => 0xFFFFFF
  | .cob k _ => (s.cbl k).tag
  | .partner _ _ => 0xFFFFFE
  | .stream _ _ => 0xFFFFFE
  | .fetch _ tag _ => tag
  | _ => 0xFFFFFF

/-- A chain of queue `q` counts a fault record that carries its tag (R55, R398). -/
def chainFault (s : State) (q chain : Nat) : State :=
  let up (c : Chain) : Chain := if c.id = chain then { c with faults := min 0xFFFF (c.faults + 1) } else c
  s.modQ q fun x => { x with chain := x.chain.map up, owed := x.owed.map up }

/-- A descriptor in flight writes a fault record (R397: level DESCRIPTOR lets it run on). -/
def flightFault (s : State) (q n code unit level detail : Nat) : State :=
  match s.flightAt q n with
  | none => s
  | some f =>
    let s := recordFault s { tag := tagOf f.words, code := code, unit := unit, tenant := s.qTen q, tv := true,
                             queue := q, qv := true, level := level, detail := detail }
    chainFault (s.modFlight q n fun f => { f with faults := f.faults + 1, wrote := code :: f.wrote }) q f.chain

/-- The same, at most once for each code and descriptor (R101, R102, R164, R239). -/
def flightOnce (s : State) (q n code unit level detail : Nat) : State :=
  match s.flightAt q n with
  | none => s
  | some f => if f.wrote.contains code then s else flightFault s q n code unit level detail

/-- A requester writes a fault record at most once (R239, R240): per descriptor, per Cobbler program, or per message. -/
def agentOnce (s : State) (a : Agent) (code detail : Nat) : State :=
  match a.kind with
  | .tile q n => flightOnce s q n code a.unit 1 detail
  | .cob k _ =>
    let c := s.cbl k
    if c.wrote.contains code then s
    else
      let s := s.setCbl k { c with wrote := code :: c.wrote }
      let s := recordFault s { tag := c.tag, code := code, unit := a.unit, tenant := c.tenant, tv := true,
                               queue := c.queue, qv := true, level := 1, detail := detail }
      match s.flightAt c.queue c.seq with
      | none => s
      | some f => chainFault (s.modFlight c.queue c.seq fun f => { f with faults := f.faults + 1 }) c.queue f.chain
  | .partner _ t =>
    if s.once.contains code then s
    else recordFault { s with once := code :: s.once }
      { tag := 0xFFFFFE, code := code, unit := a.unit, tenant := t, tv := true, level := 0, detail := detail }
  | .stream _ t =>
    if s.once.contains code then s
    else recordFault { s with once := code :: s.once }
      { tag := 0xFFFFFE, code := code, unit := a.unit, tenant := t, tv := true, level := 0, detail := detail }
  | .fetch q tag chain =>
    if s.once.contains code then s
    else chainFault (recordFault { s with once := code :: s.once }
      { tag := tag, code := code, unit := a.unit, tenant := s.qTen q, tv := true, queue := q, qv := true, level := 1,
        detail := detail }) q chain
  | .event _ | .twin | .writer | .scrub => recordFault s { tag := 0xFFFFFF, code := code, unit := a.unit, level := 0, detail := detail }

/-- Who an accepted access belongs to. -/
def agentWho (a : Agent) : Who :=
  match a.kind with
  | .tile q n => .flight q n
  | .cob k n => .cobbler k n
  | .fetch q _ _ => .queue q
  | .partner p _ => .port p
  | .stream c _ => .stream c
  | .twin => .twin
  | _ => .status

/-- The error log takes a natural uncorrectable error, or OVERFLOW sets (R247). -/
def logUE (s : State) (a : Agent) (kind unit addr : Nat) : State :=
  if bit (s.reg 0x04C0) 31 then s.setBit 0x04C0 30
  else
    let syn := (Config.freeSyn s.freeCtr).toNat
    let s := s.tick1
    let s := (s.setReg 0x04C0 ((s.reg 0x04C0 &&& 2 ^ 30) + kind * 2 ^ 24 + unit * 2 ^ 16)).setBit 0x04C0 31
    let s := (s.setReg 0x04C4 (addr / 2 ^ 32 % 256)).setReg 0x04C8 (addr % 2 ^ 32)
    s.setReg 0x04CC (agentTag s a * 256 + a.cls * 32 + syn)

/-! ### The order of one cc (R231, R232, R242) -/

/-- Bytes laid over old ones where present. -/
def overlay (old : List Byte) (new : List (Option Byte)) : List Byte :=
  List.zipWith (fun o n => n.getD o) old new

/-- Every byte is given. -/
def isFull (new : List (Option Byte)) : Bool := new.all Option.isSome

/-- Bytes laid over old ones, of each only the bits `mask` names; with no mask, whole bytes. -/
def merge (old : List Byte) (new : List (Option Byte)) (mask : List Byte) : List Byte :=
  if mask.isEmpty then overlay old new
  else List.zipWith (fun o (x : Option Byte × Byte) => x.1.elim o fun b => (o &&& ~~~x.2) ||| (b &&& x.2)) old (new.zip mask)

/-- The write gives every bit of its cell. -/
def isWhole (new : List (Option Byte)) (mask : List Byte) : Bool := isFull new && mask.all fun m => m == 0xFF#8

/-- A line or word: its stored bytes, its error state, its valid bit. -/
structure Cell where
  bytes : List Byte
  err   : Err
  valid : Bool := true
  deriving DecidableEq, Repr

/-- A cell after a write (R233, R240, R241): a whole write stores its data and poison; a narrower one merges into zeros
where the valid bit is clear, and keeps or brings poison. -/
def CellWr.on (p : CellWr) (c : Cell) : Cell :=
  let e : Err := if p.poison then .poison else .clean
  if isWhole p.new p.mask then { bytes := merge c.bytes p.new p.mask, err := e }
  else if !c.valid then { bytes := merge (List.replicate c.bytes.length 0) p.new p.mask, err := e }
  else { bytes := merge c.bytes p.new p.mask, err := if c.err = .ue ∨ c.err = .poison then .poison else e }

/-- A write with the cell it finds. -/
def CellWr.found (p : CellWr) (c : Cell) : CellWr := { p with bytes := c.bytes, err := c.err, valid := c.valid }

/-- The writes of one cell behind one put in before them, which now find `c`: with the cell they leave. -/
def ccShift (cell : Nat) (c : Cell) : List CellWr → List CellWr × Cell
  | [] => ([], c)
  | x :: xs =>
    if x.cell = cell then let r := ccShift cell (x.on c) xs; (x.found c :: r.1, r.2)
    else let r := ccShift cell c xs; (x :: r.1, r.2)

/-- A write put in its place among those of its cc, finding `c`: with the cell they leave. -/
def ccPlace (p : CellWr) (c : Cell) : List CellWr → List CellWr × Cell
  | [] => ([p.found c], p.on c)
  | x :: xs =>
    if x.cell = p.cell ∧ p.rank < x.rank then
      let r := ccShift p.cell (p.on c) (x :: xs)
      (p.found c :: r.1, r.2)
    else let r := ccPlace p c xs; (x :: r.1, r.2)

/-- A cell as an access of rank `r` finds it: before the writes of this cc that come later in its order. -/
def ccBefore (ws : List CellWr) (cell r : Nat) (now : Cell) : Cell :=
  match ws.find? fun p => p.cell == cell && decide (r < p.rank) with
  | some p => { bytes := p.bytes, err := p.err, valid := p.valid }
  | none => now

/-- A write of this cc to `cell` comes behind an access of rank `r`. -/
def ccBehind (ws : List CellWr) (cell r : Nat) : Bool := ws.any fun p => p.cell == cell && decide (r < p.rank)

/-- The place of a requester among the requests for one line of one cc (R242); the completion, fault and trace writers,
which R242 does not list, come last (log entry 86). Rank 0 is before all of them. -/
def hbmRank (a : Agent) : Nat :=
  match a.kind with
  | .tile _ _ => if a.unit < 64 then 1 + a.unit else if a.unit < 88 then a.unit else 100
  | .cob k _ => 88 + k
  | .fetch _ _ _ => 104
  | .twin => 105
  | .partner _ _ => 106 + (a.unit - 92)
  | .stream c _ => 120 + c
  | _ => 130

/-- The place of a descriptor in the order of issue: the cc, then the queue, then the order within the queue. -/
def issueOrd (s : State) (q n : Nat) : Nat :=
  match s.flightAt q n with
  | some f => (f.issued * 64 + q) * 2 ^ 40 + n
  | none => 0

/-- The place of a writer among the writes of one word of one cc (R231, R232); a read has place 0. -/
def sramRank (s : State) (a : Agent) : Nat :=
  match a.kind with
  | .event _ => 1
  | .cob _ _ => 2
  | .tile q n => (if 80 ≤ a.unit then 2 ^ 200 else 2 ^ 201) + issueOrd s q n * 2 ^ 32 + a.tile
  | _ => 3

/-! ### HBM -/

/-- The stack a physical address lies on (R226). -/
def stackOf (pa : Nat) : Nat := let c := pa / 256; (c % 4) ^^^ (c / 128 % 4)

/-- The error state of an HBM line, by line number (physical address / 64). -/
def State.lineErr (s : State) (l : Nat) : Err := mget (fun _ => Err.clean) s.mem.hbmErr l

/-- The error state the next access of a line finds: a rewrite of R239 already on its way stands before it. -/
def State.errSeen (s : State) (l : Nat) : Err :=
  let fixed (e : Err) : Bool := s.mem.acc.any fun x => x.line == l && x.fix == some e
  match s.lineErr l with
  | .ce => if fixed .clean then .clean else .ce
  | .ue => if fixed .poison then .poison else .ue
  | e => e

/-- `s` with the error state of an HBM line set. -/
def State.setLineErr (s : State) (l : Nat) (e : Err) : State :=
  { s with mem := { s.mem with hbmErr := mset (fun _ => Err.clean) s.mem.hbmErr l e } }

/-- The stored bytes of an HBM line. -/
def State.lineRaw (s : State) (l : Nat) : List Byte := bytesAt s.mem.hbm (l * 64) 64

/-- An HBM line as an access of rank `r` of this cc finds it (R242). -/
def State.lineSeen (s : State) (r l : Nat) : Cell := ccBefore s.cc.hbm l r { bytes := s.lineRaw l, err := s.errSeen l }

/-- `s` with an HBM line's bytes and error state stored. -/
def State.setLine (s : State) (l : Nat) (c : Cell) : State :=
  { s.setLineErr l c.err with mem := { (s.setLineErr l c.err).mem with hbm := putBytes s.mem.hbm (l * 64) (c.bytes.take 64) } }

/-- DETAIL of ECC_UE and ECC_UE_PARTIAL (Table 19.4): address, and memory in bits [41:40]. -/
def eccDetail (mem addr : Nat) : Nat := addr + mem * 2 ^ 40

/-- An access joins those its controller has accepted. -/
def addAcc (s : State) (x : Acc) : State := { s with mem := { s.mem with acc := s.mem.acc ++ [x] } }

/-- The controller of HBM line `l` is ON. -/
def hbmOn (s : State) (l : Nat) : Bool := s.eff (88 + stackOf (l * 64)) == 3

/-- The rewrite of R239, unless a write stands behind the read. -/
def rewrite (s : State) (a : Agent) (l : Nat) (e : Err) : State :=
  if ccBehind s.cc.hbm l (hbmRank a) then s
  else addAcc s { hc := stackOf (l * 64), line := l, write := false, who := agentWho a, fix := some e }

/-- A read of one HBM line (R239): its bytes, whether they are poisoned, and the state with counts, log and record. -/
def readLine (s : State) (a : Agent) (l : Nat) : List Byte × Bool × State :=
  let st := stackOf (l * 64)
  let ag := { a with unit := 88 + st }
  if !hbmOn s l then (List.replicate 64 0, true, agentOnce s ag 0x22 (eccDetail 2 (l * 64)))
  else
    let c := s.lineSeen (hbmRank a) l
    match c.err with
    | .clean => (c.bytes, false, s)
    | .ce => (c.bytes, false, rewrite (s.bump (0x0498 + 4 * st) 1) a l .clean)
    | .ue =>
      let s := logUE (s.bump 0x04A8 1) ag 2 st (l * 64)
      let s := agentOnce s ag 0x22 (eccDetail 2 (l * 64))
      (c.bytes, true, rewrite s a l .poison)
    | .poison => (c.bytes, true, s.bump 0x04AC 1)

/-- A byte string read through consecutive lines: the bytes of [pa, pa + n) and whether any line was poisoned. -/
def readPhys (s : State) (a : Agent) (pa n : Nat) : List Byte × Bool × State :=
  let first := pa / 64
  let cnt := (pa % 64 + n + 63) / 64
  let r := (List.range cnt).foldl (fun (acc : List Byte × Bool × State) i =>
    let x := readLine acc.2.2 a (first + i)
    (acc.1 ++ x.1, acc.2.1 || x.2.1, x.2.2)) ([], false, s)
  ((r.1.drop (pa % 64)).take n, r.2.1, r.2.2)

/-- The DCACHE line and the cached records a write to HBM line `l` overlaps are invalidated; an access of this cc still
finds them (R58, R153). -/
def invalidate (s : State) (l : Nat) : State :=
  { s with mem := { s.mem with dcache := s.mem.dcache.filter (fun d => d != l / 2)
                               rcache := s.mem.rcache.filter (fun r => r.pa / 64 != l) }
           cc := { s.cc with dcGone := s.cc.dcGone ++ s.mem.dcache.filter (fun d => d == l / 2)
                             rcGone := s.cc.rcGone ++ s.mem.rcache.filter (fun r => r.pa / 64 == l) } }

/-- A line write takes its place in this cc. -/
def placeLine (s : State) (p : CellWr) (c : Cell) : State :=
  let r := ccPlace p c s.cc.hbm
  (s.setLine p.cell r.2).setCc { s.cc with hbm := r.1 }

/-- A write of one HBM line, whole or partial (R240, R241); `mask` names the bits of each byte, all when it is empty. -/
def writeLine (s : State) (a : Agent) (l : Nat) (new : List (Option Byte)) (poison : Bool) (mask : List Byte := []) : State :=
  let st := stackOf (l * 64)
  let ag := { a with unit := 88 + st }
  if !hbmOn s l then agentOnce s ag 0x22 (eccDetail 2 (l * 64))
  else
    let c := s.lineSeen (hbmRank a) l
    let p : CellWr := { cell := l, rank := hbmRank a, new := new, mask := mask, poison := poison }
    let s := invalidate s l
    let s := addAcc s { hc := st, line := l, write := true, who := agentWho a }
    let s := if isWhole new mask then s
      else match c.err with
        | .clean => s
        | .ce => s.bump (0x0498 + 4 * st) 1
        | .ue => agentOnce (logUE ((s.bump 0x04A8 1).bump 0x04B4 1) ag 2 st (l * 64)) ag 0x23 (eccDetail 2 (l * 64))
        | .poison => agentOnce (s.bump 0x04B4 1) ag 0x23 (eccDetail 2 (l * 64))
    placeLine (if (p.on c).err = .poison then s.bump 0x04B0 1 else s) p c

/-- A byte string cut at the lines (or words) of `w` bytes that address `a` meets: the number of each and its bytes. -/
def cut (w a : Nat) (new : List (Option Byte)) : List (Nat × List (Option Byte)) :=
  (List.range ((a % w + new.length + w - 1) / w)).map fun i =>
    (a / w + i, (List.range w).map fun j =>
      let p := (a / w + i) * w + j
      if p < a then none else (new.getD (p - a) none))

/-- A write of HBM bytes through consecutive lines. -/
def writePhys (s : State) (a : Agent) (pa : Nat) (new : List (Option Byte)) (poison : Bool) : State :=
  (cut 64 pa new).foldl (fun s x => writeLine s a x.1 x.2 poison) s

/-! ### CBUF and Cobbler local memory -/

/-- The address of CBUF byte `o` of VC `v`. -/
def cbufAddr (v o : Nat) : Nat := v * 2 ^ 21 + o

/-- The address of local byte `o` of Cobbler `k`. -/
def localAddr (k o : Nat) : Nat := 2 ^ 27 + k * 2 ^ 16 + o

/-- The valid bit of a 16-byte word. -/
def State.wordValid (s : State) (w : Nat) : Bool := mget (fun _ => false) s.mem.valid w

/-- The error state of a 16-byte word. -/
def State.wordErr (s : State) (w : Nat) : Err := mget (fun _ => Err.clean) s.mem.sramErr w

/-- The stored bytes of a 16-byte word. -/
def State.wordRaw (s : State) (w : Nat) : List Byte := bytesAt s.mem.sram (w * 16) 16

/-- A word as it stands. -/
def State.wordCell (s : State) (w : Nat) : Cell := { bytes := s.wordRaw w, err := s.wordErr w, valid := s.wordValid w }

/-- A word as an access of rank `r` of this cc finds it (R231, R232). -/
def State.wordSeen (s : State) (r w : Nat) : Cell := ccBefore s.cc.sram w r (s.wordCell w)

/-- `s` with a word's valid bit and error state set. -/
def State.setWord (s : State) (w : Nat) (v : Bool) (e : Err) : State :=
  { s with mem := { s.mem with valid := mset (fun _ => false) s.mem.valid w v
                               sramErr := mset (fun _ => Err.clean) s.mem.sramErr w e } }

/-- `s` with a word's bytes, valid bit and error state stored. -/
def State.putWord (s : State) (w : Nat) (c : Cell) : State :=
  { s.setWord w c.valid c.err with
    mem := { (s.setWord w c.valid c.err).mem with sram := putBytes s.mem.sram (w * 16) (c.bytes.take 16) } }

/-- The memory (0 CBUF, 1 local), its VC or Cobbler, and the byte offset of a word. -/
def sramPlace (w : Nat) : Nat × Nat × Nat :=
  if w * 16 < 2 ^ 27 then (0, w * 16 / 2 ^ 21, w * 16 % 2 ^ 21)
  else (1, (w * 16 - 2 ^ 27) / 2 ^ 16, (w * 16 - 2 ^ 27) % 2 ^ 16)

/-- The unit that holds a word: VC n is unit n, Cobbler q unit 64 + q. -/
def sramUnit (w : Nat) : Nat := let p := sramPlace w; if p.1 = 0 then p.2.1 else 64 + p.2.1

/-- The bank of a word: CBUF banks by VC and (offset / 16) mod 32 (R182), local memories as one bank each. -/
def bankOf (w : Nat) : Nat := if w * 16 < 2 ^ 27 then sramUnit w * 32 + w % 32 else 2048 + sramUnit w

/-- An access touches the word's bank in this cc (R244). -/
def touch (s : State) (w : Nat) : State :=
  if s.cc.touched.contains (bankOf w) then s else s.setCc { s.cc with touched := bankOf w :: s.cc.touched }

/-- The valid bits of a group whose parity is wrong: every word of it reads poisoned from then on (R233). -/
def poisonGroup (s : State) (g : Nat) : State :=
  let s := { s with mem := { s.mem with badPar := mset (fun _ => false) s.mem.badPar g false }
                    cc := { s.cc with sram := s.cc.sram.map fun p =>
                      if p.cell / 32 = g then { p with err := .poison, valid := true } else p } }
  (List.range 32).foldl (fun s i => s.setWord (g * 32 + i) true .poison) s

/-- The parity of a word's group is checked at an access that reads its valid bit; a wrong one is a natural
uncorrectable error of the word (R233). The accessor's record is ECC_UE; the event plane's is EVT_POISON (R225), and an
access that then merges into the word also writes its own (R240). -/
def parityCheck (s : State) (a : Agent) (w : Nat) : State × Bool :=
  if mget (fun _ => false) s.mem.badPar (w / 32) then
    let p := sramPlace w
    let ag := { a with unit := sramUnit w }
    let s := logUE (s.bump 0x0494 1) ag p.1 p.2.1 p.2.2
    let s := match a.kind with
      | .event _ => s
      | _ => agentOnce s ag 0x22 (eccDetail p.1 p.2.2)
    (poisonGroup s (w / 32), true)
  else (s, false)

/-- A read of one CBUF or local word (R231 to R233, R239): its bytes, poison, whether a natural error was found, the
state. The event plane's record is EVT_POISON (R225). -/
def readWord (s : State) (a : Agent) (w : Nat) : List Byte × Bool × State :=
  let p := sramPlace w
  let ag := { a with unit := sramUnit w }
  if s.eff (sramUnit w) = 0 then (List.replicate 16 0, true, agentOnce s ag 0x22 (eccDetail p.1 p.2.2))
  else
    let s := touch s w
    let k := parityCheck s a w
    let c := s.wordSeen 0 w
    if k.2 then (c.bytes, true, k.1)
    else if !c.valid then (List.replicate 16 0, false, s)
    else match c.err with
      | .clean => (c.bytes, false, s)
      | .ce => (c.bytes, false, s.bump 0x0490 1)
      | .ue =>
        let s := logUE (s.bump 0x0494 1) ag p.1 p.2.1 p.2.2
        (c.bytes, true, match a.kind with
          | .event _ => s
          | _ => agentOnce s ag 0x22 (eccDetail p.1 p.2.2))
      | .poison => (c.bytes, true, s.bump 0x04AC 1)

/-- The bytes of [addr, addr + n) of CBUF and local memory. -/
def readSram (s : State) (a : Agent) (addr n : Nat) : List Byte × Bool × State :=
  let r := (List.range ((addr % 16 + n + 15) / 16)).foldl (fun (acc : List Byte × Bool × State) i =>
    let x := readWord acc.2.2 a (addr / 16 + i)
    (acc.1 ++ x.1, acc.2.1 || x.2.1, x.2.2)) ([], false, s)
  ((r.1.drop (addr % 16)).take n, r.2.1, r.2.2)

/-- A word write takes its place in this cc. -/
def placeWord (s : State) (p : CellWr) (c : Cell) : State :=
  let r := ccPlace p c s.cc.sram
  (s.putWord p.cell r.2).setCc { s.cc with sram := r.1 }

/-- A write of one CBUF or local word, whole or partial (R231 to R233, R240, R241). -/
def writeWord (s : State) (a : Agent) (w : Nat) (new : List (Option Byte)) (poison : Bool) (mask : List Byte := []) : State :=
  let pl := sramPlace w
  let ag := { a with unit := sramUnit w }
  if s.eff (sramUnit w) = 0 then agentOnce s ag 0x22 (eccDetail pl.1 pl.2.2)
  else
    let r := sramRank s a
    let p : CellWr := { cell := w, rank := r, new := new, mask := mask, poison := poison }
    let s := touch s w
    if isWhole new mask then placeWord (if poison then s.bump 0x04B0 1 else s) p (s.wordSeen r w)
    else
      let k := parityCheck s a w
      let s := k.1
      let c := s.wordSeen r w
      let s := if k.2 then agentOnce (s.bump 0x04B4 1) ag 0x23 (eccDetail pl.1 pl.2.2)
        else if !c.valid then s
        else match c.err with
          | .clean => s
          | .ce => s.bump 0x0490 1
          | .ue => agentOnce (logUE ((s.bump 0x0494 1).bump 0x04B4 1) ag pl.1 pl.2.1 pl.2.2) ag 0x23 (eccDetail pl.1 pl.2.2)
          | .poison => agentOnce (s.bump 0x04B4 1) ag 0x23 (eccDetail pl.1 pl.2.2)
      placeWord (if (p.on c).err = .poison then s.bump 0x04B0 1 else s) p c

/-- A write of CBUF or local bytes. -/
def writeSram (s : State) (a : Agent) (addr : Nat) (new : List (Option Byte)) (poison : Bool) : State :=
  (cut 16 addr new).foldl (fun s x => writeWord s a x.1 x.2 poison) s

/-- The valid bits of [addr, addr + n) are cleared, with their parity rewritten (R234, R185). -/
def clearValid (s : State) (addr n : Nat) : State :=
  { s with mem := { s.mem with valid := dropRange s.mem.valid (addr / 16) (n / 16)
                               sramErr := dropRange s.mem.sramErr (addr / 16) (n / 16)
                               badPar := dropRange s.mem.badPar (addr / 512) (n / 512) }
           cc := { s.cc with sram := s.cc.sram.filter fun p => !(decide (addr / 16 ≤ p.cell) && decide (p.cell < addr / 16 + n / 16)) } }

/-! ### Windows -/

/-- Window `w` of tenant `t` is enabled and valid (R227, R228). -/
def State.winOn (s : State) (t w : Nat) : Bool := bit (s.tf 3 (4 * t + w) 0) 31 && (s.win (4 * t + w)).valid

/-- The tenant address, physical address and bytes of window `w` of tenant `t`. -/
def State.winT (s : State) (t w : Nat) : Nat := s.tfB 3 (4 * t + w) 1 18 0 * 2 ^ 21
def State.winP (s : State) (t w : Nat) : Nat := s.tfB 3 (4 * t + w) 2 15 0 * 2 ^ 21
def State.winN (s : State) (t w : Nat) : Nat := s.tfB 3 (4 * t + w) 3 15 0 * 2 ^ 21

/-- The window of tenant `t` that holds all of [a, a + n), n at least 1. -/
def findWin (s : State) (t a n : Nat) : Option Nat :=
  (List.range 4).find? fun w => s.winOn t w && decide (s.winT t w ≤ a) && decide (a + n ≤ s.winT t w + s.winN t w)

/-- The physical address of tenant address `a` through window `w`. -/
def paOf (s : State) (t w a : Nat) : Nat := s.winP t w + (a - s.winT t w)

/-- [a, a + n) lies in one window of a tenant that runs: its physical address (R227, R301). -/
def xlate (s : State) (t a n : Nat) : Option Nat :=
  if s.tenRun t then (findWin s t a n).map fun w => paOf s t w a else none

/-- The window is protected (Table 11.2). -/
def winProt (s : State) (t w : Nat) : Bool := bit (s.tf 3 (4 * t + w) 0) 30

/-! ### The journal -/

/-- The pair journals: PSTATE is PAIRED and OUT is SEEDING or CURRENT (§15.4). -/
def journals (s : State) : Bool := s.twn.pstate == 2 && (s.twn.outDir == 1 || s.twn.outDir == 2)

/-- A journal record's header (Table 15.9), and a COMMIT's payload (Table 15.10). -/
def jrecHead (r : JRec) : List Byte :=
  if r.commit then
    leBytes 8 r.epoch ++ leBytes 8 (r.records * 2 ^ 32 + (if r.seeded then 2 else 0) + (if r.lost then 1 else 0))
  else
    leBytes 8 ((if r.seed then 2 ^ 62 else 0) + (if r.auth then 2 ^ 61 else 0) + r.tenant * 2 ^ 56 +
      (r.lines.length - 1) * 2 ^ 51 + r.epoch) ++ leBytes 8 r.addr ++ leBytes 8 r.poison ++ leBytes 8 r.jcount

/-- A record as it lies in a ring and is sent: header, lines, and with AUTH its TAG and four zero bytes (Table 15.8). -/
def jrecBytes (r : JRec) : List Byte :=
  jrecHead r ++ (if r.commit then [] else r.lines.flatten ++ (if r.auth then r.tag ++ List.replicate 4 0 else []))

/-- The bytes a record takes in a ring. -/
def jrecLen (r : JRec) : Nat := if r.commit then 16 else 32 + 64 * r.lines.length + (if r.auth then 16 else 0)

/-- The base and the bytes of a twin ring: BASE and SIZE × 2 MiB of the register in force. -/
def ringBase (s : State) (reg : Nat) : Nat := bits (s.regF' reg) 15 0 * 2 ^ 21
def ringBytes (s : State) (reg : Nat) : Nat := bits (s.regF' reg) 31 16 * 2 ^ 21

/-- The journal as a requester: replay, the seeding walk and the rings (R242, R324). -/
def twinAgent : Agent := { kind := .twin, cls := 6, unit := 102 }

/-- Bytes written into a twin ring at byte `off`, wrapping at its end (R324, R326; log entry 87). -/
def ringPut (s : State) (reg off : Nat) (bs : List Byte) : State :=
  let n := ringBytes s reg
  let o := off % n
  let s := writePhys s twinAgent (ringBase s reg + o) ((bs.take (n - o)).map some) false
  if bs.length ≤ n - o then s else writePhys s twinAgent (ringBase s reg) ((bs.drop (n - o)).map some) false

/-- The key slot of tenant `t` names a valid key: its records carry a TAG (R325). -/
def journalAuth (s : State) (t : Nat) : Bool :=
  bit (s.tw 0x0A (s.tfB 1 t 0 23 16) 0) 31 && decide (s.tfB 1 t 0 23 16 ≠ 0xFF)

/-- Tenant `t`'s journal session starts: its key entry's SESSION plus 1, stored (R325). -/
def startSession (s : State) (t : Nat) : State :=
  let k := s.tfB 1 t 0 23 16
  let n := ((s.key k).session + 1) % 2 ^ 32
  let s := s.modKey k fun e => { e with session := n }
  { s with twn := { s.twn with txSess := mset zeroNat s.twn.txSess t n, txCnt := mset zeroNat s.twn.txCnt t 0 } }

/-- The epoch whose journal a record joins: the open one until its commit record has been formed, else the next (R30, R323). -/
def journalEpoch (s : State) : Nat :=
  let next := if s.epc.count = 2 ^ 40 - 1 then 1 else s.epc.count + 1
  match s.epc.state with
  | .opened => s.epc.count
  | .drain => s.epc.count
  | .flush => s.epc.count
  | .commit => if s.epc.formed then next else s.epc.count
  | _ => next

/-- A record's TAG under the key and the session held as it is formed (R325). -/
def jrecTag (s : State) (r : JRec) : List Byte :=
  gmac96 (keyNat (s.key (s.tfB 1 r.tenant 0 23 16))) (mget zeroNat s.twn.txSess r.tenant * 2 ^ 64 + r.jcount)
    (jrecHead r ++ r.lines.flatten)

/-- The bytes the TX ring holds. -/
def txUsed (s : State) : Nat := (s.twn.tx.map jrecLen).sum

/-- A record enters the TX ring behind the others, and its bytes the ring's HBM (R324). -/
def txAppend (s : State) (r : JRec) : State :=
  let s := ringPut s 0x0420 s.twn.txWr (jrecBytes r)
  { s with twn := { s.twn with tx := s.twn.tx ++ [r], txWr := s.twn.txWr + jrecLen r } }

/-- A record enters the TX ring, or finds no room and is lost (R324). -/
def jrnlForm (s : State) (r : JRec) : State :=
  let auth := journalAuth s r.tenant
  let s := if auth && mget zeroNat s.twn.txSess r.tenant == 0 then startSession s r.tenant else s
  let r := { r with auth := auth, epoch := journalEpoch s, jcount := if auth then mget zeroNat s.twn.txCnt r.tenant else 0 }
  if txUsed s + jrecLen r ≤ ringBytes s 0x0420 then
    let s := txAppend s (if auth then { r with tag := jrecTag s r } else r)
    { s with twn := { s.twn with sentRecs := s.twn.sentRecs + 1
                                 txCnt := if auth then mset zeroNat s.twn.txCnt r.tenant (r.jcount + 1) else s.twn.txCnt } }
  else { s.bump 0x0448 1 with twn := { s.twn with lost := true } }

/-- Lists cut in pieces of at most `n`. -/
def pieces {α : Type} (n : Nat) (fuel : Nat) (l : List α) : List (List α) :=
  match fuel, l with
  | 0, _ => []
  | _, [] => []
  | k + 1, l => l.take n :: pieces n k (l.drop n)

/-- Rising numbers cut into runs of consecutive ones. -/
def runs : List Nat → List (List Nat)
  | [] => []
  | x :: xs =>
    match runs xs with
    | (y :: r) :: rs => if y = x + 1 then (x :: y :: r) :: rs else [x] :: (y :: r) :: rs
    | rs => [x] :: rs

/-- Records of HBM lines as an access of rank `rk` finds them, one for each run of up to 32 consecutive lines (R323);
`taddr` is the tenant address of line `first`. -/
def jrnlLines (s : State) (rk t taddr first : Nat) (ls : List Nat) (seed : Bool) : State :=
  ((runs ls).flatMap fun r => pieces 32 r.length r).foldl (fun s ls =>
    jrnlForm s { tenant := t, seed := seed, addr := taddr / 64 * 64 + 64 * (ls.headD 0 - first)
                 lines := ls.map fun l => if hbmOn s l then (s.lineSeen rk l).bytes else List.replicate 64 0
                 poison := (ls.map fun l =>
                   if !hbmOn s l || (s.lineSeen rk l).err == .poison || (s.lineSeen rk l).err == .ue then 2 ^ (l - ls.headD 0)
                   else 0).sum }) s

/-- The requester's protected writes draw on the budget (R304): tiles, Awl units and Cobblers. -/
def drawsBudget (a : Agent) : Bool :=
  match a.kind with
  | .tile _ _ => true
  | .cob _ _ => true
  | _ => false

/-- One line of a write request: the line, its bytes, the bits of each, its poison. -/
structure LineWr where
  line   : Nat := 0
  new    : List (Option Byte) := []
  mask   : List Byte := []
  poison : Bool := false
  deriving DecidableEq, Repr

/-- One write request to lines of window `w` of tenant `t`: budget (R304), memory, journal (R323: lines a controller that
is not ON discards form no record). The second value tells whether the budget discarded it. -/
def reqWrite (s : State) (a : Agent) (t w : Nat) (ls : List LineWr) : State × Bool :=
  let first := (ls.headD {}).line
  let addr := s.winT t w + (first * 64 - s.winP t w)
  let prot := winProt s t w && journals s && bit s.twn.run t
  if prot && drawsBudget a && ((s.ten t).jexhausted || decide (s.tfB 1 t 6 23 0 < (s.ten t).jused + ls.length)) then
    (agentOnce (s.modTen t fun x => { x with jexhausted := true }) a 0x24 (addr + (ls.headD {}).new.findIdx Option.isSome), true)
  else
    let s := if prot && drawsBudget a then s.modTen t fun x => { x with jused := x.jused + ls.length } else s
    let s := ls.foldl (fun s x => writeLine s a x.line x.new x.poison x.mask) s
    (if prot then jrnlLines s (hbmRank a) t addr first ((ls.map (·.line)).filter (hbmOn s)) false else s, false)

/-- A write to tenant addresses that lie in window `w` of tenant `t`, as one request. -/
def winWrite (s : State) (a : Agent) (t w addr : Nat) (new : List (Option Byte)) (poison : Bool) : State × Bool :=
  reqWrite s a t w ((cut 64 (paOf s t w addr) new).map fun x => { line := x.1, new := x.2, poison := poison })

/-- A write to tenant addresses: performed when they lie in one window of a running tenant. The second value tells
whether it was refused (no window) or discarded. -/
def tenWrite (s : State) (a : Agent) (t addr : Nat) (new : List (Option Byte)) (poison : Bool) : State × Bool :=
  if new.isEmpty then (s, false)
  else if !s.tenRun t then (s, true)
  else match findWin s t addr new.length with
    | none => (s, true)
    | some w => winWrite s a t w addr new poison

/-- A read of tenant addresses in one window; none when they lie in no window. -/
def tenRead (s : State) (a : Agent) (t addr n : Nat) : Option (List Byte × Bool × State) :=
  (xlate s t addr n).map fun pa => readPhys s a pa n

/-- Plain bytes as a full write. -/
def allBytes (bs : List Byte) : List (Option Byte) := bs.map some

/-- Every write of a requester has been acknowledged. -/
def noAcc (s : State) (w : Who) : Bool := !(s.mem.acc.any fun x => x.write && decide (x.who = w))

end Sys2Proof.Machine
end

