-- ==== Sys2Proof/Machine/Desc.lean ====
section
/-! DEFINITION. Descriptors (chapter 03): their fields (Tables 03.2 to 03.7, 03.10), the checks of their own fields
(R40, R41, R43, R48, R49, R51), and the scoreboard entries they need (R66, R67). A descriptor is its sixteen 64-bit words. -/

namespace Sys2Proof.Machine

/-- Word `i` of a descriptor. -/
def dw (w : List Nat) (i : Nat) : Nat := w.getD i 0

/-! ### Fields -/

def dOpcode (w : List Nat) : Nat := bits (dw w 0) 7 0
def dLast (w : List Nat) : Bool := bit (dw w 0) 8
def dTrace (w : List Nat) : Bool := bit (dw w 0) 16
def dNotify (w : List Nat) : Bool := bit (dw w 0) 17
def dBarrier (w : List Nat) : Bool := bit (dw w 0) 18
def dTpath (w : List Nat) : Bool := bit (dw w 0) 19
def dTrans (w : List Nat) : Nat := bits (dw w 0) 23 20
def dMod (w : List Nat) : Nat := bits (dw w 0) 55 48

/-- Operand `o` is present: 0 to 3 the sources, 4 the destination. -/
def dHas (w : List Nat) (o : Nat) : Bool := if o < 4 then bit (dw w 1) (60 + o) else bit (dw w 2) 40

/-- The Last index of operand `o`. -/
def dIndex (w : List Nat) (o : Nat) : Nat :=
  match o with
  | 0 => bits (dw w 1) 19 0
  | 1 => bits (dw w 1) 39 20
  | 2 => bits (dw w 1) 59 40
  | 3 => bits (dw w 2) 19 0
  | _ => bits (dw w 2) 39 20

/-- Region declaration `i`: 0 to 3 RD0-RD3, 4 and 5 WR0-WR1. -/
def dRegion (w : List Nat) (i : Nat) : Nat := dw w (3 + i)

/-- P0 to P4 as the descriptor holds them. -/
def dParams (w : List Nat) : List Nat := [dw w 9, dw w 10, dw w 11, dw w 12, dw w 13]

def dPsrEn (w : List Nat) : Nat := bits (dw w 14) 35 32
def dPsrSel (w : List Nat) (p : Nat) : Nat := bits (dw w 14) (38 + 3 * p) (36 + 3 * p)
def dSrOut (w : List Nat) : Option Nat := if bit (dw w 14) 55 then some (bits (dw w 14) 50 48) else none
def dDelay (w : List Nat) : Nat := bits (dw w 14) 31 0
def dNext (w : List Nat) : Nat := bits (dw w 15) 39 0

/-- The sixteen words of 128 bytes. -/
def descWords (bs : List Byte) : List Nat := (List.range 16).map (word64At bs)

/-- The successor's address is known before the descriptor issues (R46). -/
def dKnownNext (w : List Nat) : Option Nat :=
  if dLast w || [1, 2, 3, 5].contains (dOpcode w) then none else some (dNext w)

/-- The opcodes of the control descriptors (Table 03.10). -/
def isCtl (op : Nat) : Bool := decide (1 ≤ op) && decide (op ≤ 6)

/-! ### Checks of a descriptor's own fields -/

/-- TAG is one of the reserved tags (R51). -/
def tagReserved (tag : Nat) : Bool := decide (0xFFFFF0 ≤ tag)

/-- Every reserved field is 0 (R40), absent operands have index 0 (R41). -/
def rsvdOk (w : List Nat) : Bool :=
  bits (dw w 0) 15 9 == 0 && bits (dw w 2) 63 41 == 0 && bits (dw w 14) 63 56 == 0 && bits (dw w 14) 54 51 == 0 &&
  bits (dw w 15) 63 40 == 0 && (List.range 5).all fun o => dHas w o || dIndex w o == 0

/-- One region declaration of a descriptor of tenant `t` (R43). -/
def regionOk (s : State) (t r : Nat) : Bool :=
  let len := bits r 60 42 + 1
  let a := bits r 39 0
  bits r 41 40 == 0 &&
  match bits r 63 61 with
  | 0 => a == 0 && len == 1
  | 1 => a % 512 == 0 && s.tenRun t && (findWin s t a (512 * len)).isSome
  | 2 => bits a 39 28 == 0 && bits a 8 0 == 0 && (!bit a 27 || bits a 26 21 == 0) && decide (bits a 20 0 + 512 * len ≤ 2 ^ 21)
  | 3 => bits a 39 20 == 0 && bits a 8 0 == 0 && decide (bits a 15 0 + 512 * len ≤ 2 ^ 16)
  | 4 => bits a 39 8 == 0 && len == 1
  | _ => false

/-- CBLk is held by tenant `t` (R184). -/
def holdsCbl (s : State) (t k : Nat) : Bool := (s.cbl k).holder == some t

/-- The checks of R48 and R49 on the P words of a control descriptor, each with the set of P words it concerns. -/
def ctlChecks (s : State) (t op : Nat) (ps : List Nat) : List (Nat × Bool) :=
  let p (i : Nat) := ps.getD i 0
  let z (i : Nat) : Nat × Bool := (2 ^ i, p i == 0)
  match op with
  | 1 => [(1, bits (p 0) 63 40 == 0), (2, bits (p 1) 31 16 == 0 && decide (bits (p 1) 7 0 ≤ 0x10) &&
          (decide (bits (p 1) 15 8 ≤ 7) || bits (p 1) 15 8 == 0xFF)), z 2, z 3, z 4]
  | 2 => [(1, bits (p 0) 63 40 == 0), (2, bits (p 1) 63 11 == 0 && bits (p 1) 7 2 == 0),
          (3, !bit (p 1) 9 || bits (p 0) 39 0 == 0), z 2, z 3, z 4]
  | 3 => [(1, bits (p 0) 63 33 == 0 && bits (p 0) 15 10 == 0), (2, bits (p 1) 63 33 == 0), (4, bits (p 2) 63 40 == 0),
          (6, bit (p 1) 32 || bits (p 2) 39 0 == 0), z 3, z 4]
  | 4 =>
    let kind := bits (p 0) 3 0
    let ix := bits (p 0) 25 16
    [(1, decide (kind ≤ 5) && bits (p 0) 15 4 == 0 && bits (p 0) 63 26 == 0 &&
        (decide (kind < 2) || decide (ix ≤ (if kind = 5 then 3 else 7)))),
     (3, kind != 5 || (decide (bits (p 1) 7 0 ≤ 0x0F) && decide (bits (p 1) 15 8 ≤ 0x10) && decide (bits (p 1) 18 16 ≤ 5) &&
        decide (bits (p 1) 21 20 ≤ 2))),
     (7, p 2 == 0 || (kind == 5 && bits (p 1) 15 8 == 0x10)), z 3, z 4]
  | 5 => [z 0, z 1, z 2, z 3, z 4]
  | _ => [(1, bits (p 0) 63 40 == 0 && bits (p 0) 6 0 == 0),
          (2, bits (p 1) 63 33 == 0 && bits (p 1) 31 26 == 0 && bits (p 1) 15 0 != 0 && decide (1 ≤ bits (p 1) 25 16) &&
              decide (bits (p 1) 25 16 ≤ 512) && (List.range 16).all fun k => !bit (p 1) k || holdsCbl s t k), z 3, z 4]

/-- Every check that concerns none of the P words of `skip` passes. -/
def ctlOk (s : State) (t op : Nat) (ps : List Nat) (skip : Nat) : Bool :=
  (ctlChecks s t op ps).all fun c => (c.1 &&& skip) != 0 || c.2

/-- What R48 asks of a control descriptor outside its P words. -/
def ctlBare (w : List Nat) : Bool :=
  dMod w == 0 && dw w 1 == 0 && dw w 2 == 0 && dTrans w == 0 && !dTpath w &&
  (dOpcode w == 6 || (List.range 6).all fun i => dRegion w i == 0)

/-- The tack a SET of kind 0 or 1 or a WAIT names (R49). -/
def ctlTack (op : Nat) (ps : List Nat) : Option Nat :=
  let p0 := ps.getD 0 0
  if op = 3 then some (bits p0 9 0) else if op = 4 ∧ bits p0 3 0 < 2 then some (bits p0 25 16) else none

/-- The tack check of order 4, on P0 unless it comes from a scalar register (R48, R49). -/
def tackOk (s : State) (t op : Nat) (ps : List Nat) (skip : Nat) : Bool :=
  skip % 2 == 1 || match ctlTack op ps with | none => true | some k => s.ownsTack t k

/-! ### Scoreboard entries -/

/-- The span of a declaration, if it declares anything (Tables 03.7, 03.8). -/
def regionSpan (q r : Nat) : Option Span :=
  let n := bits r 60 42 + 1
  let a := bits r 39 0
  match bits r 63 61 with
  | 1 => some (.hbm (a / 512) n)
  | 2 => some (.cbuf (if bit a 27 then none else some (bits a 26 21)) (bits a 20 0 / 512) n)
  | 3 => some (.cbl (bits a 19 16) (bits a 15 0 / 512) n)
  | 4 => some (.sr q (bits a 7 0))
  | _ => none

/-- The scalar registers a descriptor reads and writes implicitly (R42, R66), `ps` its P words as resolved. -/
def srUses (x : QueueSt) (w : List Nat) (ps : List Nat) : Nat × Nat :=
  let op := dOpcode w
  let srBit (c : Nat) : Nat := if 8 ≤ c ∧ c ≤ 0x0F then 2 ^ (c - 8) else 0
  let psr := (List.range 4).foldl (fun m p => if bit (dPsrEn w) p then m ||| 2 ^ dPsrSel w p else m) 0
  let c := x.cmp.getD (bits (ps.getD 1 0) 1 0) {}
  let rd := psr ||| (if op = 1 then srBit (bits (ps.getD 1 0) 7 0) else 0) ||| (if op = 2 then srBit c.a ||| srBit c.b else 0)
  let wr := (match dSrOut w with | some r => 2 ^ r | none => 0) |||
    (if op = 4 ∧ bits (ps.getD 0 0) 3 0 = 4 then 2 ^ (bits (ps.getD 0 0) 25 16 % 8) else 0)
  (rd, wr)

/-- The entries of a guarded descriptor of queue `q`, write or read each, and how many it needs (R66). -/
def sbEntries (q : Nat) (x : QueueSt) (w : List Nat) (ps : List Nat) : List (Bool × Span) × Nat :=
  let rd := (List.range 4).filterMap fun i => (regionSpan q (dRegion w i)).map fun p => (false, p)
  let wr := (List.range 2).filterMap fun i => (regionSpan q (dRegion w (4 + i))).map fun p => (true, p)
  let u := srUses x w ps
  let srs := (if u.1 = 0 then [] else [(false, Span.sr q u.1)]) ++ (if u.2 = 0 then [] else [(true, Span.sr q u.2)])
  (rd ++ wr ++ srs, rd.length + wr.length + (if srs.isEmpty then 0 else 1))

/-- Granule ranges meet. -/
def rangesMeet (a n b m : Nat) : Bool := decide (a < b + m) && decide (b < a + n)

/-- Two entries of one tenant overlap (R67); `mask` is the set of VCs an ALLVC entry covers. -/
def spansMeet (mask : Nat) : Span → Span → Bool
  | .hbm a n, .hbm b m => rangesMeet a n b m
  | .cbuf v a n, .cbuf u b m =>
    rangesMeet a n b m && (match v, u with
      | some v, some u => v == u
      | some v, none => bit mask v
      | none, some u => bit mask u
      | none, none => mask != 0)
  | .cbl k a n, .cbl j b m => k == j && rangesMeet a n b m
  | .sr q x, .sr r y => q == r && (x &&& y) != 0
  | _, _ => false

/-- The VCs every granted mask holds (R71). -/
def grantedAll (s : State) : Nat :=
  s.queues.foldl (fun m e => m ||| (if s.qOn e.1 && s.qTimed e.1 then e.2.granted.getD 0 else 0)) 0

/-- The cluster mask of a tenant less every granted mask (R73, Table 03.8). -/
def freeMask (s : State) (t : Nat) : Nat := let g := grantedAll s; s.cmask t - (s.cmask t &&& g)

/-- Entries released in cc r that still hold an issue back: admission takes 12 cc from cc r + 1 on (R69). -/
def stillFreed (s : State) (x : QueueSt) : List Freed := x.freed.filter fun f => decide (s.now < f.cc + 13)

/-- The entries the guarded in-flight descriptors of a tenant hold (R67), with those released in cc `u` or later (R69). -/
def heldEntries (s : State) (t u : Nat) : List (Bool × Span) :=
  s.queues.flatMap fun e => if s.qTen e.1 = t ∧ s.qTimed e.1 = false then
    e.2.flight.flatMap (·.entries) ++ (e.2.freed.filter fun f => decide (u ≤ f.cc)).flatMap (·.entries) else []

/-- Entries of the 512 of a tenant's scoreboard that were held in cc `u`, taken by then and not released before (R69). -/
def heldCount (s : State) (t u : Nat) : Nat :=
  (s.queues.map fun e => if s.qTen e.1 = t ∧ s.qTimed e.1 = false then
    ((e.2.flight.filter fun f => decide (f.issued ≤ u)).map (·.need)).sum +
    ((e.2.freed.filter fun f => decide (f.issued ≤ u) && decide (u ≤ f.cc)).map (·.need)).sum else 0).sum

/-- None of these entries meets one of those (R67, R68). -/
def noHazard (s : State) (t : Nat) (new held : List (Bool × Span)) : Bool :=
  let mask := freeMask s t
  new.all fun e => held.all fun h => !(e.1 || h.1) || !spansMeet mask e.2 h.2

/-- The conditions of R68 hold in this cc: no hazard against held entries, and enough free entries. -/
def sbHolds (s : State) (t : Nat) (new : List (Bool × Span)) (need : Nat) : Bool :=
  decide (heldCount s t s.now + need ≤ 512) && noHazard s t new (heldEntries s t s.now)

/-- The conditions of R68 have held in each of the last 12 cc, and hold in this one (R69). -/
def sbFree (s : State) (t : Nat) (new : List (Bool × Span)) (need : Nat) : Bool :=
  ((List.range 13).all fun i => decide (heldCount s t (s.now - i) + need ≤ 512)) &&
  noHazard s t new (heldEntries s t (s.now - 12))

end Sys2Proof.Machine
end

