-- ==== Sys2Proof/Machine/Numbers.lean ====
section
/-! DEFINITION. The number system of chapter 06: exact values, the working form, the storage types, decoding, the one
rounding at a destination, MX blocks and pairs; and the compensated sums of R147. -/

namespace Sys2Proof.Machine

/-! ### Exact values -/

/-- NaN. -/
def nNaN : Num := { nan := true }

/-- An infinity. -/
def nInf (neg : Bool) : Num := { inf := true, neg := neg }

/-- A zero. -/
def nZero (neg : Bool) : Num := { neg := neg }

/-- An integer. -/
def nInt (i : Int) : Num := { neg := decide (i < 0), num := i.natAbs }

/-- (−1)^neg · m · 2^e. -/
def nScaled (neg : Bool) (m : Nat) (e : Int) : Num :=
  if 0 ≤ e then { neg := neg, num := m * 2 ^ e.toNat } else { neg := neg, num := m, den := 2 ^ (-e).toNat }

/-- The value is finite. -/
def Num.fin (x : Num) : Bool := !x.nan && !x.inf

/-- The value is ±0. -/
def Num.isZero (x : Num) : Bool := x.fin && x.num == 0

/-- −x. -/
def nNeg (x : Num) : Num := if x.nan then x else { x with neg := !x.neg }

/-- |x|. -/
def nAbs (x : Num) : Num := if x.nan then x else { x with neg := false }

/-- The signed numerator of a finite value. -/
def Num.sgn (x : Num) : Int := if x.neg then -(x.num : Int) else x.num

/-- A value without its poison bit. -/
def Num.bare (x : Num) : Num := { x with poison := false }

/-- x + y (Table 05.5): ∞ − ∞ is NaN; an exact zero is +0, or −0 when both addends are −0. -/
def nAdd (x y : Num) : Num :=
  if x.nan || y.nan then nNaN
  else if x.inf then (if y.inf && x.neg != y.neg then nNaN else nInf x.neg)
  else if y.inf then nInf y.neg
  else
    let n := x.sgn * y.den + y.sgn * x.den
    if n = 0 then nZero (x.num == 0 && y.num == 0 && x.neg && y.neg)
    else { neg := decide (n < 0), num := n.natAbs, den := x.den * y.den }

/-- x − y. -/
def nSub (x y : Num) : Num := nAdd x (nNeg y)

/-- x · y: 0 × ∞ is NaN. -/
def nMul (x y : Num) : Num :=
  if x.nan || y.nan then nNaN
  else if x.inf || y.inf then (if x.isZero || y.isZero then nNaN else nInf (x.neg != y.neg))
  else { neg := x.neg != y.neg, num := x.num * y.num, den := x.den * y.den }

/-- x / y: nonzero / ±0 is ±∞; 0/0 and ∞/∞ are NaN. -/
def nDiv (x y : Num) : Num :=
  if x.nan || y.nan then nNaN
  else if x.inf then (if y.inf then nNaN else nInf (x.neg != y.neg))
  else if y.inf then nZero (x.neg != y.neg)
  else if y.num = 0 then (if x.num = 0 then nNaN else nInf (x.neg != y.neg))
  else { neg := x.neg != y.neg, num := x.num * y.den, den := x.den * y.num }

/-- x < y by exact value, with no NaN; ±0 are equal. -/
def nLt (x y : Num) : Bool :=
  if x.inf then x.neg && !(y.inf && y.neg)
  else if y.inf then !y.neg
  else decide (x.sgn * y.den < y.sgn * x.den)

/-- Equality by exact value, with no NaN; +0 equals −0. -/
def nEq (x y : Num) : Bool :=
  if x.inf || y.inf then x.inf && y.inf && x.neg == y.neg else decide (x.sgn * y.den = y.sgn * x.den)

/-- x is below y for MAX and MIN, where −0 is less than +0 (Table 05.5). -/
def nBelow (x y : Num) : Bool := nLt x y || (x.isZero && y.isZero && x.neg && !y.neg)

/-- MAX of Table 05.5. -/
def nMax (x y : Num) : Num := if x.nan || y.nan then nNaN else if nBelow x y then y else x

/-- MIN of Table 05.5. -/
def nMin (x y : Num) : Num := if x.nan || y.nan then nNaN else if nBelow y x then y else x

/-! ### Rounding -/

/-- n / d to the nearest integer, ties to even. -/
def rneDiv (n d : Nat) : Nat :=
  let q := n / d
  let r := n % d
  if d < 2 * r || (2 * r = d && q % 2 = 1) then q + 1 else q

/-- n / d / 2^e to the nearest integer, ties to even. -/
def rneAt (n d : Nat) (e : Int) : Nat :=
  if 0 ≤ e then rneDiv n (d * 2 ^ e.toNat) else rneDiv (n * 2 ^ (-e).toNat) d

/-- floor(log2 (n / d)) for positive n and d. -/
def log2Rat (n d : Nat) : Int :=
  let e : Int := (Nat.log2 n : Int) - (Nat.log2 d : Int)
  if 0 ≤ e then (if d * 2 ^ e.toNat ≤ n then e else e - 1) else (if d ≤ n * 2 ^ (-e).toNat then e else e - 1)

/-- x rounded to a significand of `p` bits, with no limit on its exponent. -/
def nSig (p : Nat) (x : Num) : Num :=
  if !x.fin || x.num = 0 then x
  else
    let e := log2Rat x.num x.den - (p - 1 : Nat)
    nScaled x.neg (rneAt x.num x.den e) e

/-- x rounded to WF (R138): 35 bits, ±∞ from 2^1024, ±0 below 2^−1022, both on the rounded magnitude. -/
def toWF (x : Num) : Num :=
  if !x.fin || x.num = 0 then x
  else
    let y := nSig 35 x
    let e := log2Rat y.num y.den
    if 1024 ≤ e then nInf x.neg else if e < -1022 then nZero x.neg else y

/-- WF addition, subtraction and multiplication, each rounded to WF. -/
def wAdd (x y : Num) : Num := toWF (nAdd x y)
def wSub (x y : Num) : Num := toWF (nSub x y)
def wMul (x y : Num) : Num := toWF (nMul x y)
def wDiv (x y : Num) : Num := toWF (nDiv x y)

/-- A finite value as an integer, to nearest with ties to even. -/
def rneInt (x : Num) : Int := if x.neg then -(rneDiv x.num x.den : Int) else rneDiv x.num x.den

/-- A finite value as an integer, toward zero. -/
def truncInt (x : Num) : Int := if x.neg then -((x.num / x.den : Nat) : Int) else (x.num / x.den : Nat)

/-- A finite value as an integer, toward −∞. -/
def floorInt (x : Num) : Int := x.sgn / (x.den : Int)

/-! ### Floating formats -/

/-- A floating format of Table 06.3: exponent and mantissa bits, bias, emax, whether it holds infinity, and its
canonical NaN, if it has one. -/
structure Fmt where
  e    : Nat
  m    : Nat
  bias : Nat
  emax : Int
  inf  : Bool
  nan  : Option Nat
  deriving DecidableEq, Repr

def fmtFP32 : Fmt := { e := 8, m := 23, bias := 127, emax := 127, inf := true, nan := some 0x7FC00000 }
def fmtBF16 : Fmt := { e := 8, m := 7, bias := 127, emax := 127, inf := true, nan := some 0x7FC0 }
def fmtFP16 : Fmt := { e := 5, m := 10, bias := 15, emax := 15, inf := true, nan := some 0x7E00 }
def fmtE4M3 : Fmt := { e := 4, m := 3, bias := 7, emax := 8, inf := false, nan := some 0x7F }
def fmtE5M2 : Fmt := { e := 5, m := 2, bias := 15, emax := 15, inf := true, nan := some 0x7E }
def fmtE3M2 : Fmt := { e := 3, m := 2, bias := 3, emax := 4, inf := false, nan := none }
def fmtE2M3 : Fmt := { e := 2, m := 3, bias := 1, emax := 2, inf := false, nan := none }
def fmtE2M1 : Fmt := { e := 2, m := 1, bias := 1, emax := 2, inf := false, nan := none }

/-- The value of an encoding (R131, R132). -/
def fmtDecode (f : Fmt) (b : Nat) : Num :=
  let s := b.testBit (f.e + f.m)
  let E := bits b (f.e + f.m - 1) f.m
  let M := b % 2 ^ f.m
  if f.inf && E = 2 ^ f.e - 1 then (if M = 0 then nInf s else nNaN)
  else if !f.inf && f.nan.isSome && E = 2 ^ f.e - 1 && M = 2 ^ f.m - 1 then nNaN
  else if E = 0 then (if M = 0 then nZero s else nScaled s M (1 - (f.bias : Int) - f.m))
  else nScaled s (2 ^ f.m + M) ((E : Int) - f.bias - f.m)

/-- The greatest finite encoding, sign apart. -/
def fmtMax (f : Fmt) : Nat :=
  if f.inf then (2 ^ f.e - 1) * 2 ^ f.m - 1 else if f.nan.isSome then 2 ^ (f.e + f.m) - 2 else 2 ^ (f.e + f.m) - 1

/-- A result encoded: its bits, whether it counts as saturated, whether it is NaN under OVF (R141, R143). -/
structure Enc where
  bits : Nat := 0
  sat  : Bool := false
  nanO : Bool := false
  deriving DecidableEq, Repr

/-- A value beyond the format's range, or an infinity (R141). -/
def fmtOver (f : Fmt) (ovf : Bool) (s : Nat) : Enc :=
  if f.inf then { bits := s + (2 ^ f.e - 1) * 2 ^ f.m }
  else if ovf && f.nan.isSome then { bits := f.nan.getD 0, nanO := true }
  else { bits := s + fmtMax f, sat := true }

/-- The one rounding to a floating format (R140, R141). A format without NaN writes 0 for it (R145 decides its block). -/
def fmtEncode (f : Fmt) (ovf : Bool) (x : Num) : Enc :=
  let s := if x.neg then 2 ^ (f.e + f.m) else 0
  if x.nan then { bits := f.nan.getD 0 }
  else if x.inf then fmtOver f ovf s
  else if x.num = 0 then { bits := s }
  else
    let ee := max (log2Rat x.num x.den) (1 - (f.bias : Int))
    let q := rneAt x.num x.den (ee - f.m)
    let b := (ee + f.bias - 1).toNat * 2 ^ f.m + q
    if b ≤ fmtMax f then { bits := s + b } else fmtOver f ovf s

/-- FP32 bits of a value. -/
def fp32 (x : Num) : Nat := (fmtEncode fmtFP32 false x).bits

/-- The value of FP32 bits. -/
def ofFp32 (b : Nat) : Num := fmtDecode fmtFP32 (b % 2 ^ 32)

/-- A value rounded to FP32. -/
def rFp32 (x : Num) : Num := ofFp32 (fp32 x)

/-! ### Types -/

/-- The type codes of Table 06.2 that exist. -/
def typeOk (t : Nat) : Bool := decide (t ≤ 0x10)

def isF (t : Nat) : Bool := decide (t ≤ 0x0A)
def isI (t : Nat) : Bool := decide (0x0B ≤ t) && decide (t ≤ 0x0E)
def isN (t : Nat) : Bool := decide (t ≤ 0x0E)
def isMX (t : Nat) : Bool := decide (0x05 ≤ t) && decide (t ≤ 0x0A)
def isP (t : Nat) : Bool := t == 0x0F
def isM (t : Nat) : Bool := t == 0x10

/-- Element bits (Table 06.2), scale apart. -/
def typeBits : Nat → Nat
  | 0x00 => 32 | 0x01 => 16 | 0x02 => 16 | 0x03 => 8 | 0x04 => 8 | 0x05 => 8 | 0x06 => 8 | 0x07 => 6 | 0x08 => 6
  | 0x09 => 4 | 0x0A => 8 | 0x0B => 8 | 0x0C => 8 | 0x0D => 16 | 0x0E => 32 | 0x0F => 64 | _ => 1

/-- Bytes of an MX block (Table 06.4). -/
def blockBytes (t : Nat) : Nat := if t = 0x07 || t = 0x08 then 24 else if t = 0x09 then 16 else 32

/-- The floating format of a type, or of an MX type's elements. -/
def typeFmt : Nat → Option Fmt
  | 0x00 => some fmtFP32 | 0x01 => some fmtBF16 | 0x02 => some fmtFP16 | 0x03 => some fmtE4M3 | 0x04 => some fmtE5M2
  | 0x05 => some fmtE4M3 | 0x06 => some fmtE5M2 | 0x07 => some fmtE3M2 | 0x08 => some fmtE2M3 | 0x09 => some fmtE2M1
  | _ => none

/-- The range of an integer type. -/
def intRange : Nat → Int × Int
  | 0x0B => (-128, 127) | 0x0C => (0, 255) | 0x0D => (-32768, 32767) | 0x0A => (-127, 127)
  | _ => (-2147483648, 2147483647)

/-- Elements per cc per VC of a type (R12); MASK1 counts as 8-bit (R124). -/
def typeRate (t : Nat) : Nat := if typeBits t = 32 || typeBits t = 64 then 32 else if typeBits t = 16 then 64 else 128

/-- An element of a type other than MX, from its stored bits (R139); a pair by R147. -/
def decodeElem (t b : Nat) : Num :=
  match typeFmt t with
  | some f => fmtDecode f b
  | none =>
    if isP t then
      let hi := ofFp32 (b % 2 ^ 32)
      let lo := ofFp32 (b / 2 ^ 32)
      if hi.nan || lo.nan then nNaN else if hi.inf then hi else if lo.inf then lo else nAdd hi lo
    else if isM t then nInt (b % 2)
    else if t = 0x0C then nInt b
    else nInt (toSigned (typeBits t) b)

/-- The scale 2^(X − 127) as an exponent (R134). -/
def scaleExp (x : Nat) : Int := (x : Int) - 127

/-- An element of an MX type, from its stored bits and its block's scale byte (R134, R135, R139). -/
def decodeMX (t b x : Nat) : Num :=
  if x = 0xFF then nNaN
  else
    let v := match typeFmt t with
      | some f => fmtDecode f b
      | none => let k := toSigned 8 b
                if k = 0 then nZero false else nScaled (decide (k < 0)) k.natAbs (-6)
    if v.fin && v.num ≠ 0 then nMul v (nScaled false 1 (scaleExp x)) else v

/-- The one rounding to an integer type (R142); `trunc` under TRUNC. -/
def encInt (lo hi : Int) (trunc : Bool) (x : Num) : Int × Bool :=
  if x.nan then (0, false)
  else if x.inf then (if x.neg then lo else hi, true)
  else
    let k := if trunc then truncInt x else rneInt x
    if k < lo then (lo, true) else if hi < k then (hi, true) else (k, false)

/-- A value encoded in a type other than MX (R140 to R142, R146). -/
def encodeElem (t : Nat) (ovf trunc : Bool) (x : Num) : Enc :=
  match typeFmt t with
  | some f => fmtEncode f ovf x
  | none =>
    if isP t then
      let hi := fmtEncode fmtFP32 false x
      let h := ofFp32 hi.bits
      let lo := if h.fin then (fmtEncode fmtFP32 false (nSub x h)).bits else 0
      { bits := hi.bits + lo * 2 ^ 32 }
    else if isM t then { bits := if x.num = 0 then 0 else 1 }
    else
      let r := encInt (intRange t).1 (intRange t).2 trunc x
      { bits := ofSigned (typeBits t) r.1, sat := r.2 }

/-- The exponent e of a block's scale, before its clamp: floor(log2 amax) − emax (R144). -/
def mxExp (t : Nat) (xs : List Num) : Option Int :=
  let es := (xs.filter fun x => x.fin && x.num ≠ 0).map fun x => log2Rat x.num x.den
  match es with
  | [] => none
  | e :: es => some (es.foldl max e - (match typeFmt t with | some f => f.emax | none => 0))

/-- One element of a block encoded under scale exponent `e` (R144). -/
def mxElem (t : Nat) (ovf trunc : Bool) (e : Int) (x : Num) : Enc :=
  let v := if x.fin && x.num ≠ 0 then nMul x (nScaled false 1 (-e)) else x
  match typeFmt t with
  | some f => fmtEncode f ovf v
  | none =>
    let v := if v.fin && v.num ≠ 0 then nMul v (nInt 64) else v
    let r := encInt (-127) 127 trunc v
    { bits := ofSigned 8 r.1, sat := r.2 }

/-- A block encodes without saturating at scale exponent `e` (R117 rule 1). -/
def mxFits (t : Nat) (e : Int) (xs : List Num) : Bool :=
  xs.all fun x => !(x.fin && x.num ≠ 0) || (let r := mxElem t true false e x; !r.sat && !r.nanO &&
    (match typeFmt t with | some f => decide (r.bits % 2 ^ (f.e + f.m) ≤ fmtMax f) | none => true))

/-- A block of 32 values encoded: the scale byte and the elements (R144, R145, R117). -/
def mxEncode (t : Nat) (ovf trunc rule1 : Bool) (xs : List Num) : Nat × List Enc :=
  let holdsNaN := match typeFmt t with | some f => f.nan.isSome | none => false
  if !holdsNaN && xs.any (fun x => x.nan) then (0xFF, xs.map fun _ => {})
  else
    let e0 := (mxExp t xs).getD 0
    let e1 := if rule1 && (mxExp t xs).isSome && !mxFits t e0 xs then e0 + 1 else e0
    let e := min (max e1 (-127)) 127
    ((e + 127).toNat, xs.map (mxElem t ovf trunc e))

/-! ### Roots and compensated sums -/

/-- floor of the square root of `n`, for n below 4^k: one bit at a time. -/
def isqrt : Nat → Nat → Nat
  | 0, _ => 0
  | k + 1, n => let r := 2 * isqrt k (n / 4); if (r + 1) * (r + 1) ≤ n then r + 1 else r

/-- √x to 300 fraction bits with a sticky bit below them, so that it rounds as the exact root does (R105, class DIV). -/
def nSqrt (x : Num) : Num :=
  if x.nan then nNaN
  else if x.inf then (if x.neg then nNaN else x)
  else if x.num = 0 then x
  else if x.neg then nNaN
  else
    let n := x.num * 2 ^ 600 / x.den
    let r := isqrt 1000 n
    { num := 2 * r + (if r * r * x.den = x.num * 2 ^ 600 then 0 else 1), den := 2 ^ 301 }

/-- twosum of R147. -/
def twoSum (a b : Num) : Num × Num :=
  let hi := wAdd a b
  let t := wSub hi a
  (hi, wAdd (wSub a (wSub hi t)) (wSub b t))

/-- One step of csum (R147): the accumulator (sh, sl) takes x. -/
def csumStep (acc : Num × Num) (x : Num) : Num × Num :=
  let r := twoSum acc.1 x
  (r.1, wAdd acc.2 r.2)

/-- csum over a list (R147), from (+0, +0). -/
def csum (xs : List Num) : Num × Num := xs.foldl csumStep ({}, {})

/-- Two pair accumulators combined (R147). -/
def csumJoin (a b : Num × Num) : Num × Num :=
  let r := twoSum a.1 b.1
  (r.1, wAdd (wAdd a.2 b.2) r.2)

/-- The accumulated value sh + sl; NaN and infinities of sh stand alone (R109: any NaN gives NaN, +∞ with −∞ gives
NaN, and an infinity's lost sl is not added). -/
def csumVal (a : Num × Num) : Num := if a.1.fin && a.2.fin then nAdd a.1 a.2 else a.1

end Sys2Proof.Machine
end

