-- ==== Sys2Proof/Machine/Records.lean ====
section
/-! DEFINITION. Last records (chapter 07): their fields (Tables 07.3, 07.4), their validation (Table 07.7, R159, R160),
the rules that need a descriptor's records (order 6 of Table 03.9: R95, R96, R98, R174, R178, R223 and the shape rules of
chapter 05), the timed-queue rules of order 7 (R72, R73), the opcode table (Table 05.2) and MODIFIER (R97). -/

namespace Sys2Proof.Machine

/-! ### Fields of a record -/

/-- Word `i` of a record. -/
def rw (r : LastRec) (i : Nat) : Nat := r.getD i 0

def rType (r : LastRec) : Nat := bits (rw r 0) 8 4
def rRank (r : LastRec) : Nat := bits (rw r 0) 11 9
/-- 0 HBM, 1 CBUF, 2 CBL. -/
def rSpace (r : LastRec) : Nat := bits (rw r 0) 13 12
def rC32 (r : LastRec) : Bool := bits (rw r 0) 15 14 == 1
/-- OOB is FAULT. -/
def rFault (r : LastRec) : Bool := bit (rw r 0) 16
def rOwn (r : LastRec) : Bool := bit (rw r 0) 17
def rCh (r : LastRec) : Nat := bits (rw r 0) 20 18
def rWin (r : LastRec) : Nat := bits (rw r 0) 22 21
def rGen (r : LastRec) : Nat := bits (rw r 0) 39 24
def rOwnBase (r : LastRec) : Nat := bits (rw r 0) 55 40
def rBase (r : LastRec) : Nat := bits (rw r 1) 39 0
def rScaleOff (r : LastRec) : Nat := bits (rw r 1) 63 40
def rSize (r : LastRec) (k : Nat) : Nat := let w := rw r (2 + k / 2); if k % 2 = 0 then bits w 23 0 else bits w 47 24
def rBlk (r : LastRec) (k : Nat) : Nat := let w := rw r (2 + k / 2); if k % 2 = 0 then bits w 51 48 else bits w 55 52
def rStride (r : LastRec) (k : Nat) : Nat := let w := rw r (5 + k / 2); if k % 2 = 0 then bits w 31 0 else bits w 63 32

/-- LOCAL of a CBUF base, the VC it names, and the byte offset in the space (Table 07.5). -/
def rLocal (r : LastRec) : Bool := rSpace r == 1 && bit (rBase r) 27
def rVc (r : LastRec) : Nat := bits (rBase r) 26 21
def rCob (r : LastRec) : Nat := bits (rBase r) 19 16
def rOffset (r : LastRec) : Nat :=
  if rSpace r = 0 then rBase r else if rSpace r = 1 then bits (rBase r) 20 0 else bits (rBase r) 15 0

/-- The dimension numbers of a record. -/
def rDims (r : LastRec) : List Nat := List.range (rRank r)

/-- The logical sizes. -/
def rSizes (r : LastRec) : List Nat := (rDims r).map (rSize r)

/-- The number of elements of a shape. -/
def countOf (sizes : List Nat) : Nat := sizes.foldl (· * ·) 1

/-- The extent of dimension `k` within one block; the whole size of a record that is not distributed (§07.3). -/
def blkSize (r : LastRec) (k : Nat) : Nat := if rOwn r then min (rSize r k) (2 ^ rBlk r k) else rSize r k

/-- Blocks along dimension `k` (R163). -/
def blkCount (r : LastRec) (k : Nat) : Nat := (rSize r k + 2 ^ rBlk r k - 1) / 2 ^ rBlk r k

/-- The physical dimensions: size and stride (§07.3). -/
def physDims (r : LastRec) : List (Nat × Nat) :=
  if rC32 r then
    [(32, 1), ((blkSize r (rCh r) + 31) / 32, rStride r (rCh r))] ++
    ((rDims r).filter fun k => k != rCh r).map fun k => (blkSize r k, rStride r k)
  else (rDims r).map fun k => (blkSize r k, rStride r k)

/-- The highest element offset over the physical dimensions. -/
def hiOffset (r : LastRec) : Nat := ((physDims r).map fun x => (x.1 - 1) * x.2).sum

/-- Bytes the elements span, and bytes of the scale plane. -/
def spanBytes (r : LastRec) : Nat :=
  if isMX (rType r) then (hiOffset r / 32 + 1) * blockBytes (rType r) else ((hiOffset r + 1) * typeBits (rType r) + 7) / 8
def scaleBytes (r : LastRec) : Nat := if isMX (rType r) then hiOffset r / 32 + 1 else 0

/-! ### Validation -/

/-- A list put in ascending order of stride. -/
def insertStride (x : Nat × Nat) : List (Nat × Nat) → List (Nat × Nat)
  | [] => [x]
  | y :: ys => if x.2 ≤ y.2 then x :: y :: ys else y :: insertStride x ys

/-- Consecutive dimensions do not overlap. -/
def apart : List (Nat × Nat) → Bool
  | a :: b :: xs => decide (a.2 * a.1 ≤ b.2) && apart (b :: xs)
  | _ => true

/-- Order 3 of Table 07.7. -/
def recForm (r : LastRec) : Bool :=
  let above := (List.range 6).filter fun k => decide (rRank r ≤ k)
  bits (rw r 0) 3 0 == 1 && typeOk (rType r) && decide (1 ≤ rRank r) && decide (rRank r ≤ 6) &&
  rSpace r != 3 && decide (bits (rw r 0) 15 14 ≤ 1) &&
  bits (rw r 0) 63 56 == 0 && !bit (rw r 0) 23 && ((List.range 3).all fun j => bits (rw r (2 + j)) 63 56 == 0) &&
  (above.all fun k => rSize r k == 0 && rStride r k == 0 && rBlk r k == 0) && ((rDims r).all fun k => rSize r k != 0) &&
  (if rC32 r then decide (rCh r < rRank r) && !isM (rType r) else rCh r == 0) &&
  (isMX (rType r) || rScaleOff r == 0) &&
  (if rOwn r then rSpace r == 0 && rBase r == 0 && rWin r == 0 && rGen r == 0
   else rOwnBase r == 0 && (rDims r).all fun k => rBlk r k == 0) &&
  (rSpace r == 0 || (rWin r == 0 && rGen r == 0)) &&
  (if rSpace r = 1 then bits (rBase r) 39 28 == 0 && (!rLocal r || rVc r == 0)
   else if rSpace r = 2 then bits (rBase r) 39 20 == 0 else true) &&
  apart (((physDims r).filter fun x => x.2 != 0 && decide (1 < x.1)).foldr insertStride [])

/-- Order 5 of Table 07.7. -/
def recAligned (r : LastRec) : Bool :=
  let w := if rSpace r = 0 then 64 else 16
  let t := rType r
  rOffset r % w == 0 &&
  (if isMX t then
     ((rDims r).all fun k => if k = 0 ∧ rC32 r = false then rStride r 0 == 1 else rStride r k % 32 == 0) &&
     (rC32 r || rSize r 0 % 32 == 0)
   else
     (rC32 r || decide (rStride r 0 ≤ 1)) &&
     ((rDims r).all fun k => (k == 0 && !rC32 r) || rStride r k * typeBits t % (8 * w) == 0) &&
     (!rC32 r || (rDims r).all fun k => rStride r k % 32 == 0)) &&
  (!(rOwn r && isMX t) || decide (5 ≤ rBlk r (if rC32 r then rCh r else 0)))

/-- Two byte ranges are disjoint. -/
def disjoint (a n b m : Nat) : Bool := decide (a + n ≤ b) || decide (b + m ≤ a)

/-- Elements from `base`, and for MX types the scale plane, lie in [lo, hi) and are disjoint (order 6). -/
def footIn (r : LastRec) (base lo hi : Nat) : Bool :=
  decide (lo ≤ base) && decide (base + spanBytes r ≤ hi) &&
  (!isMX (rType r) || (decide (base + 64 * rScaleOff r + scaleBytes r ≤ hi) &&
    disjoint base (spanBytes r) (base + 64 * rScaleOff r) (scaleBytes r)))

/-- Order 6 of Table 07.7. -/
def recBounds (s : State) (t : Nat) (r : LastRec) : Bool :=
  if rOwn r then decide (rOwnBase r + countOf ((rDims r).map (blkCount r)) ≤ 16384)
  else match rSpace r with
    | 0 => footIn r (rBase r) (s.winT t (rWin r)) (s.winT t (rWin r) + s.winN t (rWin r))
    | 1 => footIn r (rOffset r) 0 (2 ^ 21) && (rLocal r || bit (s.cmask t) (rVc r))
    | _ => footIn r (rOffset r) 0 (2 ^ 16) && holdsCbl s t (rCob r)

/-- The first check of Table 07.7 a record fails, by its fault code (order 1 is checked before the record is read). -/
def recCheck (s : State) (t : Nat) (poison : Bool) (r : LastRec) : Option Nat :=
  if poison then some 0x11
  else if !recForm r then some 0x12
  else if rSpace r = 0 ∧ rOwn r = false ∧ !(s.winOn t (rWin r) && (s.win (4 * t + rWin r)).gen == rGen r) then some 0x13
  else if !recAligned r then some 0x14
  else if !recBounds s t r then some 0x15
  else none

/-- The eight words of a 64-byte record. -/
def recWords (bs : List Byte) : LastRec := (List.range 8).map (word64At bs)

/-- A record written through has no repeated element (R160). -/
def dstOk (r : LastRec) : Bool := (rDims r).all fun k => rStride r k != 0 || rSize r k == 1

/-! ### The opcode table -/

/-- The timing classes of Table 05.2. -/
inductive Cls where
  | control | scalar | alu | div | pair | sfu | red | redsfu | row | awl | event
  deriving DecidableEq, Repr

/-- A row of Table 05.2: the sources that must and those that may be present (sets), whether the destination is
present, the class, fixed latency, and whether it delivers to SR_OUT. -/
structure OpRow where
  must  : Nat
  may   : Nat := 0
  dst   : Bool := true
  cls   : Cls
  fixed : Bool := true
  sr    : Bool := false
  deriving DecidableEq, Repr

/-- Table 05.2 (R93, R94). -/
def opRow (op : Nat) : Option OpRow :=
  let alu (m : Nat) : Option OpRow := some { must := m, cls := .alu }
  match op with
  | 0x01 => some { must := 0, dst := false, cls := .control }
  | 0x02 => some { must := 0, dst := false, cls := .control }
  | 0x03 => some { must := 0, dst := false, cls := .control, fixed := false }
  | 0x04 => some { must := 0, dst := false, cls := .control }
  | 0x05 => some { must := 0, dst := false, cls := .control }
  | 0x06 => some { must := 0, dst := false, cls := .control, fixed := false }
  | 0x08 => some { must := 1, dst := false, cls := .scalar, sr := true }
  | 0x09 => some { must := 0, cls := .scalar }
  | 0x10 => alu 3 | 0x11 => alu 3 | 0x12 => alu 3
  | 0x13 => some { must := 3, cls := .div }
  | 0x14 => alu 3 | 0x15 => alu 3 | 0x16 => alu 7 | 0x17 => alu 3 | 0x18 => alu 3 | 0x19 => alu 3 | 0x1A => alu 3
  | 0x1B => alu 3
  | 0x1C => some { must := 3, cls := .pair }
  | 0x1D => some { must := 3, cls := .pair }
  | 0x1E => alu 7 | 0x1F => alu 1 | 0x20 => alu 1 | 0x21 => alu 1 | 0x22 => alu 1 | 0x23 => alu 1 | 0x24 => alu 1
  | 0x25 => alu 1 | 0x26 => alu 1 | 0x27 => alu 1 | 0x28 => alu 1
  | 0x36 => some { must := 1, cls := .div }
  | 0x40 => alu 3
  | 0x56 => some { must := 1, cls := .redsfu, sr := true }
  | 0x60 => some { must := 1, cls := .row }
  | 0x61 => some { must := 1, cls := .row }
  | 0x62 => some { must := 3, cls := .row, sr := true }
  | 0x68 => some { must := 1, cls := .row }
  | 0x70 => some { must := 1, may := 14, cls := .row }
  | 0x71 => some { must := 1, may := 10, cls := .row }
  | 0x72 => some { must := 1, may := 10, cls := .row }
  | 0x73 => some { must := 1, may := 6, cls := .row }
  | 0x80 => alu 1
  | 0x81 => some { must := 1, cls := .alu, sr := true }
  | 0x82 => some { must := 3, may := 4, cls := .alu }
  | 0x88 => alu 0 | 0x89 => alu 0 | 0x90 => alu 1 | 0x91 => alu 1
  | 0x92 => some { must := 3, cls := .awl, fixed := false }
  | 0x93 => some { must := 3, cls := .awl, fixed := false }
  | 0xA0 => some { must := 1, dst := false, cls := .event, fixed := false, sr := true }
  | 0xA1 => some { must := 0, cls := .event, fixed := false }
  | _ =>
    if 0x30 ≤ op ∧ op ≤ 0x3E then some { must := 1, cls := .sfu }
    else if 0x50 ≤ op ∧ op ≤ 0x58 then some { must := 1, cls := .red, sr := true }
    else none

/-- The opcodes whose MODIFIER holds SCALAR and SCALAR_INT (Table 05.3). -/
def hasScalar (op : Nat) : Bool := [0x10, 0x11, 0x12, 0x13, 0x14, 0x15, 0x17, 0x18, 0x19, 0x1A, 0x1B, 0x40].contains op

/-- P0 supplies the value of source 1. -/
def isScalar (w : List Nat) : Bool := hasScalar (dOpcode w) && bit (dMod w) 0

/-- The MODIFIER bits [6:0] listed for an opcode (Table 05.3). -/
def modMask (op : Nat) : Nat :=
  if op = 0x13 then 7 else if op = 0x40 then 0x73 else if hasScalar op then 3
  else if 0x50 ≤ op ∧ op ≤ 0x58 then 7
  else match op with
    | 0x39 => 1 | 0x60 => 1 | 0x61 => 1 | 0x68 => 3 | 0x70 => 3 | 0x71 => 3 | 0x72 => 3 | 0x73 => 0xF | 0x82 => 7
    | 0x81 => 1 | 0x89 => 0xF | 0x92 => 7 | 0x93 => 0x77 | 0x09 => 1 | _ => 0

/-- MODIFIER holds no bit but OVF and the opcode's, and no reserved value of a listed field (R97, Table 05.3). -/
def modOk (w : List Nat) : Bool :=
  let op := dOpcode w
  let m := dMod w % 128
  m - (m &&& modMask op) == 0 &&
  (op != 0x40 || decide (bits m 6 4 ≤ 5)) && (op != 0x93 || decide (bits m 6 4 ≤ 4)) &&
  (!(decide (0x50 ≤ op) && decide (op ≤ 0x58)) || (decide (1 ≤ m) && decide (m ≤ 6))) &&
  (op != 0x89 || !bit m 3 || bits m 2 0 == 0)

/-- LNORM, RMSNORM or SOFTMAX with RAGGED at 1. -/
def isRagged (w : List Nat) : Bool := [0x70, 0x71, 0x72].contains (dOpcode w) && bit (dMod w) 1

/-- AFFINE of a normalisation, MASKED of SOFTMAX. -/
def isAffine (w : List Nat) : Bool := if dOpcode w = 0x73 then bit (dMod w) 3 else bit (dMod w) 0

/-- The operands present are those of Table 05.2, the optional ones as AFFINE, MASKED, RAGGED and SCALAR say (R94, R97). -/
def presenceOk (w : List Nat) (row : OpRow) : Bool :=
  let op := dOpcode w
  let have_ := bits (dw w 1) 63 60
  let must := if isScalar w then row.must - 2 else row.must
  dHas w 4 == row.dst &&
  (have_ &&& must) == must && have_ - (have_ &&& (must ||| row.may)) == 0 &&
  (if op = 0x70 ∨ op = 0x73 then bit have_ 1 == isAffine w && bit have_ 2 == isAffine w
   else if op = 0x71 ∨ op = 0x72 then bit have_ 1 == isAffine w else true) &&
  (if op = 0x70 ∨ op = 0x71 ∨ op = 0x72 then bit have_ 3 == isRagged w else true) &&
  ((dSrOut w).isNone || row.sr)

/-- Order 3 of Table 03.9 for a descriptor of tenant `t`. -/
def fieldsOk (s : State) (t : Nat) (w : List Nat) : Bool :=
  let op := dOpcode w
  bits (dw w 0) 63 56 == 1 && !tagReserved (tagOf w) && rsvdOk w &&
  (match opRow op with
   | none => false
   | some row =>
     (if row.cls = .control then ctlBare w && (dSrOut w).isNone && ctlOk s t op (dParams w) (dPsrEn w)
      else presenceOk w row && modOk w)) &&
  (List.range 6).all fun i => regionOk s t (dRegion w i)

/-! ### Types and shapes -/

/-- The groups of Table 05.4. -/
inductive Grp where
  | n | f | i | m | p | pf | np | x | any | i32 | i32f | mx
  deriving DecidableEq, Repr

/-- A type lies in a group (R98). -/
def inGrp : Grp → Nat → Bool
  | .n, t => isN t
  | .f, t => isF t
  | .i, t => isI t
  | .m, t => isM t
  | .p, t => isP t
  | .pf, t => isP t || isF t
  | .np, t => isN t || isP t
  | .x, t => !isM t
  | .any, _ => true
  | .i32, t => t == 0x0E
  | .i32f, t => t == 0x0E || t == 0x00
  | .mx, t => isMX t

/-- Table 05.4 by opcode: the groups of the sources and of the destination; `none` asks the type of source 0. -/
def opGroups (w : List Nat) : List Grp × Option Grp :=
  let op := dOpcode w
  if (0x10 ≤ op ∧ op ≤ 0x16) ∨ op = 0x1F ∨ (op = 0x20 ∨ op = 0x21) ∨ (0x23 ≤ op ∧ op ≤ 0x28) then ([.n, .n, .n], some .n)
  else if 0x30 ≤ op ∧ op ≤ 0x3E then ([.n], some .f)
  else match op with
    | 0x1A => ([.i, .i], none) | 0x1B => ([.i, .i], none)
    | 0x1C => ([.pf, .pf], some .p) | 0x1D => ([.f, .f], some .p)
    | 0x40 => ([.n, .n], some .m)
    | 0x51 => ([.np], some .pf)
    | 0x54 => ([.n], some .i32) | 0x55 => ([.n], some .i32)
    | 0x58 => ([.m], some .i)
    | 0x50 => ([.n], some .n) | 0x52 => ([.n], some .n) | 0x53 => ([.n], some .n) | 0x56 => ([.n], some .n)
    | 0x57 => ([.n], some .n) | 0x60 => ([.n], some .n) | 0x61 => ([.n], some .n)
    | 0x62 => ([.x, .m], none)
    | 0x68 => ([.n], some (if bit (dMod w) 1 then .i32 else .n))
    | 0x70 => ([.n, .f, .f, .i32], some .n) | 0x71 => ([.n, .f, .f, .i32], some .n) | 0x73 => ([.n, .f, .f], some .n)
    | 0x72 => ([.n, .m, .m, .i32], some .n)
    | 0x80 => ([.x], some .x) | 0x81 => ([.n], some .mx) | 0x82 => ([.i32f, .f, .f], some .n)
    | 0x88 => ([], some .any) | 0x89 => ([], some .n) | 0x90 => ([.any], none) | 0x91 => ([.any], none)
    | 0x92 => ([.x, .i32], none)
    | 0x93 => if bits (dMod w) 6 4 = 4 then ([.np, .i32], some .p) else ([.n, .i32], none)
    | 0x08 => ([.n], some .n) | 0x09 => ([.n], some .n) | 0xA0 => ([.n], some .n) | 0xA1 => ([], some .i32f)
    | _ => ([.any, .any, .any], some .any)

/-- The record of operand `o`, empty when absent. -/
def recOf (recs : List (Option LastRec)) (o : Nat) : LastRec := ((recs.getD o none)).getD []

/-- The type of operand `o`. -/
def tyOf (recs : List (Option LastRec)) (o : Nat) : Nat := rType (recOf recs o)

/-- Operand types lie in their groups (R98); FINISH asks FP32 of its scale and bias. -/
def typesOk (w : List Nat) (recs : List (Option LastRec)) : Bool :=
  let op := dOpcode w
  let t := tyOf recs
  let g := opGroups w
  if op = 0x17 ∨ op = 0x18 ∨ op = 0x19 ∨ op = 0x22 then
    (isI (t 0) || isM (t 0)) && t 4 == t 0 && (!dHas w 1 || t 1 == t 0)
  else if op = 0x1E then
    isM (t 0) && ((isN (t 1) && isN (t 2) && isN (t 4)) || (isP (t 1) && isP (t 2) && isP (t 4)))
  else if op = 0x82 then
    (t 0 == 0x0E || t 0 == 0) && t 1 == 0 && (!dHas w 2 || t 2 == 0) && isN (t 4)
  else
    ((List.range 4).all fun o => !dHas w o || inGrp (g.1.getD o .any) (t o)) &&
    (!dHas w 4 || (match g.2 with | some gr => inGrp gr (t 4) | none => t 4 == t 0))

/-- The sizes an operand shows: a transposed source is seen with its two innermost dimensions swapped (§08.5). -/
def viewSizes (w : List Nat) (recs : List (Option LastRec)) (o : Nat) : List Nat :=
  match rSizes (recOf recs o) with
  | a :: b :: xs => if o < 4 ∧ bit (dTrans w) o then b :: a :: xs else a :: b :: xs
  | xs => xs

/-- A parameter source holds one value per position along dimension `keep`: stride 0 on every other dimension of size
above 1 (R112, R118). -/
def perChannel (r : LastRec) (keep : Nat) : Bool :=
  (rDims r).all fun k => k == keep || rSize r k == 1 || rStride r k == 0

/-- The source dimension that becomes destination dimension `t` of a PERMUTE. -/
def permField (p0 t : Nat) : Nat := bits p0 (3 * t + 2) (3 * t)

/-- The fields of PERMUTE form a permutation of the rank, unused fields 0 (R96, R119). -/
def permOk (p0 rank : Nat) : Bool :=
  ((List.range rank).all fun k => (List.range rank).any fun t => permField p0 t == k) &&
  ((List.range rank).all fun t => decide (permField p0 t < rank)) &&
  (List.range 6).all fun t => decide (t < rank) || permField p0 t == 0

/-- P1 of GNORM fits the source's sizes (R96, R113). -/
def gnormOk (p1 cdim : Nat) (sizes : List Nat) : Bool :=
  let g := bits p1 15 0
  let span := bits p1 21 16
  g != 0 && sizes.getD cdim 0 % g == 0 && !bit span cdim && span / 2 ^ sizes.length == 0 && p1 / 2 ^ 22 == 0 &&
  decide (g * countOf ((List.range sizes.length).map fun k => if bit span k then sizes.getD k 1 else 1) ≤ 16384)

/-- The shape rules of an opcode (R95, R96 and §05.6 to §05.10). A shape parameter that PSR_EN takes from a scalar
register is left out while `skip` holds its P word: it is checked at issue (R96). -/
def shapesOk (w : List Nat) (recs : List (Option LastRec)) (ps : List Nat) (skip : Nat) : Bool :=
  let op := dOpcode w
  let m := dMod w
  let z := viewSizes w recs
  let d := z 4
  let a := z 0
  let srcs := (List.range 4).filter fun o => dHas w o
  let p0 := ps.getD 0 0
  let p1 := ps.getD 1 0
  match opRow op with
  | none => false
  | some row =>
    match row.cls with
    | .control => true
    | .scalar => true
    | .red => decide (m % 8 ≤ a.length) && d == List.replicate (m % 8) 1 ++ a.drop (m % 8)
    | .redsfu => decide (m % 8 ≤ a.length) && d == List.replicate (m % 8) 1 ++ a.drop (m % 8)
    | .awl =>
      let ax := m % 8
      let r := if op = 0x92 then d else a
      let o := if op = 0x92 then a else d
      decide (ax < r.length) && z 1 == r && o.length == r.length &&
      ((List.range r.length).all fun k => k == ax || o.getD k 0 == r.getD k 0) &&
      (op != 0x93 || bits m 6 4 == 0 || decide (countOf a ≤ 65536))
    | .event =>
      if op = 0xA0 then
        let r := recOf recs 0
        a.length == 1 && decide (countOf a ≤ 1024) && rSpace r == 1 && !rLocal r
      else d.length == 1
    | .row =>
      (op == 0x73 || decide (a.headD 0 ≤ 16384)) &&
      (match op with
       | 0x68 => d.drop 1 == a.drop 1 && d.length == a.length &&
           (bit skip 0 || (decide (1 ≤ bits p0 15 0) && decide (bits p0 15 0 ≤ 64) && d.headD 0 == bits p0 15 0))
       | 0x62 => d == a && z 1 == a
       | 0x60 => d == a
       | 0x61 => d == a
       | 0x73 =>
         let c := m % 8
         d == a && decide (c < a.length) && (bit skip 1 || gnormOk p1 c a) &&
         ([1, 2].all fun o => !dHas w o || (z o == d && perChannel (recOf recs o) c))
       | 0x72 => d == a && (!dHas w 1 || z 1 == d) && (!dHas w 3 || z 3 == 1 :: a.drop 1)
       | _ => d == a && ([1, 2].all fun o => !dHas w o || (z o == d && perChannel (recOf recs o) 0)) &&
           (!dHas w 3 || z 3 == 1 :: a.drop 1))
    | _ =>
      if op = 0x91 then
        bit skip 0 || (permOk p0 a.length && d == (List.range a.length).map fun t => a.getD (permField p0 t) 0)
      else if op = 0x89 then bit m 3 || decide (m % 8 < d.length)
      else
        (srcs.all fun o => z o == d) &&
        (op != 0x82 || (decide (m % 8 < d.length) && [1, 2].all fun o => !dHas w o || perChannel (recOf recs o) (m % 8)))

/-- The transposition rules (R178): every source whose TRANS bit is set. -/
def transOk (w : List Nat) (recs : List (Option LastRec)) : Bool :=
  (List.range 4).all fun o =>
    !bit (dTrans w) o || (dHas w o &&
      let r := recOf recs o
      let q := rStride r 1 * (typeBits (rType r) / 8) / 16
      !rC32 r && decide (2 ≤ rRank r) && rStride r 0 == 1 && !rOwn r &&
      (decide (rType r ≤ 6) || (decide (0x0A ≤ rType r) && decide (rType r ≤ 0x0E))) &&
      (if dTpath w then rSpace r == 1 && q % 32 == 1
       else rSpace r == 0 || (rSpace r == 1 && q % 2 == 1)))

/-- VC `v` is event-enabled for tenant `t` (R205). -/
def evEnabled (s : State) (t v : Nat) : Bool :=
  (s.vc v).evValid && decide (s.tfB 8 (64 * v + 63) 0 29 25 = t)

/-- NNEUR of VC `v`. -/
def nneur (s : State) (v : Nat) : Nat := s.tfB 8 (64 * v + 63) 0 10 0

/-- The event operands (R223): the VC an EV_EMIT or EV_COUNT names is event-enabled, and its neurons fit; `skip` holds
the P words known only at issue. -/
def eventOk (s : State) (t : Nat) (w : List Nat) (recs : List (Option LastRec)) (ps : List Nat) (skip : Nat) : Option Nat :=
  let emit := dOpcode w == 0xA0
  if !emit && dOpcode w != 0xA1 then none
  else if !emit && bit skip 0 then none
  else
    let v := if emit then rVc (recOf recs 0) else bits (ps.getD 0 0) 5 0
    let n := rSize (recOf recs (if emit then 0 else 4)) 0
    if !evEnabled s t v then some 0x40
    else if !bit skip 1 && decide (nneur s v < bits (ps.getD 1 0) 9 0 + n) then some 0x03
    else none

/-- Order 6 of Table 03.9: the fault code of the first check that fails. -/
def order6 (s : State) (t : Nat) (w : List Nat) (recs : List (Option LastRec)) : Option Nat :=
  if !typesOk w recs || !shapesOk w recs (dParams w) (dPsrEn w) || !transOk w recs then some 0x03
  else eventOk s t w recs (dParams w) (dPsrEn w)

/-- The descriptor's opcode is fixed-latency, or one of the control opcodes a timed queue takes (R72, R93, R115). -/
def timedOp (w : List Nat) : Bool :=
  match opRow (dOpcode w) with
  | none => false
  | some row => row.fixed && !isRagged w

/-- Order 7 of Table 03.9: why the descriptor is refused (Table 19.4), if it is (R72, R73). -/
def order7 (s : State) (q : Nat) (w : List Nat) (recs : List (Option LastRec)) : Option Nat :=
  let rs := (List.range 5).filterMap fun o => recs.getD o none
  if s.qTimed q then
    let g := (s.q q).granted.getD 0
    if timedOp w && rs.all (fun r => !rOwn r && (rSpace r == 2 || (rSpace r == 1 && (rLocal r || bit g (rVc r)))))
    then none else some 1
  else
    let g := grantedAll s
    let decl := (List.range 6).any fun i =>
      let r := dRegion w i
      bits r 63 61 == 2 && !bit r 27 && bit g (bits r 26 21)
    if decl || rs.any (fun r => rSpace r == 1 && !rLocal r && bit g (rVc r)) then some 2 else none

end Sys2Proof.Machine
end

