-- ==== Sys2Proof/Machine/Sfu.lean ====
section
/-! DEFINITION. The SFU functions of Table 05.6 outside its edges: the exact function in fixed point with 640 fraction
bits, its error far below the bounds of R105, and the FP32 results that lie within a bound of it. -/

namespace Sys2Proof.Machine

/-- Fraction bits of the fixed-point values of this file. -/
def fxBits : Nat := 640

/-- 1. -/
def fxOne : Nat := 2 ^ fxBits

/-- A finite value, toward −∞. -/
def fxOf (x : Num) : Int := x.sgn * fxOne / x.den

/-- Σ z^(2i+1) / (2i+1) for |z| < 1: artanh z. -/
def fxArtanh (z : Int) : Int :=
  ((List.range 210).foldl (fun (acc : Int × Int) i => (acc.1 + acc.2 / (2 * i + 1 : Nat), acc.2 * z / fxOne * z / fxOne)) (0, z)).1

/-- ln 2 = 2 artanh (1/3). -/
def fxLn2 : Int := 2 * fxArtanh (fxOne / 3)

/-- arctan (1/n) with 1,024 fraction bits. -/
def fxArctanInv (n : Nat) : Int :=
  ((List.range 225).foldl (fun (acc : Int × Nat) i =>
    (acc.1 + (if i % 2 = 0 then 1 else -1) * ((acc.2 / (2 * i + 1) : Nat) : Int), acc.2 / (n * n))) (0, 2 ^ 1024 / n)).1

/-- π with 1,024 fraction bits: 16 arctan (1/5) − 4 arctan (1/239). -/
def fxPi : Nat := (16 * fxArctanInv 5 - 4 * fxArctanInv 239).toNat

/-- √(2/π). -/
def fxSqrt2OverPi : Nat := isqrt 1024 (2 ^ 2305 / fxPi)

/-- e^r for r from 0 to 1. -/
def fxExpUnit (r : Nat) : Nat :=
  ((List.range 140).foldl (fun (acc : Nat × Nat) i => (acc.1 + acc.2, acc.2 * r / fxOne / (i + 1))) (0, fxOne)).1

/-- e^x. -/
def fxExp (x : Int) : Nat :=
  let k := x / fxLn2
  let e := fxExpUnit (x - k * fxLn2).toNat
  if 0 ≤ k then e * 2 ^ k.toNat else e / 2 ^ (-k).toNat

/-- ln (n / d) for positive n and d. -/
def fxLn (n d : Nat) : Int :=
  let e := log2Rat n d
  let m := if 0 ≤ e then n * fxOne / (d * 2 ^ e.toNat) else n * 2 ^ (-e).toNat * fxOne / d
  e * fxLn2 + 2 * fxArtanh (((m : Int) - fxOne) * fxOne / (m + fxOne : Nat))

/-- 1 / (1 + e^−t). -/
def fxSigmoid (t : Int) : Nat :=
  if t < -(1000 * fxOne : Nat) then 0
  else if ((1000 * fxOne : Nat) : Int) < t then fxOne
  else
    let e := fxExp (-(t.natAbs : Int))
    if 0 ≤ t then fxOne * fxOne / (fxOne + e) else e * fxOne / (fxOne + e)

/-- erf z for z from 0 to 12: 2/√π · e^(−z²) · Σ 2^n z^(2n+1) / (2n+1)!!. -/
def fxErfPos (z : Nat) : Nat :=
  let q := z * z / fxOne
  let sum := ((List.range 900).foldl (fun (acc : Nat × Nat) i => (acc.1 + acc.2, acc.2 * (2 * q) / fxOne / (2 * i + 3))) (0, z)).1
  2 * fxOne * fxOne / isqrt 1100 (fxPi * 2 ^ 256) * (fxExp (-(q : Int))) / fxOne * sum / fxOne

/-- erf z. -/
def fxErf (z : Int) : Int :=
  let e := if z.natAbs < 12 * fxOne then fxErfPos z.natAbs else fxOne
  if z < 0 then -(e : Int) else e

/-- sin r or cos r for r from 0 to π/2, from the first term and the place of its power. -/
def fxSeries (r first k : Nat) : Int :=
  ((List.range 80).foldl (fun (acc : Int × Nat) i =>
    (acc.1 + (if i % 2 = 0 then 1 else -1) * (acc.2 : Int), acc.2 * r / fxOne * r / fxOne / ((2 * i + k) * (2 * i + k + 1))))
    (0, first)).1

/-- The sine of x + quarter · π/2 for x ≥ 0, over the full range. -/
def fxSin (x : Num) (quarter : Nat) : Int :=
  let t := x.num * 2 ^ 1024 / x.den
  let k := 2 * t / fxPi
  let r := (t - k * fxPi / 2) / 2 ^ (1024 - fxBits)
  match (k + quarter) % 4 with
  | 0 => fxSeries r r 2
  | 1 => fxSeries r fxOne 1
  | 2 => -fxSeries r r 2
  | _ => -fxSeries r fxOne 1

/-- x as a factor of a fixed-point value. -/
def fxTimes (x : Num) (v : Nat) : Int := x.sgn * v / x.den

/-- The exact SFU function of Table 05.6 at a finite value off its edges; `form` is FORM of GELU. -/
def sfuExact (op form : Nat) (x : Num) : Int :=
  let big := nLt (nInt 16) (nAbs x)
  match op with
  | 0x30 => fxExp (fxOf x)
  | 0x31 => fxExp (fxOf x * fxLn2 / fxOne)
  | 0x32 => fxLn x.num x.den
  | 0x33 => fxLn x.num x.den * fxOne / fxLn2
  | 0x34 => (if x.neg then -1 else 1) * ((x.den * fxOne / x.num : Nat) : Int)
  | 0x35 => let n := x.den * fxOne * fxOne / x.num; isqrt (Nat.log2 n / 2 + 1) n
  | 0x37 =>
    let t : Int := if nLt (nInt 500) (nAbs x) then (1000 * fxOne : Nat) else 2 * fxOf (nAbs x)
    let e := fxExp (-t)
    (if x.neg then -1 else 1) * ((((fxOne : Int) - e) * fxOne) / (fxOne + e : Nat))
  | 0x38 => fxSigmoid (fxOf x)
  | 0x39 =>
    if big then (if x.neg then 0 else fxOf x)
    else if form = 0 then
      fxTimes x ((fxOne + fxErf (fxOf x * fxOne / isqrt 1024 (2 * fxOne * fxOne))).toNat) / 2
    else
      let y := fxOf x
      let cube := y * y / fxOne * y / fxOne
      fxTimes x (fxSigmoid (2 * (y + cube * 44715 / 1000000) * fxSqrt2OverPi / fxOne))
  | 0x3A => if nLt x (nInt (-500)) then 0 else fxTimes x (fxSigmoid (fxOf x))
  | 0x3B => fxErf (fxOf x)
  | 0x3C => (if x.neg then -1 else 1) * fxSin x 0
  | 0x3D => fxSin x 1
  | _ =>
    if nLt (nInt 500) x then fxOf x
    else if nLt x (nInt (-500)) then 0
    else fxLn (fxOne + fxExp (fxOf x)) fxOne

/-- The bound of Table 05.6 in ulps. -/
def sfuBound (op : Nat) : Nat :=
  match op with
  | 0x37 => 2
  | 0x38 => 2
  | 0x39 => 3
  | 0x3A => 3
  | 0x3B => 2
  | 0x3C => 2
  | 0x3D => 2
  | 0x3E => 3
  | _ => 1

/-- The FP32 pattern `r` lies within `b` ulps of its own of the exact value `a` (R105); subnormals count in the subnormal
spacing, an infinity as 2^128. The 2^−200 part of `a` allowed beside them covers the error of `a` itself. -/
def sfuWithin (b r : Nat) (a : Int) : Bool :=
  let e := bits r 30 23
  let f := bits r 22 0
  let m := (if e = 0 then f else 2 ^ 23 + f) * 2 ^ (max e 1 + 490)
  let v : Int := if bit r 31 then -(m : Int) else m
  !(e == 255 && f != 0) &&
  decide ((v - a).natAbs ≤ b * 2 ^ (min (max e 1) 254 + 490) + a.natAbs / 2 ^ 200 + 2 ^ 300)

/-- The FP32 pattern nearest the exact value. -/
def sfuNearest (a : Int) : Nat := fp32 { neg := decide (a < 0), num := a.natAbs, den := fxOne }

/-- A value that is to lie within `b` ulps of the FP32 rounding of the exact value `a` (R109, R112): the value itself
where it does, else that rounding. -/
def fxBound (b : Nat) (x : Num) (a : Int) : Num :=
  let r := sfuNearest a
  let e := max (bits r 30 23) 1
  let v := fxOf (ofFp32 r)
  if bits r 30 23 = 255 then (if x.inf && x.neg == decide (a < 0) then x else { ofFp32 r with poison := x.poison })
  else if x.fin && decide ((fxOf x - v).natAbs ≤ b * 2 ^ (e + 490)) then x else { ofFp32 r with poison := x.poison }

/-- √x to the precision of this file, of a fixed-point value. -/
def fxSqrt (x : Nat) : Nat := isqrt (Nat.log2 (x * fxOne) / 2 + 1) (x * fxOne)

end Sys2Proof.Machine
end

