-- ==== Sys2Proof/Machine/Arith.lean ====
section
/-! DEFINITION. What the operations compute from decoded values (chapter 05): the element-wise results of Table 05.5,
the SFU functions of Table 05.6, comparisons, the reductions of R108 and R109, scans, ranking and normalisations. -/

namespace Sys2Proof.Machine

/-! ### SFU functions -/

/-- One. -/
def nOne (neg : Bool) : Num := { neg := neg, num := 1 }

/-- The FP32 result of an SFU function at a finite value, given in lowest terms (R105): a free value within the bound of
Table 05.6 of the exact function. The pattern Config.sfu names is taken when it lies within the bound, else the nearest one
(log entry 20). -/
def sfuFree (op form : Nat) (x : Num) : Num :=
  let g := Nat.gcd x.num x.den
  let a := sfuExact op form x.bare
  let r := (Config.sfu op form x.neg (x.num / g) (x.den / g)).toNat
  ofFp32 (if sfuWithin (sfuBound op) r a then r else sfuNearest a)

/-- e^x or 2^x of a finite x: +∞ from 2^128 on, +0 below 2^−149, the least subnormal (Table 05.6). -/
def sfuExp (op : Nat) (x : Num) : Num :=
  if nLt (nInt 128) x then nInf false
  else if nLt x (nInt (-149)) then nZero false
  else if op = 0x31 then (if nEq x (nInt 128) then nInf false else nAbs (sfuFree op 0 x))
  else
    let a := sfuExact op 0 x.bare
    if a < (2 ^ (fxBits - 149) : Nat) then nZero false
    else if ((2 ^ (fxBits + 128) : Nat) : Int) ≤ a then nInf false
    else nAbs (sfuFree op 0 x)

/-- The SFU functions and SQRT with the edges of Table 05.6; `form` is FORM of GELU. -/
def sfu (op form : Nat) (x : Num) : Num :=
  if x.nan then nNaN
  else if op = 0x36 then nSqrt x
  else if x.inf then
    match op with
    | 0x30 => if x.neg then nZero false else nInf false
    | 0x31 => if x.neg then nZero false else nInf false
    | 0x32 => if x.neg then nNaN else nInf false
    | 0x33 => if x.neg then nNaN else nInf false
    | 0x34 => nZero x.neg
    | 0x35 => if x.neg then nNaN else nZero false
    | 0x37 => nOne x.neg
    | 0x38 => if x.neg then nZero false else nOne false
    | 0x39 => if x.neg then nZero true else nInf false
    | 0x3A => if x.neg then nZero true else nInf false
    | 0x3B => nOne x.neg
    | 0x3E => if x.neg then nZero false else nInf false
    | _ => nNaN
  else
    match op with
    | 0x30 => sfuExp op x
    | 0x31 => sfuExp op x
    | 0x32 => if x.num = 0 then nInf true else if x.neg then nNaN else sfuFree op form x
    | 0x33 => if x.num = 0 then nInf true else if x.neg then nNaN else sfuFree op form x
    | 0x34 => if x.num = 0 then nInf x.neg else sfuFree op form x
    | 0x35 => if x.num = 0 then nInf x.neg else if x.neg then nNaN else sfuFree op form x
    | _ => sfuFree op form x

/-! ### Element-wise results -/

/-- The relation REL of a CMP or comparator between two values: NE of a NaN operand is true, every other false (R106, R78). -/
def relHolds (rel : Nat) (x y : Num) : Bool :=
  if x.nan || y.nan then rel == 1
  else match rel with
    | 0 => nEq x y
    | 1 => !nEq x y
    | 2 => nLt x y
    | 3 => !nLt y x
    | 4 => nLt y x
    | _ => !nLt x y

/-- An integral value with the sign kept when it is zero. -/
def integral (x : Num) (k : Int) : Num := if k = 0 then nZero x.neg else nInt k

/-- FLOOR, CEIL and RINT of Table 05.5. -/
def roundTo (op : Nat) (x : Num) : Num :=
  if !x.fin || x.num = 0 then x
  else match op with
    | 0x25 => integral x (floorInt x)
    | 0x26 => integral x (-floorInt (nNeg x))
    | _ => integral x (rneInt x)

/-- A bitwise operation on stored bits of `w` bits. -/
def bitwise (op w a b : Nat) : Nat :=
  match op with
  | 0x17 => a &&& b
  | 0x18 => a ||| b
  | 0x19 => a ^^^ b
  | _ => 2 ^ w - 1 - a

/-- SHL and SHR of `w`-bit stored bits by an integer (Table 05.5); `arith` for the signed types. -/
def shift (op w : Nat) (arith : Bool) (a : Nat) (b : Int) : Nat :=
  if op = 0x1A then (if b < 0 ∨ (w : Int) ≤ b then 0 else a * 2 ^ b.toNat % 2 ^ w)
  else if b < 0 then a
  else if arith then ofSigned w (toSigned w a / (2 ^ (min b.toNat w) : Nat))
  else a / 2 ^ (min b.toNat w)

/-- The scalar operand: the value of P0 under SCALAR_INT (R103). -/
def scalarVal (p0 : Nat) (int : Bool) : Num := if int then nInt (toSigned 64 p0) else ofFp32 p0

/-- A value as an integer, if it is one. -/
def asInt (x : Num) : Option Int := if x.fin && x.num % x.den == 0 then some (truncInt x) else none

/-- The stored bits of type `t` of a scalar operand that is an element of the type. -/
def scalarElem (t : Nat) (x : Num) : Option Nat :=
  match asInt x with
  | none => none
  | some k =>
    if isM t then (if k = 0 then some 0 else if k = 1 then some 1 else none)
    else if (intRange t).1 ≤ k ∧ k ≤ (intRange t).2 then some (ofSigned (typeBits t) k) else none

/-- AND, OR and XOR with a scalar operand; where it is no element of the type the result bits are free (log entry 26). -/
def bitwiseScalar (op t a p0 : Nat) (x : Num) : Nat :=
  match scalarElem t x with
  | some b => bitwise op (typeBits t) a b
  | none => (Config.scalarBits t p0 a).toNat % 2 ^ typeBits t

/-- The bits of type `t` an SHL or SHR by a scalar operand gives; a fraction within the width has no stated result. -/
def shiftScalar (op t a p0 : Nat) (x : Num) : Nat :=
  let w := typeBits t
  match asInt x with
  | some b => shift op w (t != 0x0C) a b
  | none =>
    if x.nan then (Config.scalarBits t p0 a).toNat % 2 ^ w
    else if nLt x (nInt 0) then shift op w (t != 0x0C) a (-1)
    else if nLt x (nInt w) then (Config.scalarBits t p0 a).toNat % 2 ^ w
    else shift op w (t != 0x0C) a w

/-- P word `i` as FP32 in bits [31:0]. -/
def pf (ps : List Nat) (i : Nat) : Num := ofFp32 (ps.getD i 0)

/-- The value of an element-wise operation from the decoded values a, b and c (Tables 05.5, 05.6, R104, R148). -/
def elemOp (w ps : List Nat) (a b c : Num) : Num :=
  let op := dOpcode w
  match op with
  | 0x10 => nAdd a b
  | 0x11 => nSub a b
  | 0x12 => nMul a b
  | 0x13 => nDiv a b
  | 0x14 => nMax a b
  | 0x15 => nMin a b
  | 0x16 => nAdd (nMul a b) c
  | 0x1C => nAdd a b
  | 0x1D => nMul a b
  | 0x1F => nMin (nMax a (pf ps 0)) (pf ps 1)
  | 0x20 => nAbs a
  | 0x21 => nNeg a
  | 0x23 => nMax a (nZero false)
  | 0x24 => if a.nan then nNaN else if nLt a (nInt 0) then nMul a (pf ps 0) else a
  | 0x25 => roundTo op a
  | 0x26 => roundTo op a
  | 0x27 => roundTo op a
  | 0x28 => if a.nan || a.isZero then a else nOne a.neg
  | 0x40 => if relHolds (bits (dMod w) 6 4) a b then nInt 1 else nInt 0
  | 0x82 => nMin (nMax (nAdd (nMul a b) c) (pf ps 0)) (pf ps 1)
  | _ => if 0x30 ≤ op ∧ op ≤ 0x3E then sfu op (dMod w % 2) a else a

/-! ### Reductions -/

/-- What a reduction carries through its tree: RSUM, RSUMSQ, RMAX, RMIN and RCOUNT one value; RCSUM (sh, sl); RARGMAX
and RARGMIN the extreme and its index, nothing for the identity; RLSE (m, s), and Σe^(x−m) exactly, by which its result
keeps its bound. -/
abbrev RedAcc := List Num

/-- The element of a list of values, +0 past its end. -/
def nth (a : RedAcc) (i : Nat) : Num := a.getD i {}

/-- e^x in the SFU. -/
def wExp (x : Num) : Num := sfu 0x30 0 x

/-- The identity of a reduction (R109). -/
def redId (op : Nat) : RedAcc :=
  match op with
  | 0x51 => [{}, {}]
  | 0x52 => [nInf true]
  | 0x53 => [nInf false]
  | 0x54 => []
  | 0x55 => []
  | 0x56 => [nInf true, {}, {}]
  | _ => [{}]

/-- What one element enters, `i` its flat index in the set; a pair enters RCSUM as hi, then lo (R147). -/
def redLeaf (op : Nat) (i : Nat) (x lo : Num) : RedAcc :=
  match op with
  | 0x51 => if !x.fin then [x, {}] else let r := csumStep (csumStep ({}, {}) x) lo; [r.1, r.2]
  | 0x54 => [x, nInt i]
  | 0x55 => [x, nInt i]
  | 0x56 => if x.inf && x.neg then [nInf true, {}, {}] else [x, nInt 1, nInt 1]
  | 0x57 => [wMul x x]
  | _ => [x]

/-- The later of two extremes replaces the earlier: it lies beyond it, a NaN beyond every value (R109). -/
def argLater (op : Nat) (x y : Num) : Bool :=
  if x.nan then false else if y.nan then true else if op = 0x54 then nBelow x y else nBelow y x

/-- Σe^(x−m) brought from maximum `m` to the greater maximum `n` (640 fraction bits). -/
def lseExact (t m n : Num) : Num :=
  if nLt (nInt 1000) (nSub n m) then {} else { num := (fxTimes t (fxExp (fxOf (nSub m n)))).toNat, den := fxOne }

/-- RLSE: two running maxima and their sums brought to the greater maximum (R109). -/
def lseJoin (a b : RedAcc) : RedAcc :=
  let ma := nth a 0
  let mb := nth b 0
  if ma.inf && ma.neg then b
  else if mb.inf && mb.neg then a
  else if ma.nan || mb.nan then [nNaN, nInt 1, nInt 1]
  else if (ma.inf && !ma.neg) || (mb.inf && !mb.neg) then [nInf false, nInt 1, nInt 1]
  else if nLt ma mb then
    [mb, wAdd (wMul (nth a 1) (wExp (wSub ma mb))) (nth b 1), nAdd (lseExact (nth a 2) ma mb) (nth b 2)]
  else if nLt mb ma then
    [ma, wAdd (nth a 1) (wMul (nth b 1) (wExp (wSub mb ma))), nAdd (nth a 2) (lseExact (nth b 2) mb ma)]
  else [ma, wAdd (nth a 1) (nth b 1), nAdd (nth a 2) (nth b 2)]

/-- m + ln s, within 3 ulps of the exact m + ln Σe^(x−m) (R109). -/
def lseResult (a : RedAcc) : Num :=
  fxBound 3 (nAdd (nth a 0) (sfu 0x32 0 (nth a 1))) (fxOf (nth a 0) + fxLn (nth a 2).num (nth a 2).den)

/-- The combine step of a reduction (R109). -/
def redJoin (op : Nat) (a b : RedAcc) : RedAcc :=
  match op with
  | 0x51 => let r := csumJoin (nth a 0, nth a 1) (nth b 0, nth b 1); [r.1, r.2]
  | 0x52 => [nMax (nth a 0) (nth b 0)]
  | 0x53 => [nMin (nth a 0) (nth b 0)]
  | 0x54 => if a.isEmpty then b else if b.isEmpty then a else if argLater op (nth a 0) (nth b 0) then b else a
  | 0x55 => if a.isEmpty then b else if b.isEmpty then a else if argLater op (nth a 0) (nth b 0) then b else a
  | 0x56 => lseJoin a b
  | 0x58 => [nAdd (nth a 0) (nth b 0)]
  | _ => [wAdd (nth a 0) (nth b 0)]

/-- Adjacent pairs combined: one level of the tree of R108. -/
def pairUp (op : Nat) : List RedAcc → List RedAcc
  | a :: b :: xs => redJoin op a b :: pairUp op xs
  | xs => xs

/-- The pairwise tree over a full row of 2^levels lanes. -/
def redTree (op : Nat) : Nat → List RedAcc → RedAcc
  | 0, xs => xs.headD (redId op)
  | n + 1, xs => redTree op n (pairUp op xs)

/-- A list cut in rows of `r`. -/
def rowsOf {α : Type} (r : Nat) : Nat → List α → List (List α)
  | 0, _ => []
  | n + 1, xs => if xs.isEmpty then [] else xs.take r :: rowsOf r n (xs.drop r)

/-- One tile's partial of one set: rows of `r` lanes, missing lanes at the identity (R108). DESIGN CHOICE: RCSUM too joins
its lanes through the tree, by the join R147 gives for partials; R147's csum takes a set's elements one by one, and the
two do not say which holds within a tile (log entry 89). -/
def redPartial (op r : Nat) (leaves : List RedAcc) : RedAcc :=
  (rowsOf r leaves.length leaves).foldl (fun acc row =>
    redJoin op acc (redTree op (Nat.log2 r) (row ++ List.replicate (r - row.length) (redId op)))) (redId op)

/-- The result of a whole set (R109): RLSE gives m + ln s, the arguments their index. -/
def redResult (op : Nat) (a : RedAcc) : Num :=
  match op with
  | 0x51 => csumVal (nth a 0, nth a 1)
  | 0x54 => nth a 1
  | 0x55 => nth a 1
  | 0x56 => if (nth a 0).fin then lseResult a else nth a 0
  | _ => nth a 0

/-! ### Scans and ranking -/

/-- One element of a scan behind what stands before it (R110); the first stands alone. -/
def scanStep (op : Nat) (before : Option Num) (x : Num) : Num :=
  match before with
  | none => x
  | some a => if op = 0x60 then wAdd a x else nMax a x

/-- Prefix sums in WF or prefix maxima; exclusive with `excl` (R110): y₀ is then +0, or −∞ for SCANMAX. -/
def scan (op : Nat) (excl : Bool) (xs : List Num) : List Num :=
  let r := xs.foldl (fun (acc : Option Num × List Num) x =>
    let n := scanStep op acc.1 x
    (some n, (if excl then acc.1.getD (if op = 0x60 then {} else nInf true) else n) :: acc.2)) (none, [])
  r.2.reverse

/-- x ranks before y for TOPK: a NaN before every value, then the larger or the smaller (R111). DESIGN CHOICE: zeros of
either sign are equal values, ranked by index; R111 does not say whether −0 ranks below +0 (log entry 84). -/
def ranksBefore (largest : Bool) (x y : Num) : Bool :=
  if y.nan then false else if x.nan then true else if largest then nLt y x else nLt x y

/-- An entry put in rank order behind its equals, only the first `k` kept. -/
def rankInsert (largest : Bool) (k : Nat) (x : Nat × Num) : List (Nat × Num) → List (Nat × Num)
  | l => ((l.takeWhile fun y => !ranksBefore largest x.2 y.2) ++ [x] ++
          (l.dropWhile fun y => !ranksBefore largest x.2 y.2)).take k

/-- The k ranked elements of a row: position in the row and value (R111). -/
def topk (largest : Bool) (k : Nat) (xs : List Num) : List (Nat × Num) :=
  xs.zipIdx.foldl (fun acc x => rankInsert largest k (x.2, x.1.bare) acc) []

/-! ### Normalisations -/

/-- n · 2^640 / d, toward −∞, for a fixed-point value over another. -/
def fxDiv (n d : Int) : Int := n * fxOne / d

/-- The exact output of LNORM and GNORM for element `x` of a row: (x − μ) / √(q/n + ε) · γ + β. -/
def lnExact (eps mu q x g b : Num) : Int :=
  let den := fxSqrt (fxOf (nAdd q eps)).toNat
  fxDiv (fxOf (nMul (nSub x mu) g)) den + fxOf b

/-- Values of a row with γ and β by position (+1 and +0 without AFFINE): LNORM and GNORM, each output within 4 ulps of the
exact one (R112, R114). -/
def layerNorm (eps : Num) (xs : List (Num × Num × Num)) : List Num :=
  let n := nInt xs.length
  if xs.any fun x => !x.1.fin then xs.map fun _ => nNaN
  else
    let mu := wDiv (toWF (csumVal (csum (xs.map fun x => x.1.bare)))) n
    let sq := xs.map fun x => let d := wSub x.1 mu; wMul d d
    let rstd := sfu 0x35 0 (wAdd (wDiv (toWF (csumVal (csum sq))) n) eps)
    let m := nDiv (xs.foldl (fun a x => nAdd a x.1) {}) n
    let v := nDiv (xs.foldl (fun a x => let d := nSub x.1 m; nAdd a (nMul d d)) {}) n
    let exact := eps.fin && nLt {} (nAdd v eps)
    xs.map fun x =>
      let y := nAdd (nMul (nMul (nSub x.1 mu) rstd) x.2.1) x.2.2
      if exact && x.2.1.fin && x.2.2.fin then fxBound 4 y (lnExact eps m v x.1 x.2.1 x.2.2) else y

/-- RMSNORM of a row, each output within 4 ulps of the exact one (R112, R114). -/
def rmsNorm (eps : Num) (xs : List (Num × Num)) : List Num :=
  let n := nInt xs.length
  if xs.any fun x => !x.1.fin then xs.map fun _ => nNaN
  else
    let q := toWF (csumVal (csum (xs.map fun x => wMul x.1 x.1)))
    let rr := sfu 0x35 0 (wAdd (wDiv q n) eps)
    let v := nDiv (xs.foldl (fun a x => nAdd a (nMul x.1 x.1)) {}) n
    let exact := eps.fin && nLt {} (nAdd v eps)
    xs.map fun x =>
      let y := nMul (nMul x.1 rr) x.2
      if exact && x.2.fin then fxBound 4 y (lnExact eps {} v x.1 x.2 {}) else y

/-- SOFTMAX of a row whose masked elements are given as −∞, each output within 3 ulps of the exact one (R112, R114). -/
def softMax (xs : List Num) : List Num :=
  let infs := (xs.filter fun x => x.inf && !x.neg).length
  if xs.any fun x => x.nan then xs.map fun _ => nNaN
  else if infs ≠ 0 then xs.map fun x => if x.inf && !x.neg then nDiv (nInt 1) (nInt infs) else nZero false
  else if xs.all fun x => x.inf then xs.map fun _ => nZero false
  else
    let m := xs.foldl nMax (nInf true)
    let es := xs.map fun x => wExp (wSub x m)
    let rs := sfu 0x34 0 (toWF (csumVal (csum es)))
    let fx := xs.map fun x => if x.inf || nLt (nInt 400) (nSub m x) then 0 else fxExp (fxOf (nSub x m))
    let sum : Nat := fx.sum
    (es.zip fx).map fun e => fxBound 3 (nMul e.1 rs) (fxDiv e.2 sum)

/-! ### What a scalar register receives -/

/-- A value delivered to SR_OUT by its type (R100): FP32 for floating types, the pair's halves, else sign-extended. -/
def srDeliver (t b scale : Nat) (poison : Bool) : Nat :=
  if poison then 2 ^ 64 - 1
  else if isF t then fp32 (if isMX t then decodeMX t b scale else decodeElem t b)
  else if isP t then b
  else ofSigned 64 (truncInt (decodeElem t b))

end Sys2Proof.Machine
end

