-- ==== Sys2Proof/Machine/Port.lean ====
section
/-! DEFINITION. The ports as every other unit sees them: messages as bytes (Table 12.13), their sending, the completion
of requests (R166, R254, R294), the port transitions of Table 12.6 with what they carry, strikes and quarantine (R289,
R290), and the pair state of the twin (R321, R331), which follows TP. Port 8 is TP. -/

namespace Sys2Proof.Machine

/-! ### Messages -/

/-- The bytes of a message: header, payload, zeros up to a multiple of 8 (R273). -/
def msgBytes (m : Msg) : List Byte :=
  leBytes 8 (m.type * 2 ^ 56 + m.len * 2 ^ 40 + m.dst * 2 ^ 30 + m.src * 2 ^ 20 + m.tenant * 2 ^ 15) ++
  leBytes 8 (m.tag * 2 ^ 40 + m.txn * 2 ^ 24 + m.status * 2 ^ 16 + m.fault * 2 ^ 8) ++
  padTo ((m.payload.length + 7) / 8 * 8) m.payload

/-- A message read from its bytes. -/
def msgParse (bs : List Byte) : Msg :=
  let a := word64At bs 0
  let b := word64At bs 1
  { type := bits a 63 56, len := bits a 55 40, dst := bits a 39 30, src := bits a 29 20, tenant := bits a 19 15
    tag := bits b 63 40, txn := bits b 39 24, status := bits b 23 16, fault := bits b 15 8
    rsvd := bits a 14 0 ||| bits b 7 0, payload := (bs.drop 16).take (bits a 55 40) }

/-- Bytes a message takes on its channel. -/
def msgSize (len : Nat) : Nat := 16 + (len + 7) / 8 * 8

/-- The virtual channel of a message type (Tables 12.14 and 15.4): 0 MG, 1 RS, 2 RQ, 3 EV; none for a reserved code. -/
def typeVc : Nat → Option Nat
  | 0x01 => some 0 | 0x02 => some 0 | 0x44 => some 0
  | 0x20 => some 1 | 0x21 => some 1 | 0x22 => some 1 | 0x23 => some 1 | 0x42 => some 1
  | 0x10 => some 2 | 0x11 => some 2 | 0x12 => some 2 | 0x13 => some 2 | 0x14 => some 2
  | 0x40 => some 2 | 0x41 => some 2 | 0x43 => some 2
  | 0x30 => some 3 | 0x31 => some 3
  | _ => none

/-- The virtual channel of a message type on port `p` (R277, R318): a Welt port carries no twin message, TP nothing but
HELLO, HEARTBEAT and those. -/
def typeOn (p t : Nat) : Option Nat := if decide (p < 8) == decide (t < 0x40) ∨ t < 3 then typeVc t else none

/-- This Veper's node. -/
def nodeOf (s : State) : Nat := s.regB 0x000C 9 0

/-- A message put behind those waiting on a channel of port `p`, with the egress reserve it holds. -/
def pushMsg (s : State) (p : Nat) (m : Msg) (heads : Nat := 0) (units : Nat := 0) : State :=
  let v := (typeVc m.type).getD 2
  s.modPort p fun x =>
    let c := x.chan v
    x.setChan v { c with tx := c.tx ++ [{ bytes := msgBytes { m with len := m.payload.length }, heads := heads, units := units }] }

/-- A response the Veper owes on port `p`: sent while the port is UP, discarded with its reserve otherwise (R254, R296). -/
def pushRsp (s : State) (p : Nat) (m : Msg) (heads units : Nat) : State :=
  if (s.port p).state = .up then pushMsg s p m heads units
  else s.modPort p fun x => { x with egHeads := x.egHeads - heads, egUnits := x.egUnits - units }

/-- The partner's node: EXP_NODE, or TWN_PEER_NODE for TP. -/
def peerNode (s : State) (p : Nat) : Nat := if p < 8 then s.twB 9 p 0 9 0 else s.regB 0x040C 9 0

/-! ### Counters, events, observed state -/

/-- An error counter of a port (Tables 15.3, 18.8, 18.9): 0 CRC_ERR, 1 TAG_FAIL, 2 REPLAYS, 3 MALFORMED. -/
def linkCount (s : State) (p i : Nat) : State :=
  if p < 8 then s.bump (bankKey p ([0x0330, 0x0334, 0x0338, 0x0340].getD i 0x0340)) 1
  else
    let sh := 24 - 8 * i
    if bits (s.reg 0x046C) (sh + 7) sh < 0xFF then s.setReg 0x046C (s.reg 0x046C + 2 ^ sh) else s

/-- The unit number of a port (Table 18.14). -/
def portUnit (p : Nat) : Nat := 92 + p

/-- Every lane of a port. -/
def fullLanes (p : Nat) : Nat := if p < 8 then 0xF else 0xFF

/-- OBS of a port follows its state (R254). -/
def portObs (s : State) (p : Nat) : State :=
  let x := s.port p
  if s.power.contained then s
  else setObs s (portUnit p)
    (match x.state with
     | .up => if x.lanes = fullLanes p then 3 else 2
     | .fenced => 1
     | _ => 0) 3

/-- WLT_STATUS.EVENT or TWN_LINK_STATUS.EVENT sets. -/
def portEvent (s : State) (p : Nat) : State := s.setBit (lkey p 0x0308 0x0454) 31

/-- Events are dropped and counted under a cause of Table 10.8, numbered from EVT_DROP_FULL. -/
def evDrop (s : State) (cause n : Nat) : State := if n = 0 then s else s.bump (0x0790 + 4 * cause) n

/-! ### Requests -/

/-- The lines an error delivers: poisoned +0 (R166). -/
def errLines (p : Nat) (r : Req) : List RemoteLine :=
  (List.range r.nlines).map fun i =>
    { port := p, node := r.node, tenant := r.tenant, addr := r.addr + 64 * i, data := List.replicate 64 0, poison := true }

/-- A message waiting to be sent is that of request `r`. -/
def isReqMsg (r : Req) (m : TxMsg) : Bool :=
  (msgParse m.bytes).txn == r.txn && (msgParse m.bytes).type == (if r.write then 0x11 else 0x10)

/-- The message of a request that ends before a byte of it was sent leaves its channel (R294, R298). -/
def dropUnsent (x : PortSt) (r : Req) : PortSt :=
  let c := x.chan 2
  x.setChan 2 { c with tx := (c.tx.zipIdx.filter fun m => !(isReqMsg r m.1 && (m.2 != 0 || c.txOff == 0))).map Prod.fst }

/-- A request ends: its requester gets its lines or its acknowledgement, a failure writes one REMOTE_FAIL, the reserve
is released (R166, R292, R294). -/
def reqDone (s : State) (p : Nat) (r : Req) (ok : Bool) (status fault : Nat) (lines : List RemoteLine) : State :=
  let s := s.modPort p fun x =>
    { dropUnsent x r with
             reqs := x.reqs.filter fun y => y.txn != r.txn
             rsvHeads := if r.due.isSome then x.rsvHeads - 1 else x.rsvHeads
             rsvUnits := if r.due.isSome && !r.write then x.rsvUnits - r.nlines else x.rsvUnits }
  match r.who with
  | .flight q n =>
    let s := s.modFlight q n fun f => { f with remote := f.remote - 1, lines := if r.write then f.lines else f.lines ++ lines }
    if ok then s else flightOnce s q n 0x1A (portUnit p) 1 (fault + status * 2 ^ 8 + p * 2 ^ 16)
  | _ => s

/-- The first TXN from `nextTxn` on that no outstanding request of the port has (R279). -/
def freeTxn (x : PortSt) : Nat :=
  ((List.range (x.reqs.length + 1)).map fun i => (x.nextTxn + i) % 2 ^ 16).find? (fun t => !x.reqs.any fun r => r.txn == t)
    |>.getD x.nextTxn

/-- A request is formed on port `p` (R279, R292): it waits for its reserve, or completes locally when the port is not UP. -/
def formReq (s : State) (p : Nat) (r : Req) : State :=
  let r := { r with txn := freeTxn (s.port p) }
  let s := s.modPort p fun x => { x with nextTxn := (r.txn + 1) % 2 ^ 16, reqs := x.reqs ++ [r] }
  let s := match r.who with
    | .flight q n => s.modFlight q n fun f => { f with remote := f.remote + 1 }
    | _ => s
  if (s.port p).state = .up then s else reqDone s p r false 0x09 0 (errLines p r)

/-- Every request of a port completes locally with PORT_DOWN (R254, R294). -/
def reqsDown (s : State) (p : Nat) : State :=
  (s.port p).reqs.foldl (fun s r => reqDone s p r false 0x09 0 (errLines p r)) s

/-! ### Fault records of links -/

/-- A link record: LINK_STALL or LINK_QUARANTINE (Table 19.3). -/
def linkRecord (s : State) (p code : Nat) : State :=
  recordFault s { code := code, unit := portUnit p, level := 0, detail := p }

/-! ### The pair -/

/-- TWIN_EN and TWIN_ROLE as sampled (R315). -/
def twinEn (s : State) : Bool := bit s.power.straps 1
def twinSide (s : State) : Nat := s.power.straps % 2

/-- The TSTATE this side would send (Table 15.11). -/
def myTState (s : State) : TState :=
  { side := twinSide s, pstate := s.twn.pstate, mode := s.twn.mode, active := s.twn.active, epoch := s.epc.count, run := s.twn.run }

/-- TSTATE as a message payload. -/
def tstateBytes (t : TState) : List Byte :=
  leBytes 8 (t.side * 2 ^ 63 + t.pstate * 2 ^ 60 + t.mode * 2 ^ 58 + t.active * 2 ^ 57 + t.epoch) ++ leBytes 8 (t.run * 2 ^ 32)

/-- TSTATE is sent while TP is UP (R333). -/
def sendTState (s : State) : State :=
  if (s.port 8).state = .up then
    pushMsg { s with twn := { s.twn with sentTs := some (myTState s) } } 8
      { type := 0x43, dst := peerNode s 8, src := nodeOf s, payload := tstateBytes (myTState s) }
  else s

/-- Two sides agree (R321). -/
def pairAgrees (s : State) : Bool :=
  match s.twn.sentTs, s.twn.gotTs with
  | some a, some b => a.side != b.side && a.mode == b.mode && a.active == b.active && (a.run &&& b.run) == 0 && s.twn.ringsOk
  | _, _ => false

/-- What leaving PAIRED does to the mirror (Table 15.7, R331): journaling stops, an unanswered COMMIT ends unacknowledged,
records not answered OK are discarded, committed ones stay to be applied. -/
def unpair (s : State) : State :=
  { s with twn := { s.twn with outDir := 0, inDir := if s.twn.inDir = 2 then 3 else 0, tx := [], rx := [], sentRecs := 0
                               lost := false, seedEnded := false, seedDone := true, gotRecs := 0, overflow := false
                               bad := false, commitAt := none }
           ports := if s.twn.commitAt.isSome then (s.modPort 8 fun x => { x with rsvHeads := x.rsvHeads - 1 }).ports else s.ports
           epc := if s.twn.commitAt.isSome then { s.epc with unacked := true } else s.epc }

/-- The walk and the journal sessions start afresh at an entry of OUT to SEEDING (R325, R334). -/
def startSeeding (s : State) : State :=
  let s := { s with twn := { s.twn with outDir := 1, seedDone := false, seedEnded := false, seedWin := 0, seedLine := 0, txSess := [], txCnt := [] } }
  (List.range 32).foldl (fun s t => if s.tenRun t && journalAuth s t then startSession s t else s) s

/-- PSTATE takes a value: TWN_STATUS.EVENT sets, the directions follow, TSTATE is sent (R321, R331, R333). A pair apart while
TP is UP pairs again only once TP has left UP and is UP again (Table 15.6). -/
def pairTo (s : State) (st : Nat) : State :=
  if s.twn.pstate = st then s
  else
    let s := if s.twn.pstate = 2 then unpair s else s
    let s := { s with twn := { s.twn with pstate := st, adopt := s.twn.adopt && (st == 3 || st == 4)
                                          needDown := (st == 3 || st == 4) && (s.twn.needDown || (s.port 8).state == .up) } }
    let s := if st = 2 then startSeeding { s with twn := { s.twn with inDir := 1 } } else s
    sendTState (s.setBit 0x0408 31)

/-- A TSTATE sent or received that disagrees sends LINKING and PAIRED to MISCONFIG (R321, R333). -/
def pairJudge (s : State) : State :=
  if (s.twn.pstate = 1 ∨ s.twn.pstate = 2) ∧ s.twn.sentTs.isSome = true ∧ s.twn.gotTs.isSome = true ∧ pairAgrees s = false then
    pairTo s 5
  else s

/-! ### Port transitions -/

/-- The link is trained: HELLO, UP or FENCED. -/
def linkState : PState → Bool
  | .hello => true
  | .up => true
  | .fenced => true
  | _ => false

/-- The link state cleared at leaving HELLO, UP or FENCED (R254): everything but what outlives a link. -/
def portBlank (x : PortSt) : PortSt :=
  { state := x.state, limit := x.limit, phy := x.phy, authEn := x.authEn, kset := x.kset, locked := x.locked
    retrain := x.retrain, nonce := x.nonce, helloFail := x.helloFail, peerCaps := x.peerCaps, strikes := x.strikes
    nextTxn := x.nextTxn, scr := x.scr, links := x.links }

/-- Events that wait in the port's EV egress buffer, or in a batch being sent (R216). -/
def evWaiting (x : PortSt) : Nat :=
  (x.batches.map fun b => b.events.length).sum +
  ((x.chan 3).tx.map fun m => if (msgParse m.bytes).type = 0x30 then bits (word64At m.bytes 2) 55 50 else 0).sum

/-- The cc a WLT_RETRY or TWN_LINK_TO.RETRY lasts. -/
def retryCc (s : State) (p : Nat) : Nat :=
  if p < 8 then s.usCc (atLeast1 (bits (s.reg (bankKey p 0x0310)) 23 0)) else s.usCc (1000 * atLeast1 (s.regB 0x042C 7 0))

/-- The cc WLT_TRAIN_TO or TWN_LINK_TO.TRAIN_TO lasts. -/
def trainCc (s : State) (p : Nat) : Nat :=
  if p < 8 then s.usCc (atLeast1 (bits (s.reg (bankKey p 0x0314)) 23 0)) else s.usCc (10000 * atLeast1 (s.regB 0x042C 15 8))

/-- The cc WLT_STALL_TO lasts. -/
def stallCc (s : State) (p : Nat) : Nat :=
  1024 * (if p < 8 then atLeast1 (bits (s.reg (bankKey p 0x0324)) 15 0) else atLeast1 (s.regB 0x042C 31 16))

/-- The cc WLT_REPLAY.TIMEOUT lasts. -/
def replayCc (s : State) (p : Nat) : Nat := 16 * atLeast1 (bits (s.lreg p 0x031C 0x0464) 31 16)

/-- The cc of WLT_HB.PERIOD and WLT_HB.TIMEOUT. -/
def hbPeriodCc (s : State) (p : Nat) : Nat := s.usCc (atLeast1 (bits (s.lreg p 0x0328 0x0468) 15 0))
def hbTimeoutCc (s : State) (p : Nat) : Nat := s.usCc (atLeast1 (bits (s.lreg p 0x0328 0x0468) 31 16))

/-- A fresh 64-bit nonce from the random source (§13.2). -/
def freshNonce (s : State) : Nat × State :=
  (((Config.freeNonce s.freeCtr).toNat + (Config.freeNonce (s.freeCtr + 1)).toNat * 2 ^ 48) % 2 ^ 64, s.tick1.tick1)

/-- A stream channel's entry in force names port `p` and is valid. -/
def streamOn (s : State) (p : Nat) : Bool :=
  (List.range 8).any fun c => (s.str c).valid && decide (s.tfB 0x0B c 0 23 21 = p)

/-- HELLO as this Veper sends it (Table 12.19, §13.2). -/
def helloMsg (s : State) (p : Nat) : Msg :=
  let x := s.port p
  let b (c : Bool) (i : Nat) := if c then 2 ^ i else 0
  { type := 0x01, src := nodeOf s, dst := peerNode s p
    payload := leBytes 8 (0x0C1A * 2 ^ 48 + 0x640 * 2 ^ 36 + 2 * 2 ^ 32 + nodeOf s) ++ leBytes 8 x.nonce ++ leBytes 8 x.peerNonce ++
      leBytes 8 (if p < 8 then b (streamOn s p) 10 + b (s.tw 9 p 4 != 0) 9 + b (s.tw 9 p 5 != 0) 8 + 2 else 3) }

/-- HELLO is formed: once its ECHO carries the partner's NONCE, that is noted (R285). -/
def sendHello (s : State) (p : Nat) : State :=
  let s := pushMsg s p (helloMsg s p)
  s.modPort p fun x => { x with echoed := x.echoed || x.peerNonce != 0, helloAt := s.now + s.usCc 100 }

/-- The transmit and receive key entries of a port by generation (R271). -/
def txKey (x : PortSt) (gen : Nat) : Nat := 4 * x.kset + gen
def rxKey (x : PortSt) (gen : Nat) : Nat := 4 * x.kset + 2 + gen

/-- WLT_AUTH.TXSEL. -/
def txSel (s : State) (p : Nat) : Nat := bits (s.lreg p 0x032C 0x045C) 30 30

/-- Port `p` enters a state: cleanup on leaving the trained states, what the new state starts, EVENT, OBS, and for TP
the pair (R253, R254, R270, R288, R296, R321, R333, R389). -/
def portTo (s : State) (p : Nat) (st : PState) : State :=
  let old := (s.port p).state
  if old = st then s
  else
    let leaves := linkState old && !linkState st
    let s := if leaves || decide (st = .fenced) then reqsDown s p else s
    let s := if leaves || decide (st = .fenced) then evDrop s 7 (evWaiting (s.port p)) else s
    let s := if leaves then s.modPort p fun x => { portBlank x with links := x.links + 1 } else s
    let s := if old = .up || decide (st = .fenced) || decide (st = .quarantined) then portEvent s p else s
    let s := s.modPort p fun x => { x with state := st }
    let s := match st with
      | .down => s.modPort p fun x => { x with limit := s.now + retryCc s p, locked := 0, lanes := 0 }
      | .training => s.modPort p fun x =>
          { x with limit := s.now + trainCc s p, phy := s.lreg p 0x030C 0x0458, locked := 0, lanes := 0 }
      | .align =>
        let w := s.lreg p 0x032C 0x045C
        let s := s.modPort p fun x => { portBlank x with authEn := bit w 31, kset := bits w 5 0, limit := s.now + s.usCc 1000
                                                         lanes := x.lanes }
        if bit w 31 then
          let k := txKey (s.port p) (bits w 30 30)
          let n := ((s.key k).session + 1) % 2 ^ 32
          (s.modKey k fun e => { e with session := n }).modPort p fun x => { x with txSess := n }
        else s
      | .hello =>
        let f := freshNonce s
        let s := f.2.modPort p fun x =>
          { x with nonce := f.1, peerNonce := 0, echoed := false, lcRx := [], limit := s.now + s.usCc 1000
                   hbTxAt := s.now + hbPeriodCc s p, hbRxAt := s.now + hbTimeoutCc s p, hbCount := 0 }
        sendHello s p
      | .up => s.modPort p fun x =>
          { x with refillAt := s.now + 1024, qrate := s.twB 9 p 6 31 20
                   buckets := (List.range 32).map fun t => (t, atLeast1 (s.twB 9 p 6 19 8)) }
      | .fenced => s.modPort p fun x =>
          let clear (v : Nat) (x : PortSt) := x.setChan v { x.chan v with tx := [], txOff := 0 }
          { clear 1 (clear 2 (clear 3 x)) with egHeads := 0, egUnits := 0, stallAt := none, batches := [] }
      | _ => s.modPort p fun x => { x with locked := 0, lanes := 0 }
    let s := portObs s p
    if p = 8 then
      let s := if old = .up then
          { s with twn := { s.twn with needDown := false }, cc := { s.cc with tpLeft := true } } else s
      let s := if old = .up && s.twn.pstate = 2 then pairTo s 3 else s
      clkEval (if st = .up then pairJudge (sendTState s) else s)
    else s

/-- Strikes are added, and reaching QTH quarantines the port (R289, R290). TP has none (R318). -/
def addStrikes (s : State) (p n : Nat) : State :=
  if 8 ≤ p then s
  else
    let s := s.modPort p fun x => { x with strikes := min 255 (x.strikes + n) }
    let qth := s.twB 9 p 0 27 20
    if qth ≠ 0 ∧ qth ≤ (s.port p).strikes ∧ (s.port p).state ≠ .disabled ∧ (s.port p).state ≠ .quarantined then
      linkRecord (portTo s p .quarantined) p 0x61
    else s

/-- A malformed message, flit or LCTRL flit is counted and struck (R277, R289, R318). -/
def malformed (s : State) (p : Nat) : State := addStrikes (linkCount s p 3) p 1

/-- REFUSALS of the partner table, saturating at 16 bits. -/
def refusal (s : State) (p : Nat) : State :=
  let n := s.tw 9 p 7 % 2 ^ 16
  addStrikes (if n < 0xFFFF then s.setTw 9 p 7 (s.tw 9 p 7 + 1) else s) p 1

/-- The commanded state of a port takes force (R253, R401, Table 19.7). -/
def portForce (s : State) (p force : Nat) : State :=
  if force ≤ 1 then
    match (s.port p).state with
    | .up => portTo s p .fenced
    | .training => portTo s p .down
    | .align => portTo s p .down
    | .hello => portTo s p .down
    | _ => s
  else s

/-! ### Credit -/

/-- The credit of a channel (R266). -/
def credit (c : Chan) : Nat := c.peerBuf - (c.sent + 256 - c.peerCum % 256) % 256

/-- The port stalls in this cc (R296): UP, a new RS or MG flit waiting, its channel without credit. -/
def stalls (x : PortSt) : Bool :=
  decide (x.state = .up) && [0, 1].any fun v =>
    (!(x.chan v).tx.isEmpty || (v == 0 && !x.hb.isEmpty)) && credit (x.chan v) == 0

/-- Every port's stall as this cc finds it. -/
def stallFollow (s : State) : State :=
  (s.ports.map (·.1)).foldl (fun s p =>
    let x := s.port p
    if stalls x then (if x.stallAt.isSome then s else s.setPort p { x with stallAt := some (s.now + stallCc s p) })
    else if x.stallAt.isSome then s.setPort p { x with stallAt := none } else s) s

end Sys2Proof.Machine
end

