-- ==== Sys2Proof/Machine/Operands.lean ====
section
/-! DEFINITION. Operands: where an element lies (R155 to R158, R163 to R165), how a tile reads the elements it needs
(R139, R149, R239: one read of each word or line per tile and operand, log entry 31) and how it stores its results
(R140 to R146, R150, R158, R165, R240). -/

namespace Sys2Proof.Machine

/-! ### Indices -/

/-- The logical index of flat position `n` in a shape, dimension 0 fastest. -/
def unflat : List Nat → Nat → List Nat
  | [], _ => []
  | z :: zs, n => n % z :: unflat zs (n / z)

/-- The flat position of a logical index. -/
def flatOf : List Nat → List Nat → Nat
  | z :: zs, i :: is => i + z * flatOf zs is
  | _, _ => 0

/-- A list with element `k` replaced. -/
def setAt {α : Type} (l : List α) (k : Nat) (v : α) : List α := l.set k v

/-- Element offset of a logical index (R156). -/
def elemOffset (r : LastRec) (idx : List Nat) : Nat :=
  let term (k : Nat) : Nat :=
    let i := idx.getD k 0
    if rC32 r ∧ k = rCh r then i / 32 * rStride r k + i % 32 else i * rStride r k
  ((rDims r).map term).sum

/-! ### Homes of elements -/

/-- Where the storage of an element's record or block lies: `space` 0 HBM by physical address, 1 CBUF and local memory,
2 + p at the owner behind port p; `bad` a refusal's code and owner entry. -/
structure Home where
  space  : Nat := 0
  base   : Nat := 0
  win    : Nat := 0
  node   : Nat := 0
  tenant : Nat := 0
  bad    : Option (Nat × Nat) := none
  deriving DecidableEq, Repr

/-- Coordinates of the block of an index, its number (R163), and the index within it. -/
def blockOf (r : LastRec) (idx : List Nat) : Nat :=
  flatOf ((rDims r).map (blkCount r)) ((rDims r).map fun k => idx.getD k 0 / 2 ^ rBlk r k)
def innerOf (r : LastRec) (idx : List Nat) : List Nat :=
  if rOwn r then (rDims r).map fun k => idx.getD k 0 % 2 ^ rBlk r k else idx

/-- RADDR of an owner entry. -/
def ownRaddr (s : State) (e : Nat) : Nat := s.tw 7 e 1 + s.twB 7 e 2 7 0 * 2 ^ 32

/-- `s` with the owner entries as they stood when the accesses of a tile were issued: they complete against those
(Table 02.7). For finding places only. -/
def ownView (s : State) (f : Flight) : State :=
  f.owns.foldl (fun s o => o.words.zipIdx.foldl (fun s x => s.setTw 7 o.entry x.2 x.1) s) s

/-- The window of a tenant that holds the whole footprint of a block at `base` (R164 check 5). -/
def footWin (s : State) (t : Nat) (r : LastRec) (base : Nat) : Option Nat :=
  (List.range 4).find? fun w => s.winOn t w && footIn r base (s.winT t w) (s.winT t w + s.winN t w)

/-- The home behind owner entry `e` for tenant `t` (R164). -/
def ownHome (s : State) (t : Nat) (r : LastRec) (e : Nat) : Home :=
  let st := s.twB 7 e 0 31 30
  let a := ownRaddr s e
  if s.twB 7 e 0 29 25 ≠ t ∨ st = 0 then { bad := some (0x19, e) }
  else if st = 3 then { bad := some (0x18, e) }
  else if a % 64 ≠ 0 then { bad := some (0x19, e) }
  else if st = 2 then
    if 8 ≤ s.twB 7 e 0 19 16 then { bad := some (0x19, e) }
    else { space := 2 + s.twB 7 e 0 19 16, base := a, node := s.twB 7 e 0 9 0, tenant := s.twB 7 e 0 24 20 }
  else match footWin s t r a with
    | none => { bad := some (0x19, e) }
    | some w => { space := 0, base := paOf s t w a, win := w }

/-- The home of the element at logical index `idx` of record `r` for tenant `t`, accessed by VC `v` (R155, R157, R163). -/
def homeOf (s : State) (t v : Nat) (r : LastRec) (idx : List Nat) : Home :=
  if rOwn r then ownHome s t r (rOwnBase r + blockOf r idx)
  else match rSpace r with
    | 0 => { space := 0, base := paOf s t (rWin r) (rBase r), win := rWin r }
    | 1 => { space := 1, base := cbufAddr (if rLocal r then v else rVc r) (rOffset r) }
    | _ => { space := 1, base := localAddr (rCob r) (rOffset r) }

/-- The place of one element (R157): its home, its first bit counted from the start of the space, its width, and the
address of its scale byte. -/
structure Loc where
  home  : Home := {}
  bit   : Nat := 0
  width : Nat := 8
  scale : Option Nat := none
  deriving DecidableEq, Repr

/-- The place at element offset `e` in a home. -/
def locAt (r : LastRec) (h : Home) (e : Nat) : Loc :=
  { home := h, bit := 8 * h.base + e * typeBits (rType r), width := typeBits (rType r)
    scale := if isMX (rType r) then some (h.base + 64 * rScaleOff r + e / 32) else none }

/-- The place of the element at a logical index. -/
def locOf (s : State) (t v : Nat) (r : LastRec) (idx : List Nat) : Loc :=
  locAt r (homeOf s t v r idx) (elemOffset r (innerOf r idx))

/-! ### Reading -/

/-- The bytes an access moves at once in a space: 64 in HBM and at an owner, 16 in CBUF and local memory. -/
def unitBytes (space : Nat) : Nat := if space = 1 then 16 else 64

/-- A word or line of a space, by number; `node` and `tenant` tell remote lines apart. -/
structure UnitKey where
  space  : Nat := 0
  no     : Nat := 0
  node   : Nat := 0
  tenant : Nat := 0
  win    : Nat := 0
  deriving DecidableEq, Repr

/-- The word or line that holds byte `a` of a home. -/
def keyAt (h : Home) (a : Nat) : UnitKey :=
  { space := h.space, no := a / unitBytes h.space, node := h.node, tenant := h.tenant, win := h.win }

/-- The words or lines an element and its scale byte lie in. -/
def locUnits (l : Loc) : List UnitKey :=
  if l.home.bad.isSome then []
  else
    let a := keyAt l.home (l.bit / 8)
    let b := keyAt l.home ((l.bit + l.width - 1) / 8)
    (if a = b then [a] else [a, b]) ++ (match l.scale with | some x => [keyAt l.home x] | none => [])

/-- A list with later repeats dropped. -/
def distinct {α : Type} [BEq α] (l : List α) : List α :=
  (l.foldl (fun acc x => if acc.contains x then acc else x :: acc) []).reverse

/-- The distinct words and lines of places, in order of first use. -/
def unitsOf (ls : List Loc) : List UnitKey := distinct (ls.flatMap locUnits)

/-- A word or line as read. -/
structure CacheUnit where
  key    : UnitKey := {}
  bytes  : List Byte := []
  poison : Bool := false
  deriving DecidableEq, Repr

/-- A remote line of a descriptor fits a key. -/
def lineFits (k : UnitKey) (l : RemoteLine) : Bool :=
  decide (l.port + 2 = k.space) && decide (l.addr = 64 * k.no) && decide (l.node = k.node) && decide (l.tenant = k.tenant)

/-- The remote lines a descriptor has are enough for these keys. -/
def linesHere (f : Flight) (ks : List UnitKey) : Bool :=
  ks.all fun k => decide (k.space < 2) || decide (ks.count k ≤ f.lines.countP (lineFits k))

/-- The reads a descriptor must still form for these keys, as often as each is named: neither delivered nor under way (R165). -/
def formReads (s : State) (q n : Nat) (tag : Nat) (ks : List UnitKey) : State :=
  ks.foldl (fun s k =>
    if k.space < 2 then s
    else
      let p := k.space - 2
      let here := ((s.flightAt q n).getD {}).lines.countP (lineFits k)
      let asked := (s.port p).reqs.countP fun r => !r.write && decide (r.who = .flight q n) && decide (r.addr = 64 * k.no) &&
        decide (r.node = k.node) && decide (r.tenant = k.tenant)
      if ks.count k ≤ here + asked then s
      else formReq s p { who := .flight q n, addr := 64 * k.no, tenant := k.tenant, node := k.node, tag := tag }) s

/-- One word or line read for descriptor `n` of queue `q`; a remote line is taken from those delivered. -/
def readUnit (s : State) (a : Agent) (q n : Nat) (k : UnitKey) : CacheUnit × State :=
  if k.space = 0 then let r := readLine s a k.no; ({ key := k, bytes := r.1, poison := r.2.1 }, r.2.2)
  else if k.space = 1 then let r := readWord s a k.no; ({ key := k, bytes := r.1, poison := r.2.1 }, r.2.2)
  else
    match ((s.flightAt q n).getD {}).lines.find? (lineFits k) with
    | none => ({ key := k, bytes := List.replicate 64 0, poison := true }, s)
    | some l => ({ key := k, bytes := l.data, poison := l.poison }, s)

/-- A remote line goes once the tile it was read for has run. -/
def dropLine (ls : List RemoteLine) (k : UnitKey) : List RemoteLine :=
  match ls.find? (lineFits k) with
  | some l => ls.erase l
  | none => ls
def dropLines (s : State) (q n : Nat) (ks : List UnitKey) : State :=
  s.modFlight q n fun f => { f with lines := ks.foldl dropLine f.lines }

/-- Every word and line of an operand read once. -/
def readUnits (s : State) (a : Agent) (q n : Nat) (ks : List UnitKey) : List CacheUnit × State :=
  ks.foldl (fun acc k => let r := readUnit acc.2 a q n k; (acc.1 ++ [r.1], r.2)) ([], s)

/-- A byte of a home and the poison of its word. -/
def cacheByte (c : List CacheUnit) (h : Home) (a : Nat) : Byte × Bool :=
  match c.find? fun u => u.key = keyAt h a with
  | none => (0, true)
  | some u => (u.bytes.getD (a % unitBytes h.space) 0, u.poison)

/-- An element as loaded: stored bits, scale byte, poison (R149). A refused access delivers +0, poisoned (R164). -/
structure Elem where
  bits   : Nat := 0
  scale  : Nat := 0x7F
  poison : Bool := false
  deriving DecidableEq, Repr

/-- An element taken from the words read. -/
def elemAt (c : List CacheUnit) (l : Loc) : Elem :=
  if l.home.bad.isSome then { poison := true }
  else
    let lo := l.bit / 8
    let cnt := (l.bit % 8 + l.width + 7) / 8
    let bs := (List.range cnt).map fun i => cacheByte c l.home (lo + i)
    let x := match l.scale with
      | some a => cacheByte c l.home a
      | none => (0x7F, false)
    { bits := leNat (bs.map Prod.fst) >>> (l.bit % 8) % 2 ^ l.width, scale := x.1.toNat
      poison := x.2 || bs.any Prod.snd }

/-- The value of an element of type `t` with its poison (R139). -/
def elemNum (t : Nat) (e : Elem) : Num :=
  { (if isMX t then decodeMX t e.bits e.scale else decodeElem t e.bits) with poison := e.poison }

/-- Refused accesses through owner entries (R164): each entry counts once for this operand, each code is written once. -/
def refuse (s : State) (q n unit : Nat) (ls : List Loc) : State :=
  (distinct (ls.filterMap fun l => l.home.bad)).foldl (fun s b =>
    let cur := mget zeroNat s.ownFlt b.2
    flightOnce { s with ownFlt := mset zeroNat s.ownFlt b.2 (min 0xFFFF (cur + 1)) } q n b.1 unit 1 b.2) s

/-- The elements of an operand at places `ls`, read by descriptor `n` of queue `q` in VC `v`. -/
def loadElems (s : State) (a : Agent) (q n v : Nat) (ls : List Loc) : List Elem × State :=
  let r := readUnits (refuse s q n v ls) a q n (unitsOf ls)
  (ls.map (elemAt r.1), r.2)

/-! ### Writing -/

/-- Bits to be stored: a home, the first bit, the width, the bits, poison. -/
structure Put where
  home   : Home := {}
  bit    : Nat := 0
  width  : Nat := 8
  value  : Nat := 0
  poison : Bool := false
  deriving DecidableEq, Repr

/-- A put split at byte boundaries: home, byte address, first bit in the byte, count, bits, poison. -/
def putPieces (p : Put) : List (Nat × Nat × Nat × Nat) :=
  (List.range ((p.bit % 8 + p.width + 7) / 8)).map fun i =>
    let a := p.bit / 8 + i
    let lo := if i = 0 then p.bit % 8 else 0
    let hi := min 8 (p.bit + p.width - 8 * a)
    (a, lo, hi - lo, p.value >>> (8 * a + lo - p.bit) % 2 ^ (hi - lo))

/-- What is stored in one byte: the mask of the bits given and their values. -/
abbrev ByteMap := List (Nat × Nat × Nat)

/-- A piece laid over a byte map; a later piece of the same bits wins. -/
def layPiece (m : ByteMap) (x : Nat × Nat × Nat × Nat) : ByteMap :=
  let mask := (2 ^ x.2.2.1 - 1) * 2 ^ x.2.1
  let val := x.2.2.2 * 2 ^ x.2.1
  match m.find? fun e => e.1 == x.1 with
  | none => (x.1, mask, val) :: m
  | some e => m.map fun y => if y.1 = x.1 then (y.1, e.2.1 ||| mask, (e.2.2 &&& (255 - mask)) ||| val) else y

/-- The puts of one word or line. -/
structure WUnit where
  key    : UnitKey := {}
  bytes  : ByteMap := []
  poison : Bool := false
  deriving DecidableEq, Repr

/-- A put added to the words it touches, in order of first use. -/
def addPut (us : List WUnit) (p : Put) : List WUnit :=
  (putPieces p).foldl (fun us x =>
    let k := keyAt p.home x.1
    if us.any fun u => u.key = k then
      us.map fun u => if u.key = k then { u with bytes := layPiece u.bytes x, poison := u.poison || p.poison } else u
    else us ++ [{ key := k, bytes := layPiece [] x, poison := p.poison }]) us

/-- The bytes of a word or line as a write gives them: bits not given within a given byte come from the old byte. -/
def unitNew (old : List Byte) (u : WUnit) : List (Option Byte) :=
  let n := unitBytes u.key.space
  (List.range n).map fun j =>
    (u.bytes.find? fun e => e.1 == u.key.no * n + j).map fun e =>
      BitVec.ofNat 8 (e.2.2 ||| ((old.getD j 0).toNat &&& (255 - e.2.1)))

/-- The bytes of a word or line as given, and the bits of each where some byte is given in part. -/
def unitGiven (u : WUnit) : List (Option Byte) × List Byte :=
  let n := unitBytes u.key.space
  let at_ (j : Nat) := u.bytes.find? fun e => e.1 == u.key.no * n + j
  ((List.range n).map fun j => (at_ j).map fun e => BitVec.ofNat 8 e.2.2,
   if u.bytes.any fun e => e.2.1 != 255 then (List.range n).map fun j => ((at_ j).elim 255 fun e => e.2.1) else [])

/-- Some byte is given in part only. -/
def unitPart (u : WUnit) : Bool := u.bytes.any fun e => e.2.1 != 255

/-- A WRITE's payload for one line (Table 12.17): the byte mask where the line is not given whole. -/
def writeBody (addr : Nat) (new : List (Option Byte)) (poison : Bool) : List Byte :=
  let data := new.map fun b => b.getD 0
  let mask := ((List.range 64).map fun i => if (new.getD i none).isSome then 2 ^ i else 0).sum
  let pz := leBytes 8 (if poison then 1 else 0)
  if isFull new then leBytes 8 addr ++ pz ++ data else leBytes 8 (2 ^ 40 + addr) ++ pz ++ leBytes 8 mask ++ data

/-- One line of HBM as a request stores it. -/
def unitLine (u : WUnit) : LineWr :=
  let g := unitGiven u
  { line := u.key.no, new := g.1, mask := g.2, poison := u.poison }

/-- One word of CBUF or local memory stored for a descriptor, or one WRITE formed to an owner (R165). `old` gives the
owner's line where bits of a byte are kept. -/
def storeUnit (s : State) (a : Agent) (q n : Nat) (old : List CacheUnit) (u : WUnit) : State :=
  let k := u.key
  if k.space = 1 then writeWord s a k.no (unitGiven u).1 u.poison (unitGiven u).2
  else
    let o := (old.find? fun c => c.key = k).getD {}
    formReq s (k.space - 2) { write := true, who := .flight q n, addr := 64 * k.no, tenant := k.tenant, node := k.node,
                              tag := agentTag s a, body := writeBody (64 * k.no) (unitNew o.bytes u) (u.poison || o.poison) }

/-- The units of a store cut into requests (R323): consecutive lines of one window that a VC stores are one request. -/
def requests (join : Bool) (us : List WUnit) : List (List WUnit) :=
  us.foldr (fun u rs =>
    match rs with
    | (x :: r) :: rest =>
      if join ∧ u.key.space = 0 ∧ x.key.space = 0 ∧ x.key.win = u.key.win ∧ x.key.no = u.key.no + 1 then (u :: x :: r) :: rest
      else [u] :: (x :: r) :: rest
    | rest => [u] :: rest) []

/-- One request of a store: lines of one window, or a single word or remote line. -/
def storeReq (s : State) (a : Agent) (t q n : Nat) (old : List CacheUnit) (us : List WUnit) : State :=
  match us with
  | [] => s
  | u :: _ =>
    if u.key.space = 0 then (reqWrite s a t u.key.win (us.map unitLine)).1
    else us.foldl (fun s u => storeUnit s a q n old u) s

/-- The remote lines of which bits of a byte are kept, so that they must be read before they are written. -/
def keptLines (us : List WUnit) : List UnitKey := (us.filter fun u => decide (2 ≤ u.key.space) && unitPart u).map (·.key)

/-- Puts stored word by word, in order of first use; refused ones are discarded (R164). An Awl stores each line as a
request of its own. -/
def storePuts (s : State) (a : Agent) (t q n v : Nat) (ps : List Put) : State :=
  let s := refuse s q n v (ps.map fun p => { home := p.home })
  let us := (ps.filter fun p => p.home.bad.isNone).foldl addPut []
  let r := readUnits s a q n (keptLines us)
  (requests (decide (a.unit < 64)) us).foldl (fun s x => storeReq s a t q n r.1 x) r.2

/-! ### Results to stored bits -/

/-- Results are stored bits, not values: bitwise operations, COPY, and the pairs of FILL and GATHER (R99, R119, R146). -/
def rawDst (w : List Nat) (recs : List (Option LastRec)) : Bool :=
  let op := dOpcode w
  [0x17, 0x18, 0x19, 0x1A, 0x1B, 0x22, 0x90].contains op ||
  (isP (tyOf recs 4) && [0x88, 0x92].contains op)

/-- TRUNC acts (Table 05.3). -/
def isTrunc (w : List Nat) : Bool := dOpcode w == 0x13 && bit (dMod w) 2

/-- The stored bits of a result for a destination that is not MX. -/
def encodeRes (w : List Nat) (recs : List (Option LastRec)) (x : Num) : Enc :=
  if rawDst w recs then { bits := x.num } else encodeElem (tyOf recs 4) (bit (dMod w) 7) (isTrunc w) x

/-- The padding lanes of the group that holds index `idx` of a C32 record: element offsets (R158). -/
def padOffsets (r : LastRec) (idx : List Nat) : List Nat :=
  if !rC32 r then []
  else
    let c := rCh r
    let i := (innerOf r idx).getD c 0
    let start := idx.getD c 0 - i
    let lim := if rOwn r then min (2 ^ rBlk r c) (rSize r c - start) else rSize r c
    let e := elemOffset r (innerOf r idx)
    ((List.range 32).filter fun l => decide (lim ≤ i / 32 * 32 + l)).map fun l => e - i % 32 + l

/-- The puts of results of a destination that is not MX, padding lanes with them. -/
def plainPuts (s : State) (t v : Nat) (w : List Nat) (recs : List (Option LastRec)) (d : LastRec) (rs : List (List Nat × Num)) :
    List Put :=
  rs.flatMap fun x =>
    let h := homeOf s t v d x.1
    let put (e : Nat) (val : Nat) (p : Bool) : Put :=
      let l := locAt d h e
      { home := h, bit := l.bit, width := l.width, value := val, poison := p }
    put (elemOffset d (innerOf d x.1)) (encodeRes w recs x.2).bits x.2.poison ::
      (padOffsets d x.1).map fun e => put e 0 false

/-- The logical indices of the real elements of the MX block that holds `idx`, each with its lane. -/
def blockLanes (d : LastRec) (idx : List Nat) : List (Nat × List Nat) :=
  let k := if rC32 d then rCh d else 0
  let i := (innerOf d idx).getD k 0
  let g := idx.getD k 0 - i % 32
  let lim := if rC32 d then (if rOwn d then min (g - i / 32 * 32 + 2 ^ rBlk d k) (rSize d k) else rSize d k) else rSize d k
  ((List.range 32).filter fun l => decide (g + l < lim)).map fun l => (l, setAt idx k (g + l))

/-- One MX block from its results by lane: the puts, and how many elements saturated or became NaN under OVF (R117,
R143, R144, R145, R150, R158). COPY keeps the fields and the scale its sources share; from sources of different scales it
takes the scale of R144 and encodes each value under it (R116; log entry 34). -/
def blockPuts (s : State) (t v : Nat) (w : List Nat) (d : LastRec) (idx : List Nat) (lanes : List (Nat × Num)) :
    List Put × Nat :=
  let ty := rType d
  let h := homeOf s t v d idx
  let k := if rC32 d then rCh d else 0
  let e0 := elemOffset d (innerOf d idx) - (innerOf d idx).getD k 0 % 32
  let poison := lanes.any fun x => x.2.poison
  let vals := (List.range 32).map fun l => ((lanes.find? fun x => x.1 == l).map Prod.snd).getD {}
  let copy := dOpcode w == 0x90
  let scales := distinct (lanes.map fun x => x.2.num / 2 ^ 8)
  let moves := copy && scales.length == 1
  let val (x : Num) : Num := if copy then decodeMX ty (x.num % 2 ^ 8) (x.num / 2 ^ 8) else x.bare
  let enc := mxEncode ty (bit (dMod w) 7) (isTrunc w) (dOpcode w == 0x81 && bit (dMod w) 0) (vals.map val)
  let X := if moves then scales.headD 0 else enc.1
  let bitsOf (l : Nat) : Nat := if moves then (vals.getD l {}).num % 2 ^ 8 else (enc.2.getD l {}).bits
  let puts := (List.range 32).map fun l =>
    let x := locAt d h (e0 + l)
    { home := h, bit := x.bit, width := x.width, value := bitsOf l, poison := (vals.getD l {}).poison : Put }
  let sc : Put := { home := h, bit := 8 * (h.base + 64 * rScaleOff d + e0 / 32), width := 8, value := X, poison := poison }
  let cnt := (lanes.filter fun x => let r := enc.2.getD x.1 {}; r.sat || r.nanO).length
  (puts ++ [sc], cnt)

/-- The results of descriptor `n` gathered so far with those of a tile: a block whose every lane is there is stored,
the rest stay (R144). DESIGN CHOICE: a block of a LOCAL CBUF destination whose lanes come from tiles dealt to different
VCs lies whole in the VC of the tile that completes it; R155 and R144 do not settle it (log entry 88). -/
def storeBlocks (s : State) (a : Agent) (t q n v : Nat) (w : List Nat) (d : LastRec) (rs : List (List Nat × Num)) : State :=
  let sizes := rSizes d
  let held := ((s.flightAt q n).getD {}).partials
  let now := held ++ rs.map fun x => { slot := flatOf sizes x.1, vals := [x.2], vc := v : Partial }
  let firsts := distinct (rs.map fun x => ((blockLanes d x.1).headD (0, x.1)).2)
  firsts.foldl (fun s idx =>
    let lanes := blockLanes d idx
    let got := lanes.filterMap fun l =>
      (now.find? fun p => p.slot == flatOf sizes l.2).map fun p => (l.1, p.vals.headD {})
    let slots := lanes.map fun l => flatOf sizes l.2
    if got.length = lanes.length then
      let r := blockPuts s t v w d idx got
      let s := s.modFlight q n fun f =>
        { f with partials := f.partials.filter fun p => !slots.contains p.slot
                 count := if dOpcode w = 0x81 then f.count + r.2 else f.count
                 cntPoison := f.cntPoison || (decide (dOpcode w = 0x81) && got.any fun x => x.2.poison)
                 srOut := if slots.contains 0 then
                     some (srDeliver (rType d) (r.1.headD {}).value (r.1.getLastD {}).value (r.1.headD {}).poison)
                   else f.srOut }
      storePuts s a t q n v r.1
    else
      let new := now.filter fun p => slots.contains p.slot && !held.contains p
      s.modFlight q n fun f => { f with partials := f.partials ++ new }) s

/-- Results of tile `k` written to the destination (R140, R150): index and value of each. -/
def storeResults (s : State) (q n v k : Nat) (f : Flight) (rs : List (List Nat × Num)) : State :=
  let t := s.qTen q
  let a : Agent := { kind := .tile q n, cls := 1, unit := v, tile := k }
  let d := recOf f.recs 4
  if isMX (rType d) then storeBlocks s a t q n v f.words d rs
  else storePuts s a t q n v (plainPuts s t v f.words f.recs d rs)

/-- The first poisoned element a tile consumes writes POISON_CONSUMED, once for the descriptor (R101). -/
def consumePoison (s : State) (q n unit operand : Nat) : State := flightOnce s q n 0x20 unit 1 operand

end Sys2Proof.Machine
end

