-- ==== Sys2Proof/Machine/Events.lean ====
section
/-! DEFINITION. The event plane (chapter 10): delay queues, routing, delivery, the neuron update, and the commands
EVENT_DELIVER, DELIVERY_END and STRETCH_LIMIT. -/

namespace Sys2Proof.Machine

/-! ### Configuration entry of a VC (Table 10.2) -/

def evCfg (s : State) (v w hi lo : Nat) : Nat := s.tfB 8 (64 * v + 63) w hi lo
def evTen (s : State) (v : Nat) : Nat := evCfg s v 0 29 25
def evType (s : State) (v : Nat) : Nat := evCfg s v 0 24 20
def evExp (s : State) (v : Nat) : Int := toSigned 6 (evCfg s v 0 19 14)
def evRemote (s : State) (v : Nat) : Bool := bit (s.tf 8 (64 * v + 63) 0) 30
def evGbase (s : State) (v : Nat) : Nat := cbufAddr v (512 * evCfg s v 1 23 12)
def evNbase (s : State) (v : Nat) : Nat := cbufAddr v (512 * evCfg s v 1 11 0)
def evAbase (s : State) (v : Nat) : Nat := cbufAddr v (512 * evCfg s v 2 23 12)
def evMbase (s : State) (v : Nat) : Nat := cbufAddr v (512 * evCfg s v 2 11 0)
def evSbase (s : State) (v : Nat) : Nat := cbufAddr v (512 * evCfg s v 3 11 0)
def evNaxon (s : State) (v : Nat) : Nat := evCfg s v 3 22 12

/-- The event plane of VC `v` as a requester. -/
def evAgent (v : Nat) : Agent := { kind := .event v, cls := 3, unit := v }

/-- The epoch number `k` after epoch `t`, in which 1 follows the highest (R21). -/
def epochAfter (t k : Nat) : Nat := if k = 0 then t else (t + k - 1) % (2 ^ 40 - 1) + 1

/-! ### Delay queues -/

/-- The events of VC `v`'s slot `i`. -/
def delaySlot (s : State) (v i : Nat) : List DelayEv := mget (fun _ => ([] : List DelayEv)) (s.vc v).delay i

/-- VC `v` with a slot replaced. -/
def setSlot (s : State) (v i : Nat) (es : List DelayEv) : State :=
  s.modVc v fun x => { x with delay := mset (fun _ => ([] : List DelayEv)) x.delay i es }

/-- An event filed by its due step, or dropped when the slot holds 4,096 (R215). -/
def fileEvent (s : State) (v d ev : Nat) : State :=
  let es := delaySlot s v (d % 16)
  if es.length < 4096 then setSlot s v (d % 16) (es ++ [{ addr := ev, bit4 := bit d 4 }]) else evDrop s 0 1

/-- The filed events of step `t` in VC `v`: those of slot t mod 16 whose bit equals bit 4 of t (R215). -/
def dueFiled (s : State) (v t : Nat) : List DelayEv := (delaySlot s v (t % 16)).filter fun e => e.bit4 == bit t 4

/-- The events due in the current step and undelivered. -/
def dueCount (s : State) (v : Nat) : Nat := (dueFiled s v s.epc.count).length + (s.vc v).extra.length

/-- The due events of VC `v` removed from the step `t` they were due in. -/
def clearDue (s : State) (v t : Nat) : State :=
  (setSlot s v (t % 16) ((delaySlot s v (t % 16)).filter fun e => e.bit4 != bit t 4)).modVc v fun x => { x with extra := [] }

/-- An event due in the step leaves VC `v` in this cc. -/
def dueLeaves (s : State) (v : Nat) : State := s.modVc v fun x => { x with lastDue := s.now }

/-- The due events of VC `v` dropped under a cause (R219 to R221). -/
def dropDue (s : State) (v cause : Nat) : State :=
  if dueCount s v = 0 then s else dueLeaves (evDrop (clearDue s v s.epc.count) cause (dueCount s v)) v

/-! ### Routing -/

/-- Unit 104, the Lace hub, carries events (Table 19.7). -/
def hubOn (s : State) : Bool := s.isOn 104

/-- A target VC receives events of tenant `t` (R214). -/
def evTarget (s : State) (t v : Nat) : Bool := evEnabled s t v && s.isOn v && hubOn s

/-- One event to one local target. -/
def hubTo (s : State) (t v d ev : Nat) : State := if evTarget s t v then fileEvent s v d ev else evDrop s 8 1

/-- An event placed in the EV egress buffer of a port (R216); a partner whose HELLO carried EVENTS 0 gets none (ch. 13). -/
def egress (s : State) (p node t due ev : Nat) : State :=
  if 8 ≤ p then evDrop s 7 1
  else
    let x := s.port p
    if decide (x.state ≠ .up) || s.power.contained || !bit x.peerCaps 4 then evDrop s 7 1
    else
      let mine := fun (b : Batch) => !b.closed && b.node == node && b.tenant == t && b.due == due
      let put := fun (b : Batch) =>
        if mine b then { b with events := b.events ++ [ev], closed := decide (56 ≤ b.events.length + 1) } else b
      if x.batches.any mine then s.setPort p { x with batches := x.batches.map put }
      else if x.batches.length < 64 then
        s.setPort p { x with batches := x.batches ++ [{ port := p, node := node, tenant := t, due := due, events := [ev] }] }
      else evDrop s 7 1

/-- Every open batch is closed at the end of a VC's routing (R216). -/
def closeBatches (s : State) : State :=
  (List.range 8).foldl (fun s p => if (s.port p).batches.isEmpty then s else
    s.modPort p fun x => { x with batches := x.batches.map fun b => { b with closed := true } }) s

/-- One route entry applied to a spike of neuron `n` of VC `v` (R214). -/
def routeEntry (s : State) (v n e : Nat) : State :=
  let i := 64 * v + e
  let w0 := s.tf 8 i 0
  if !bit w0 31 || decide (n < bits w0 9 0) || decide (bits w0 25 16 < n) then s
  else
    let ev := nodeOf s * 2 ^ 22 + v * 2 ^ 16 + n * 2 ^ 6
    let due := epochAfter s.epc.count (1 + bits w0 29 26)
    let s := { s with routed := mset zeroNat s.routed i (sat32 (mget zeroNat s.routed i + 1)) }
    if bit w0 30 then egress s (s.tfB 8 i 1 19 16) (s.tfB 8 i 1 9 0) (s.tfB 8 i 1 24 20) due ev
    else
      let mask := s.tf 8 i 1 + s.tf 8 i 2 * 2 ^ 32
      (List.range 64).foldl (fun s u => if bit mask u then hubTo s (evTen s v) u due ev else s) s

/-- A spike of neuron `n` of VC `v` is routed by every matching entry in ascending order (R214). -/
def routeSpike (s : State) (v n : Nat) : State :=
  (List.range 63).foldl (fun s e => routeEntry s v n e) (s.bump 0x07C4 1)

/-! ### Poison -/

/-- EVT_POISON, at most one per VC and step (R225). -/
def evtPoison (s : State) (v : Nat) : State :=
  if (s.vc v).evtPoison then s
  else recordFault (s.modVc v fun x => { x with evtPoison := true })
    { code := 0x41, unit := v, tenant := evTen s v, tv := true, level := 0, detail := v }

/-! ### Delivery -/

/-- The axon an event maps to in the 32 bytes of its set: the lowest valid way whose KEY matches (R212). -/
def axonOf (set_ : List Byte) (ev : Nat) : Option Nat :=
  ((List.range 4).find? fun i => let w := word64At set_ i; bit w 36 && bits w 25 0 == ev / 64).map fun i =>
    bits (word64At set_ i) 35 26

/-- The weight form S7.16 of a value (R209). -/
def weightForm (wexp : Int) (x : Num) : Int :=
  if x.nan then 0
  else if x.inf then (if x.neg then -(2 ^ 23) else 2 ^ 23 - 1)
  else max (-(2 ^ 23)) (min (2 ^ 23 - 1) (rneInt (nMul x (nScaled false 1 (wexp + 16)))))

/-- Matrix words of an axon's row: the neurons of each 16-byte word, 16 of an 8-bit type, 32 of 0x09. -/
def perWord (ty : Nat) : Nat := if ty = 9 then 32 else 16

/-- Weight `j` of a matrix word of type `ty` under a scale byte. -/
def weightOf (ty : Nat) (wexp : Int) (word : List Byte) (scale j : Nat) : Int :=
  let b := if ty = 9 then leNat word >>> (4 * j) % 16 else (word.getD j 0).toNat
  weightForm wexp (if isMX ty then decodeMX ty b scale else decodeElem ty b)

/-- One matrix word of axon `a` added into the input accumulators of VC `v` (R208, R209, R225). -/
def addWord (s : State) (v a i : Nat) : State :=
  let ty := evType s v
  let n := perWord ty
  let row := evMbase s v + a * (if ty = 9 then 512 else 1024)
  let r := readSram s (evAgent v) (row + 16 * i) 16
  let blk := i * n / 32
  let sc := if isMX ty then readSram r.2.2 (evAgent v) (evSbase s v + 32 * a + blk) 1 else ([0x7F], false, r.2.2)
  let s := sc.2.2
  let ns := (List.range n).map (fun j => i * n + j) |>.filter fun m => decide (m < nneur s v)
  if r.2.1 || sc.2.1 then
    evtPoison (s.modVc v fun x => { x with accPoison := x.accPoison ++ ns.filter fun m => !x.accPoison.contains m }) v
  else
    s.modVc v fun x => { x with acc := ns.foldl (fun acc m =>
      mmod (fun _ => (0 : Int)) acc m (· + weightOf ty (evExp s v) r.1 (leNat sc.1) (m % n))) x.acc }

/-- One event looked up and, when mapped, its matrix row added (R210, R212). -/
def deliver (s : State) (v ev : Nat) : State :=
  let set_ := (bits ev 15 6 ^^^ (bits ev 21 16 * 16) ^^^ bits ev 31 22) % 1024
  let r := readSram s (evAgent v) (evAbase s v + 32 * set_) 32
  let s := r.2.2
  if r.2.1 then evtPoison (evDrop s 9 1) v
  else match axonOf r.1 ev with
    | none => s.bump 0x07C8 1
    | some a =>
      if evNaxon s v ≤ a then s.bump 0x07C8 1
      else if 65536 ≤ (s.vc v).delivered then evDrop s 6 1
      else
        let s := (s.bump 0x07C0 1).modVc v fun x => { x with delivered := x.delivered + 1 }
        (List.range ((nneur s v + perWord (evType s v) - 1) / perWord (evType s v))).foldl (fun s i => addWord s v a i) s

/-- EVT_CTRL selects STRETCH. -/
def stretches (s : State) : Bool := bit (s.regF' 0x0780) 0

/-- The delivery of the current step has ended in VC `v`: under DROP in the cc of the close, under STRETCH later in DRAIN
(R219, R220). -/
def delivOver (s : State) (v : Nat) : Bool :=
  (s.vc v).delivEnd || !(decide (s.epc.state = .opened) || (decide (s.epc.state = .drain) && stretches s))

/-- The event plane of VC `v` delivers: enabled, ON, its delivery not ended. -/
def delivering (s : State) (v : Nat) : Bool := s.runs && (s.vc v).evValid && s.isOn v && !delivOver s v

/-- A filed event is taken from its delay-queue entry: a correctable error is corrected, an uncorrectable one drops the
event under POISON; both count as cache errors (R225, R238, R246). -/
def deliverFiled (s : State) (v : Nat) (e : DelayEv) : State :=
  match e.err with
  | .clean => deliver s v e.addr
  | .ce => deliver (s.bump 0x04B8 1) v e.addr
  | _ => evtPoison (evDrop (s.bump 0x04B8 1) 9 1) v

/-- EVENT_DELIVER (R210, R212, R213, R215, R219, R225): the next due event of VC `v`, filed ones first. -/
def execEventDeliver (v : Fin 64) (s : State) : Out :=
  if !delivering s v then .next s
  else
    let t := s.epc.count
    match dueFiled s v t, (s.vc v).extra with
    | e :: _, _ => .next (deliverFiled (dueLeaves (setSlot s v (t % 16) ((delaySlot s v (t % 16)).erase e)) v) v e)
    | [], ev :: rest => .next (deliver (dueLeaves (s.modVc v fun x => { x with extra := rest }) v) v ev)
    | [], [] => .next s

/-! ### The neuron update -/

/-- n / 2^16 to the nearest integer, ties to even. -/
def rne16 (n : Int) : Int := rneInt (nScaled (decide (n < 0)) n.natAbs (-16))

/-- Saturation to S15.16. -/
def sat32i (n : Int) : Int := max (-(2 ^ 31)) (min (2 ^ 31 - 1) n)

/-- A neuron's state and its group parameters (Tables 10.4, 10.5). -/
structure Neuron where
  v      : Int := 0
  theta  : Int := 0
  scount : Nat := 0
  refr   : Nat := 0
  group  : Nat := 0
  deriving DecidableEq, Repr

/-- A neuron word read as fields. -/
def neuronOf (w : Nat) : Neuron :=
  { v := toSigned 32 w, theta := toSigned 32 (w / 2 ^ 32), scount := bits w 79 64, refr := bits w 87 80, group := bits w 91 88 }

/-- A neuron word with EN at 1 and reserved bits at 0 (R206). -/
def neuronWord (n : Neuron) : Nat :=
  ofSigned 32 n.v + ofSigned 32 n.theta * 2 ^ 32 + n.scount * 2 ^ 64 + n.refr * 2 ^ 80 + n.group * 2 ^ 88 + 2 ^ 92

/-- The update of R206 under group record `p`; whether it spikes, and the new state. -/
def neuronStep (p : Nat) (i : Int) (n : Neuron) : Bool × Neuron :=
  let decay : Int := bits p 15 0
  let tdecay : Int := bits p 31 16
  let theta0 := toSigned 32 (p / 2 ^ 32)
  let dtheta := toSigned 32 (p / 2 ^ 64)
  let vreset := toSigned 32 (p / 2 ^ 96)
  let vfloor := toSigned 32 (p / 2 ^ 128)
  let rmode := bit p 168
  let tref := bits p 167 160
  let v1 := max (sat32i (rne16 (n.v * decay) + i)) vfloor
  let spike := n.refr == 0 && decide (n.theta ≤ v1)
  let v2 := if n.refr ≠ 0 then vreset else if spike then (if rmode then sat32i (v1 - n.theta) else vreset) else v1
  let th := sat32i (theta0 + rne16 ((n.theta - theta0) * tdecay))
  (spike,
   { n with v := v2, theta := if spike then sat32i (th + dtheta) else th
            refr := if n.refr ≠ 0 then n.refr - 1 else if spike then tref else 0
            scount := if spike then min 0xFFFF (n.scount + 1) else n.scount })

/-- The word number of neuron `n` of VC `v`. -/
def neuronAt (s : State) (v n : Nat) : Nat := evNbase s v / 16 + n

/-- Neuron `n` of VC `v` updated once (R206, R225); its group record is read through the same port. -/
def updateNeuron (s : State) (v n : Nat) : State :=
  let r := readWord s (evAgent v) (neuronAt s v n)
  let s := r.2.2
  let w := leNat r.1
  if r.2.1 then evtPoison s v
  else if !bit w 92 then s
  else
    let nn := neuronOf w
    let g := readSram s (evAgent v) (evGbase s v + 32 * nn.group) 32
    let s := g.2.2
    if g.2.1 then evtPoison s v
    else
      let i := mget (fun _ => (0 : Int)) (s.vc v).acc n
      let bad := (s.vc v).accPoison.contains n
      let u := neuronStep (leNat g.1) i nn
      let s := writeWord s (evAgent v) (neuronAt s v n) (allBytes (leBytes 16 (neuronWord u.2))) bad
      if bad then evtPoison s v else if u.1 then routeSpike s v n else s

/-- The update of VC `v`: every neuron in ascending order, accumulators cleared, its batches closed (R206, R207, R216). -/
def evUpdate (s : State) (v : Nat) : State :=
  let s := (List.range (nneur s v)).foldl (fun s n => updateNeuron s v n) s
  (closeBatches s).modVc v fun x => { x with acc := [], accPoison := [], updated := true }

/-- The stretch of VC `v` (R220): the cc from the close to the last event due in the step; 0 under DROP, and when
delivery had finished before the close. -/
def stretchOf (s : State) (v : Nat) : Nat := if stretches s then (s.vc v).lastDue - s.epc.closeAt else 0

/-- Delivery of VC `v` ends and its update runs; the cc of stretch are noted (R219, R220). -/
def endDelivery (s : State) (v : Nat) : State :=
  evUpdate (s.modVc v fun x => { x with delivEnd := true, stretch := stretchOf s v }) v

/-- DELIVERY_END (R206, R207, R214 to R216, R219, R220, R225, Table 19.7): in DRAIN, under DROP the undelivered due
events are dropped as OVERRUN; under STRETCH delivery ends when none is left. A VC that is not ON stops at once. -/
def execDeliveryEnd (v : Fin 64) (s : State) : Out :=
  if !s.runs || !(s.vc v).evValid || (s.vc v).delivEnd || decide (s.epc.state ≠ .drain) then .next s
  else if !s.isOn v then .next (s.modVc v fun x => { x with delivEnd := true, updated := true, acc := [], accPoison := [] })
  else if !stretches s then .next (endDelivery (dropDue s v 1) v)
  else if dueCount s v = 0 then .next (endDelivery s v)
  else .next s

/-- STRETCH_LIMIT (R220): EVT_STRETCH_MAX cc after the close started, the due events of every VC still delivering are
dropped as STRETCH and delivery ends. -/
def execStretchLimit (s : State) : Out :=
  if !s.runs || decide (s.epc.state ≠ .drain) || !stretches s || decide (s.now < s.epc.closeAt + s.reg 0x0784) then .next s
  else .next ((List.range 64).foldl (fun s v =>
    if (s.vc v).evValid && !(s.vc v).delivEnd && s.isOn v then endDelivery (dropDue s v 2) v else s) s)

/-- Abandonment or the deadline: the undelivered events of a tenant's VCs are dropped under DEADLINE (R32, R221). -/
def evAbandon (s : State) (t : Nat) : State :=
  (List.range 64).foldl (fun s v =>
    if (s.vc v).evValid && decide (evTen s v = t) && !(s.vc v).delivEnd then dropDue s v 3 else s) s

/-- The event plane is drained (R204). -/
def evDrained (s : State) : Bool := (List.range 64).all fun v => !(s.vc v).evValid || (s.vc v).updated

/-- An event of tenant `t` from a batch or ring to every VC with REMOTE_EN, due in step `d` (R217). -/
def remoteEvent (s : State) (t d ev : Nat) : State :=
  let now := s.epc.count
  let ahead := if now ≤ d then d - now else (d + (2 ^ 40 - 1)) - now
  (List.range 64).foldl (fun s v =>
    if !(evEnabled s t v && evRemote s v) then s
    else if !hubOn s || !s.isOn v then evDrop s 8 1
    else if ahead = 0 then
      if delivOver s v then evDrop s 4 1
      else s.modVc v fun x => { x with extra := x.extra ++ [ev] }
    else if ahead ≤ 16 then fileEvent s v d ev
    else if ahead < 2 ^ 39 then evDrop s 5 1
    else evDrop s 4 1) s

end Sys2Proof.Machine
end

