-- ==== Sys2Proof/Machine/Tile.lean ====
section
/-! DEFINITION. Tiles (chapters 05 and 08): how a data descriptor is cut (R108, R124, R167, R179), what a tile reads,
computes and writes, and the commands TILE_EXECUTE and REDUCTION_COMBINE. A tile's work is one step (log entry 30). -/

namespace Sys2Proof.Machine

/-! ### Cutting -/

/-- The class of a descriptor. -/
def clsOf (w : List Nat) : Cls := ((opRow (dOpcode w)).map (·.cls)).getD .control

/-- Dimension sizes of the destination. -/
def dstSizes (recs : List (Option LastRec)) : List Nat := rSizes (recOf recs 4)

/-- Elements of one reduced set: the K innermost dimensions of the source as seen (R107). -/
def setSize (w : List Nat) (recs : List (Option LastRec)) : Nat := countOf ((viewSizes w recs 0).take (dMod w % 8))

/-- The groups of GNORM: the sizes of the dimensions a group index runs over, CDIM in steps of g (R113). -/
def gnormOuter (w ps sizes : List Nat) : List Nat :=
  let g := bits (ps.getD 1 0) 15 0
  let span := bits (ps.getD 1 0) 21 16
  (List.range sizes.length).map fun k =>
    if k = dMod w % 8 then sizes.getD k 1 / g else if bit span k then 1 else sizes.getD k 1

/-- Blocks along the two innermost dimensions of a shape, and 32×32 blocks in all (R179). -/
def blocksIn (d : List Nat) : Nat × Nat := ((d.getD 0 1 + 31) / 32, (d.getD 1 1 + 31) / 32)
def blockCnt (d : List Nat) : Nat := (blocksIn d).1 * (blocksIn d).2 * countOf (d.drop 2)

/-- A TRANS bit cuts the descriptor into blocks of the destination (R179); SCATTER keeps the tiles of R167, whose order
its contributions follow (log entry 90). -/
def inBlocks (w : List Nat) : Bool := dTrans w != 0 && dOpcode w != 0x93

/-- The number of tiles of a data descriptor. -/
def tileCount (w : List Nat) (recs : List (Option LastRec)) (ps : List Nat) : Nat :=
  match clsOf w with
  | .control => 0
  | .scalar => 0
  | .event => 1
  | _ =>
  if inBlocks w then blockCnt (dstSizes recs) else
  match clsOf w with
  | .awl => (countOf (viewSizes w recs 1) + 1023) / 1024
  | .row =>
    let a := viewSizes w recs 0
    if dOpcode w = 0x73 then countOf (gnormOuter w ps a) else countOf (a.drop 1)
  | .red => let z := setSize w recs; let m := countOf ((viewSizes w recs 0).drop (dMod w % 8))
            if 1024 < z then m * ((z + 1023) / 1024) else (m + 1024 / z - 1) / (1024 / z)
  | .redsfu => let z := setSize w recs; let m := countOf ((viewSizes w recs 0).drop (dMod w % 8))
               if 1024 < z then m * ((z + 1023) / 1024) else (m + 1024 / z - 1) / (1024 / z)
  | _ =>
    (countOf (dstSizes recs) + 1023) / 1024

/-- The flat range of tile `k` of 1,024 elements of a shape. -/
def flatTile (sizes : List Nat) (k : Nat) : List (List Nat) :=
  ((List.range 1024).filter fun i => decide (1024 * k + i < countOf sizes)).map fun i => unflat sizes (1024 * k + i)

/-- The indices of 32×32 block `k` of a shape, in flat order (R179). -/
def blockTile (d : List Nat) (k : Nat) : List (List Nat) :=
  let n := blocksIn d
  let b0 := k % n.1
  let b1 := k / n.1 % n.2
  let rest := unflat (d.drop 2) (k / n.1 / n.2)
  (List.range 32).flatMap fun j => ((List.range 32).filter fun i =>
      decide (32 * b0 + i < d.getD 0 1) && decide (32 * b1 + j < d.getD 1 1)).map fun i =>
    if d.length ≤ 1 then [32 * b0 + i] else (32 * b0 + i) :: (32 * b1 + j) :: rest

/-- The destination indices of tile `k` of an element-wise descriptor or a GATHER, in flat order (R124, R167, R179). -/
def elemTile (w : List Nat) (recs : List (Option LastRec)) (k : Nat) : List (List Nat) :=
  let d := dstSizes recs
  if inBlocks w then blockTile d k else flatTile d k

/-- The sets tile `k` of a reduction holds, each with the first element and the number of elements taken (R108); a block
tile holds the whole sets of its destination elements (R179). -/
def redTileSets (w : List Nat) (recs : List (Option LastRec)) (k : Nat) : List (Nat × Nat × Nat) :=
  let z := setSize w recs
  let m := countOf ((viewSizes w recs 0).drop (dMod w % 8))
  if inBlocks w then
    (blockTile (dstSizes recs) k).map fun i => (flatOf ((viewSizes w recs 0).drop (dMod w % 8)) (i.drop (dMod w % 8)), 0, z)
  else if 1024 < z then
    let per := (z + 1023) / 1024
    [(k / per, k % per * 1024, min 1024 (z - k % per * 1024))]
  else ((List.range (1024 / z)).map fun i => k * (1024 / z) + i).filterMap fun i => if i < m then some (i, 0, z) else none

/-- The source indices of row or group `k` of a row operation, in order (§05.7, R113). -/
def rowTile (w ps sizes : List Nat) (k : Nat) : List (List Nat) :=
  if dOpcode w = 0x73 then
    let g := bits (ps.getD 1 0) 15 0
    let span := bits (ps.getD 1 0) 21 16
    let c := dMod w % 8
    let base := unflat (gnormOuter w ps sizes) k
    let inner := (List.range sizes.length).map fun j => if j = c then g else if bit span j then sizes.getD j 1 else 1
    (List.range (countOf inner)).map fun i =>
      let off := unflat inner i
      (List.range sizes.length).map fun j => (if j = c then g * base.getD j 0 else base.getD j 0) + off.getD j 0
  else
    let rest := unflat (sizes.drop 1) k
    (List.range (sizes.getD 0 0)).map fun i => i :: rest

/-- The row or group a destination index of a row operation lies in. -/
def rowOf (w ps sizes idx : List Nat) : Nat :=
  if dOpcode w = 0x73 then
    let g := bits (ps.getD 1 0) 15 0
    let span := bits (ps.getD 1 0) 21 16
    flatOf (gnormOuter w ps sizes) ((List.range sizes.length).map fun j =>
      if j = dMod w % 8 then idx.getD j 0 / g else if bit span j then 0 else idx.getD j 0)
  else flatOf (sizes.drop 1) (idx.drop 1)

/-! ### Loading operands -/

/-- The tile's load path as a requester. -/
def loadAgent (q n v : Nat) : Agent := { kind := .tile q n, cls := 0, unit := v }

/-- The source index of a view index: the two innermost dimensions swapped under TRANS (§08.5). -/
def viewIdx (w : List Nat) (o : Nat) (idx : List Nat) : List Nat :=
  match idx with
  | a :: b :: xs => if bit (dTrans w) o then b :: a :: xs else a :: b :: xs
  | xs => xs

/-- The places of an operand's elements at view indices, for VC `v`. -/
def opLocs (s : State) (q v : Nat) (f : Flight) (o : Nat) (idxs : List (List Nat)) : List Loc :=
  let so := ownView s f
  idxs.map fun i => locOf so (s.qTen q) v (recOf f.recs o) (viewIdx f.words o i)

/-- An operand's elements at view indices. -/
def loadOp (s : State) (q v : Nat) (f : Flight) (o : Nat) (idxs : List (List Nat)) : List Elem × State :=
  loadElems s (loadAgent q f.seq v) q f.seq v (opLocs s q v f o idxs)

/-- The operand's elements when it is present, else nothing. -/
def loadIf (s : State) (q v : Nat) (f : Flight) (o : Nat) (idxs : List (List Nat)) : List Elem × State :=
  if dHas f.words o then loadOp s q v f o idxs else ([], s)

/-- The value of operand `o`'s element. -/
def opNum (f : Flight) (o : Nat) (e : Elem) : Num := elemNum (tyOf f.recs o) e

/-- One result with what contributed to it: operands and whether each element was poisoned. -/
structure ElemRes where
  idx   : List Nat := []
  value : Num := {}
  from_ : List (Nat × Bool) := []
  deriving DecidableEq, Repr

/-- A result poisoned exactly when a contributing element is (R101). -/
def ElemRes.out (r : ElemRes) : List Nat × Num := (r.idx, { r.value with poison := r.from_.any Prod.snd })

/-- POISON_CONSUMED for the first poisoned element of a tile's results, in order. -/
def consume (s : State) (q n v : Nat) (rs : List ElemRes) : State :=
  match rs.findSome? fun r => r.from_.find? Prod.snd with
  | none => s
  | some x => consumePoison s q n v x.1

/-! ### Element-wise tiles -/

/-- The element-wise result of one element (Table 05.5, R104 to R106, R116 to R119, R148). -/
def elemResult (f : Flight) (idx : List Nat) (a b c : Elem) : ElemRes :=
  let w := f.words
  let op := dOpcode w
  let ps := f.params
  let ta := tyOf f.recs 0
  let p0 := ps.getD 0 0
  let sv := scalarVal p0 (bit (dMod w) 1)
  let raw (n : Nat) : Num := { num := n }
  let ins := (if dHas w 0 then [(0, a.poison)] else []) ++ (if dHas w 1 then [(1, b.poison)] else []) ++
    (if dHas w 2 then [(2, c.poison)] else [])
  let value : Num :=
    if op = 0x17 ∨ op = 0x18 ∨ op = 0x19 then
      raw (if isScalar w then bitwiseScalar op ta a.bits p0 sv else bitwise op (typeBits ta) a.bits b.bits)
    else if op = 0x22 then raw (bitwise op (typeBits ta) a.bits 0)
    else if op = 0x1A ∨ op = 0x1B then
      raw (if isScalar w then shiftScalar op ta a.bits p0 sv
           else shift op (typeBits ta) (ta != 0x0C) a.bits (truncInt (decodeElem (tyOf f.recs 1) b.bits)))
    else if op = 0x90 then raw (a.bits + (if isMX ta then a.scale * 2 ^ 8 else 0))
    else if op = 0x91 then elemNum ta a
    else if op = 0x1E then
      let o := if a.bits = 1 then 1 else 2
      let e := if a.bits = 1 then b else c
      elemNum (tyOf f.recs o) e
    else if op = 0x88 then
      let t := tyOf f.recs 4
      if isP t then raw p0 else if isM t then nInt (p0 % 2) else if isI t then nInt (toSigned 64 p0) else ofFp32 p0
    else if op = 0x89 then
      let m := dMod w
      let k := if bit m 3 then flatOf (dstSizes f.recs) idx else idx.getD (m % 8) 0
      nAdd (pf ps 0) (nMul (pf ps 1) (nInt k))
    else elemOp w ps (opNum f 0 a) (if isScalar w then sv else opNum f 1 b) (if dHas w 2 then opNum f 2 c else {})
  let from_ := if op = 0x1E then [(0, a.poison), (if a.bits = 1 then (1, b.poison) else (2, c.poison))] else ins
  { idx := idx, value := value, from_ := from_ }

/-- The view index of the source of a PERMUTE element (R119). -/
def permSrc (p0 : Nat) (idx : List Nat) : List Nat :=
  (List.range idx.length).map fun k =>
    idx.getD (((List.range idx.length).find? fun t => permField p0 t == k).getD 0) 0

/-- The source view index that gives destination index `idx`. -/
def srcIdx (f : Flight) (idx : List Nat) : List Nat :=
  if dOpcode f.words = 0x91 then permSrc (f.params.getD 0 0) idx else idx

/-- The results of element-wise tile `k`. -/
def elemTileRun (s : State) (q v : Nat) (f : Flight) (k : Nat) : List ElemRes × State :=
  let idxs := elemTile f.words f.recs k
  let src := idxs.map (srcIdx f)
  let a := loadIf s q v f 0 src
  let b := loadIf a.2 q v f 1 src
  let c := loadIf b.2 q v f 2 src
  (idxs.zipIdx.map fun x => elemResult f x.1 (a.1.getD x.2 {}) (b.1.getD x.2 {}) (c.1.getD x.2 {}), c.2)

/-! ### Reductions -/

/-- The lanes of a reduction's rows (Table 05.7): RCSUM 32, RLSE 16, else the rate of the widest operand or result. -/
def redLanes (f : Flight) : Nat :=
  match dOpcode f.words with
  | 0x51 => 32
  | 0x56 => 16
  | _ => min (typeRate (tyOf f.recs 0)) (typeRate (tyOf f.recs 4))

/-- The leaf an element of a reduced set enters. -/
def leafOf (f : Flight) (i : Nat) (e : Elem) : RedAcc :=
  let t := tyOf f.recs 0
  if isP t then
    let v := decodeElem t e.bits
    if v.fin then redLeaf (dOpcode f.words) i (ofFp32 (e.bits % 2 ^ 32)) (ofFp32 (e.bits / 2 ^ 32))
    else redLeaf (dOpcode f.words) i v {}
  else redLeaf (dOpcode f.words) i (elemNum t e).bare {}

/-- Reduction tile `k`: one partial for each set it holds (R108). -/
def redTileRun (s : State) (q v : Nat) (f : Flight) (k : Nat) : State :=
  let sizes := viewSizes f.words f.recs 0
  let z := setSize f.words f.recs
  (redTileSets f.words f.recs k).foldl (fun s x =>
    let idxs := (List.range x.2.2).map fun i => unflat sizes (x.1 * z + x.2.1 + i)
    let r := loadOp s q v f 0 idxs
    let vals := redPartial (dOpcode f.words) (redLanes f) (r.1.zipIdx.map fun e => leafOf f (x.2.1 + e.2) e.1)
    let bad := r.1.any (·.poison)
    let s := if bad then consumePoison r.2 q f.seq v 0 else r.2
    let p : Partial := { tile := k, slot := x.1, vc := v, vals := { poison := bad : Num } :: vals }
    s.modFlight q f.seq fun f => { f with partials := f.partials ++ [p] }) s

/-- The partials of one set combined in ascending tile number: the combining VC and the result (R108, R126). -/
def combineSet (f : Flight) (set_ : Nat) : Nat × Num :=
  let ps := (f.partials.filter fun p => p.slot == set_).mergeSort fun a b => decide (a.tile ≤ b.tile)
  let op := dOpcode f.words
  let acc := match ps with
    | [] => redId op
    | p :: rest => rest.foldl (fun a p => redJoin op a (p.vals.drop 1)) (p.vals.drop 1)
  ((ps.headD {}).vc, { redResult op acc with poison := ps.any fun p => (p.vals.headD {}).poison })

/-! ### Row operations -/

/-- The length of a RAGGED row: R102 and R162 under the mode of source 0; the elements consumed for it. -/
def raggedLen (s : State) (q v : Nat) (f : Flight) (idxs : List (List Nat)) : Nat × Bool × State :=
  let n := idxs.length
  if !isRagged f.words then (n, false, s)
  else
    let r := loadOp s q v f 3 [0 :: (idxs.headD []).drop 1]
    let e := r.1.headD {}
    let len := toSigned 32 e.bits
    if 0 ≤ len ∧ len ≤ n then (len.toNat, e.poison, r.2)
    else if rFault (recOf f.recs 0) then
      (0, e.poison, flightOnce r.2 q f.seq 0x21 v 1 (3 + ofSigned 32 len * 2 ^ 32))
    else (if len < 0 then 0 else n, e.poison, r.2)

/-- The ε of a normalisation. -/
def epsOf (f : Flight) : Num := pf f.params 0

/-- The outputs of one row or group by position, from its values, its γ (or mask) and its β (R110 to R114). -/
def rowValues (f : Flight) (xs g b : List Num) : List Num :=
  let op := dOpcode f.words
  let at_ (l : List Num) (i : Nat) (d : Num) : Num := l.getD i d
  match op with
  | 0x60 => scan op (bit (dMod f.words) 0) xs
  | 0x61 => scan op (bit (dMod f.words) 0) xs
  | 0x71 => rmsNorm (epsOf f) (xs.zipIdx.map fun x => (x.1, at_ g x.2 (nInt 1)))
  | 0x72 => softMax (xs.zipIdx.map fun x => if (at_ g x.2 (nInt 1)).num = 0 then nInf true else x.1)
  | _ => layerNorm (epsOf f) (xs.zipIdx.map fun x => (x.1, at_ g x.2 (nInt 1), at_ b x.2 {}))

/-- COMPACT of one row: the kept values, then +0 (R110). -/
def compactRow (f : Flight) (xs ms : List Elem) : List Num × Nat :=
  let t := tyOf f.recs 0
  let keep := (xs.zipIdx.filter fun x => (ms.getD x.2 {}).bits == 1).map fun x => (elemNum t x.1).bare
  (keep ++ List.replicate (xs.length - keep.length) (nZero false), keep.length)

/-- Row or group `k`: its results with the operands' poison; COMPACT adds its count when `counts`. -/
def rowRun (s : State) (q v : Nat) (f : Flight) (k : Nat) (counts : Bool) : List ElemRes × State :=
  let w := f.words
  let op := dOpcode w
  let idxs := rowTile w f.params (viewSizes w f.recs 0) k
  let r := raggedLen s q v f idxs
  let live := idxs.take r.1
  let x := loadOp r.2.2 q v f 0 live
  let g := loadIf x.2 q v f 1 live
  let b := loadIf g.2 q v f 2 live
  let from_ := [(0, x.1.any (·.poison)), (1, g.1.any (·.poison)), (2, b.1.any (·.poison)), (3, r.2.1)]
  let nums (o : Nat) (es : List Elem) : List Num := es.map fun e => (opNum f o e).bare
  if op = 0x62 then
    let c := compactRow f x.1 g.1
    let s := if counts then b.2.modFlight q f.seq fun f =>
      { f with count := f.count + c.2, cntPoison := f.cntPoison || g.1.any (·.poison) } else b.2
    (idxs.zipIdx.map fun i => { idx := i.1, value := c.1.getD i.2 {}, from_ := from_ }, s)
  else if op = 0x68 then
    let kk := bits (f.params.getD 0 0) 15 0
    let top := topk (bit (dMod w) 0) kk (nums 0 x.1)
    let rest := (idxs.headD []).drop 1
    let outIdx := bit (dMod w) 1
    ((List.range kk).map fun j =>
      let val := match top[j]? with
        | some y => if outIdx then nInt y.1 else y.2
        | none => if outIdx then nInt (-1) else nNaN
      { idx := j :: rest, value := val, from_ := from_ }, b.2)
  else
    let ys := rowValues f (nums 0 x.1) (nums 1 g.1) (nums 2 b.1)
    (idxs.zipIdx.map fun i => { idx := i.1, value := if i.2 < r.1 then ys.getD i.2 (nZero false) else nZero false, from_ := from_ }, b.2)

/-- Row tile `k`: one row or group; a block tile delivers what lies in its block of each row it meets (R124, R179). -/
def rowTileRun (s : State) (q v : Nat) (f : Flight) (k : Nat) : List ElemRes × State :=
  if !inBlocks f.words then rowRun s q v f k true
  else
    let blk := blockTile (dstSizes f.recs) k
    let row := rowOf f.words f.params (viewSizes f.words f.recs 0)
    (distinct (blk.map row)).foldl (fun acc r =>
      let x := rowRun acc.2 q v f r ((blk.find? fun i => row i == r).any fun i => i.headD 0 == 0)
      (acc.1 ++ x.1.filter fun e => blk.contains e.idx, x.2)) ([], s)

/-! ### Gather -/

/-- An index against a size under the mode of the record it addresses (R102, R162): none under FAULT. -/
def resolveIdx (fault : Bool) (size : Nat) (i : Int) : Option Nat :=
  if 0 ≤ i ∧ i < size then some i.toNat else if fault then none else some (if i < 0 then 0 else size - 1)

/-- The tenant address of a place in HBM. -/
def taOf (s : State) (t : Nat) (l : Loc) : Nat := s.winT t l.home.win + (l.bit / 8 - s.winP t l.home.win)

/-- The home Awl of an element of tenant `t` (R169). A Cobbler's local memory counts as at its node (R123; log entry 33). -/
def homeAwl (s : State) (t : Nat) (l : Loc) : Nat :=
  if 2 ≤ l.home.space then (l.home.space - 2) % 8
  else if l.home.space = 0 then taOf s t l / 256 % 8
  else if l.bit / 8 < 2 ^ 27 then l.bit / 8 / 2 ^ 21 / 8
  else (l.bit / 8 - 2 ^ 27) / 2 ^ 16 / 4 * 2

/-- A value the spec does not state, poisoned where it is used (log entry 23): FP32 for a value, both halves of a pair. -/
def freeNum (s : State) (raw : Bool) : Num × State :=
  let w (i : Nat) : Nat := (Config.freeWord (s.freeCtr + i)).toNat
  (if raw then { num := w 0 + w 1 * 2 ^ 32 } else ofFp32 (w 0), s.tick1.tick1)

/-- UNIT_OFF, once for a descriptor (Table 19.7). -/
def awlOff (s : State) (q n h : Nat) : State := flightOnce s q n 0x70 (80 + h) 1 (80 + h)

/-- The signed value of an index element. -/
def idxVal (e : Elem) : Int := toSigned 32 e.bits

/-- A logical index with AXIS replaced. -/
def atAxis (f : Flight) (idx : List Nat) (i : Nat) : List Nat := setAt idx (dMod f.words % 8) i

/-- What an index of a GATHER selects: nothing where it is poisoned or out of bounds under FAULT (R101, R102). -/
def gatherPick (f : Flight) (idx : List Nat) (e : Elem) : Option (List Nat) :=
  if e.poison then none
  else (resolveIdx (rFault (recOf f.recs 0)) ((viewSizes f.words f.recs 0).getD (dMod f.words % 8) 0) (idxVal e)).map (atAxis f idx)

/-- GATHER tile `k` (R101, R102, R120, R170): indices first, then row by row of 32 indices each distinct word or line of the
selected elements. -/
def gatherTileRun (s : State) (q v : Nat) (f : Flight) (k : Nat) : List ElemRes × State :=
  let t := s.qTen q
  let n := f.seq
  let idxs := elemTile f.words f.recs k
  let ix := loadOp s q v f 1 idxs
  let src := recOf f.recs 0
  let size := (viewSizes f.words f.recs 0).getD (dMod f.words % 8) 0
  let raw := isP (tyOf f.recs 0)
  let so := ownView s f
  let pick : List (Option Loc) := idxs.zipIdx.map fun x =>
    (gatherPick f x.1 (ix.1.getD x.2 {})).map fun i => locOf so t v src (viewIdx f.words 0 i)
  let on (l : Loc) : Bool := s.isOn (80 + homeAwl s t l)
  let got := (rowsOf 32 pick.length pick).foldl (fun (acc : List (Loc × Elem) × State) row =>
    let ls := row.filterMap fun l => l.filter on
    let r := loadElems acc.2 (loadAgent q n v) q n v ls
    (acc.1 ++ ls.zip r.1, r.2)) ([], ix.2)
  let off := (pick.filterMap id).find? fun l => !on l
  let s := match off with
    | some l => awlOff got.2 q n (homeAwl s t l)
    | none => got.2
  let s := match (ix.1.find? fun e => !e.poison && (resolveIdx (rFault src) size (idxVal e)).isNone) with
    | some e => flightOnce s q n 0x21 (80 + v / 8) 1 (ofSigned 32 (idxVal e) * 2 ^ 32)
    | none => s
  let fr := freeNum s raw
  let res : List ElemRes := idxs.zipIdx.map fun x =>
    let e := ix.1.getD x.2 {}
    if e.poison then { idx := x.1, value := fr.1, from_ := [(1, true)] }
    else match pick.getD x.2 none with
      | none => { idx := x.1 }
      | some l =>
        match got.1.find? fun y => y.1 = l with
        | none => { idx := x.1, from_ := [(0, true)] }
        | some y => { idx := x.1, value := if raw then { num := y.2.bits } else opNum f 0 y.2, from_ := [(1, false), (0, y.2.poison)] }
  (res, fr.2)

/-! ### Events -/

/-- The tile of an EV_EMIT or EV_COUNT as a requester of neuron words. -/
def evTileAgent (q n v : Nat) : Agent := { kind := .tile q n, cls := 3, unit := v }

/-- Neuron word `n` of VC `v` with SCOUNT replaced by `g` of it for EV_EMIT or EV_COUNT; its old SCOUNT and poison (R223,
R225). DEDUCED: a record of the word's error carries the descriptor's tag, since its tile issues the access (R52; log
entry 91). -/
def scountMod (s : State) (a : Agent) (v n : Nat) (g : Nat → Nat) : Nat × Bool × State :=
  let r := readWord s a (neuronAt s v n)
  let w := leNat r.1
  let sc := bits w 79 64
  let s := if r.2.1 then evtPoison r.2.2 v else r.2.2
  let w := w - sc * 2 ^ 64 + g sc * 2 ^ 64
  (sc, r.2.1, writeWord s a (neuronAt s v n) (allBytes (leBytes 16 w)) r.2.1)

/-- EV_EMIT (R122, R223): each element at or above the threshold enters a spike, routed and counted. -/
def emitRun (s : State) (q v : Nat) (f : Flight) : State :=
  let idxs := (List.range (rSize (recOf f.recs 0) 0)).map fun i => [i]
  let r := loadOp s q v f 0 idxs
  let s := if r.1.any (·.poison) then consumePoison r.2 q f.seq v 0 else r.2
  let u := rVc (recOf f.recs 0)
  let first := bits (f.params.getD 1 0) 9 0
  let thr := pf f.params 0
  let hits := (r.1.zipIdx.filter fun e => let x := opNum f 0 e.1; !x.nan && !thr.nan && !nLt x thr).map Prod.snd
  let s := hits.foldl (fun s i =>
    routeSpike (scountMod s (evTileAgent q f.seq v) u (first + i) fun c => min 0xFFFF (c + 1)).2.2 u (first + i)) s
  (closeBatches s).modFlight q f.seq fun f =>
    { f with count := f.count + hits.length, cntPoison := f.cntPoison || r.1.any (·.poison) }

/-- EV_COUNT (R122, R223): SCOUNT of each neuron, and its word rewritten with SCOUNT at 0. -/
def countRun (s : State) (q v : Nat) (f : Flight) : List ElemRes × State :=
  let u := bits (f.params.getD 0 0) 5 0
  let first := bits (f.params.getD 1 0) 9 0
  let r := (List.range (rSize (recOf f.recs 4) 0)).foldl (fun (acc : List ElemRes × State) i =>
    let x := scountMod acc.2 (evTileAgent q f.seq v) u (first + i) fun _ => 0
    (acc.1 ++ [{ idx := [i], value := nInt x.1, from_ := [(4, x.2.1)] }], x.2.2)) ([], s)
  r

/-! ### Remote operands -/

/-- A word or line as a load of VC `v` now finds it, without the effects of a read. -/
def peekUnit (s : State) (q n v : Nat) (k : UnitKey) : CacheUnit :=
  let bad (e : Err) : Bool := e == .ue || e == .poison
  if k.space = 0 then
    let c := s.lineSeen (hbmRank (loadAgent q n v)) k.no
    { key := k, bytes := c.bytes, poison := !hbmOn s k.no || bad c.err }
  else if k.space = 1 then
    let c := s.wordSeen 0 k.no
    { key := k, bytes := if c.valid then c.bytes else List.replicate 16 0
      poison := s.eff (sramUnit k.no) == 0 || mget (fun _ => false) s.mem.badPar (k.no / 32) || (c.valid && bad c.err) }
  else
    let l := (((s.flightAt q n).getD {}).lines.find? (lineFits k)).getD { poison := true }
    { key := k, bytes := l.data, poison := l.poison }

/-- The remote lines of places. -/
def remoteUnits (ls : List Loc) : List UnitKey := (unitsOf ls).filter fun u => decide (2 ≤ u.space)

/-- The elements tile `k` reads, operand by operand in view indices: what it asks of an owner at once (R165). A GATHER
asks by its source row by row of 32 indices, once its indices are here (R170). -/
def tileReads (s : State) (q v : Nat) (f : Flight) (k : Nat) : List (Nat × List (List Nat)) :=
  let w := f.words
  let red : List (Nat × List (List Nat)) := (redTileSets w f.recs k).map fun x =>
    (0, (List.range x.2.2).map fun i => unflat (viewSizes w f.recs 0) (x.1 * setSize w f.recs + x.2.1 + i))
  let all (idxs : List (List Nat)) : List (Nat × List (List Nat)) := [(0, idxs), (1, idxs), (2, idxs)]
  match clsOf w with
  | .red => red
  | .redsfu => red
  | .row =>
    let rows := if inBlocks w then
        distinct ((blockTile (dstSizes f.recs) k).map (rowOf w f.params (viewSizes w f.recs 0))) else [k]
    rows.flatMap fun r =>
      let idxs := rowTile w f.params (viewSizes w f.recs 0) r
      all idxs ++ [(3, [0 :: (idxs.headD []).drop 1])]
  | .awl =>
    if dOpcode w = 0x93 then let idxs := flatTile (viewSizes w f.recs 1) k; [(1, idxs), (0, idxs)]
    else
      let idxs := elemTile w f.recs k
      let ls := opLocs s q v f 1 idxs
      if !linesHere f (remoteUnits ls) then [(1, idxs)]
      else
        let cache := (unitsOf ls).map (peekUnit s q f.seq v)
        (1, idxs) :: (rowsOf 32 idxs.length (idxs.zip ls)).map fun row =>
          (0, row.filterMap fun x => gatherPick f x.1 (elemAt cache x.2))
  | .event => []
  | .control => []
  | .scalar => []
  | _ => all ((elemTile w f.recs k).map (srcIdx f))

/-- The owner operands among those a tile reads. -/
def ownReads (f : Flight) (rs : List (Nat × List (List Nat))) : List (Nat × List (List Nat)) :=
  rs.filter fun x => dHas f.words x.1 && rOwn (recOf f.recs x.1)

/-- The remote lines tile `k` needs before it can run (R165): of its operands, each once for the tile, or once for each
index row of a GATHER (R170); and of a mask destination's shared bytes. -/
def tileNeeds (s : State) (q v : Nat) (f : Flight) (k : Nat) : List UnitKey :=
  let w := f.words
  let rs := ownReads f (tileReads s q v f k)
  let each := rs.map fun x => remoteUnits (opLocs s q v f x.1 x.2)
  let d := recOf f.recs 4
  let kept := if rOwn d && isM (rType d) && !(([.red, .redsfu, .row, .awl, .event] : List Cls).contains (clsOf w)) then
      keptLines (((plainPuts s (s.qTen q) v w f.recs d ((elemTile w f.recs k).map fun i => (i, ({} : Num)))).filter
        fun p => p.home.bad.isNone).foldl addPut [])
    else []
  (if dOpcode w = 0x92 then each.flatten else distinct each.flatten) ++ kept

/-- The owner entries that tile `k`'s accesses go by from now on, as they stand (Table 02.7). -/
def ownSnaps (s : State) (q v : Nat) (f : Flight) (k : Nat) : List OwnSnap :=
  let es := distinct ((ownReads f (tileReads s q v f k)).flatMap fun x =>
    let r := recOf f.recs x.1
    x.2.map fun i => rOwnBase r + blockOf r (viewIdx f.words x.1 i))
  (es.filter fun e => !f.owns.any fun o => o.entry == e).map fun e =>
    { tile := k, entry := e, words := (List.range 3).map (s.tw 7 e) }

/-! ### Results and completion -/

/-- What a result at destination element 0 delivers to SR_OUT (R100): the element as it is stored. An MX destination
notes it where its block is encoded. -/
def noteSr (s : State) (q : Nat) (f : Flight) (rs : List (List Nat × Num)) : State :=
  match rs.find? fun r => r.1.all (· == 0) with
  | none => s
  | some r =>
    if isMX (tyOf f.recs 4) then s
    else s.modFlight q f.seq fun f => { f with srOut := some (srDeliver (tyOf f.recs 4) (encodeRes f.words f.recs r.2).bits 0 r.2.poison) }

/-- A tile has run: one more of its descriptor's tiles is done, and with the last the work of every class but
reductions and SCATTER is complete (R64). -/
def tileDone (s : State) (q n : Nat) : State :=
  s.modFlight q n fun f =>
    let d := f.done + 1
    let waits := clsOf f.words == .red || clsOf f.words == .redsfu || dOpcode f.words == 0x93
    { f with done := d, complete := f.complete || (!waits && decide (f.tiles ≤ d)) }

end Sys2Proof.Machine
end

