-- ==== Sys2Proof/Machine/Awl.lean ====
section
/-! DEFINITION. The Awl units (chapter 08): a SCATTER tile's contributions on their way (R168, R171), the home Awl's
reorder buffer and combine tables (R172, R173, R175, R176), and the commands TILE_EXECUTE, REDUCTION_COMBINE,
CONTRIBUTION, END_MARKER, SCATTER_WRITEBACK and TILE_RESUME. -/

namespace Sys2Proof.Machine

/-! ### Contributions -/

/-- COMB of a SCATTER: 0 WRITE, 1 ADD, 2 MAX, 3 MIN, 4 CADD. -/
def scComb (f : Flight) : Nat := bits (dMod f.words) 6 4

/-- The messages of one home of an Awl unit. -/
def awlOut (s : State) (y h : Nat) : List ScMsg := mget (fun _ => ([] : List ScMsg)) (s.awl y).out h

/-- An Awl unit with the messages to one home replaced. -/
def setAwlOut (s : State) (y h : Nat) (ms : List ScMsg) : State :=
  s.modAwl y fun a => { a with out := mset (fun _ => ([] : List ScMsg)) a.out h ms }

/-- What a source element contributes: its value, a pair as hi and lo (R120); a pair that is not finite enters as its
value (R139, R147). -/
def scValue (f : Flight) (e : Elem) : List Num :=
  if isP (tyOf f.recs 0) then
    let v := elemNum (tyOf f.recs 0) e
    if v.fin then [{ ofFp32 (e.bits % 2 ^ 32) with poison := e.poison }, ofFp32 (e.bits / 2 ^ 32)] else [v, {}]
  else [opNum f 0 e]

/-- The mark under which a SCATTER keeps the owner entries its tile `k` formed destination addresses through (R168). -/
def dstMark (k : Nat) : Nat := 2 ^ 64 + k

/-- `s` as the accesses of descriptor `f` under mark `m` see its owner entries (Table 02.7). -/
def viewAt (s : State) (f : Flight) (m : Nat) : State := ownView s { f with owns := f.owns.filter fun o => o.tile == m }

/-- The owner entries tile `k` of a SCATTER forms its destination addresses through, as they stand (R168, Table 02.7). -/
def dstSnaps (s : State) (d : LastRec) (k : Nat) (idxs : List (List Nat)) : List OwnSnap :=
  if rOwn d then (distinct (idxs.map fun i => rOwnBase d + blockOf d i)).map fun e =>
    { tile := dstMark k, entry := e, words := (List.range 3).map (s.tw 7 e) }
  else []

/-- SCATTER tile `k` in VC `v`: each index resolved, each contribution sent to its home in source order, then the tile's
end marker to all eight (R101, R102, R164, R168, R171, Table 19.7). -/
def scatterTileRun (s : State) (q v : Nat) (f : Flight) (k : Nat) : State :=
  let t := s.qTen q
  let n := f.seq
  let y := v / 8
  let d := recOf f.recs 4
  let size := rSize d (dMod f.words % 8)
  let idxs := flatTile (viewSizes f.words f.recs 1) k
  let ix := loadOp s q v f 1 idxs
  let src := loadOp ix.2 q v f 0 idxs
  let dsts := (idxs.zip ix.1).filterMap fun x =>
    if x.2.poison then none else (resolveIdx (rFault d) size (idxVal x.2)).map (atAxis f x.1)
  let s0 := src.2.modFlight q n fun x => { x with owns := x.owns ++ dstSnaps s d k dsts }
  let s := idxs.zipIdx.foldl (fun s x =>
    let e := ix.1.getD x.2 {}
    let val := src.1.getD x.2 {}
    if e.poison then consumePoison s q n v 1
    else match resolveIdx (rFault d) size (idxVal e) with
      | none => flightOnce s q n 0x21 (80 + y) 1 (4 + ofSigned 32 (idxVal e) * 2 ^ 32)
      | some i =>
        let di := atAxis f x.1 i
        let l := locOf s t v d di
        let s := if val.poison then consumePoison s q n v 0 else s
        if l.home.bad.isSome then refuse s q n v [l]
        else
          let h := homeAwl s t l
          if !s.isOn (80 + h) then awlOff s q n h
          else setAwlOut s y h (awlOut s y h ++
            [{ queue := q, seq := n, tile := k, dst := flatOf (rSizes d) di, vc := v, value := scValue f val }])) s0
  (List.range 8).foldl (fun s h =>
    setAwlOut s y h (awlOut s y h ++ [{ queue := q, seq := n, tile := k, marker := true }])) s

/-! ### TILE_EXECUTE -/

/-- The work of a tile: operands read, results computed and stored, or contributions sent. -/
def runTile (s : State) (q v : Nat) (f : Flight) (k : Nat) : State :=
  let finish (r : List ElemRes × State) : State :=
    storeResults (consume r.2 q f.seq v r.1) q f.seq v k f (r.1.map ElemRes.out)
  match clsOf f.words with
  | .control => s
  | .scalar => s
  | .red => redTileRun s q v f k
  | .redsfu => redTileRun s q v f k
  | .row => finish (rowTileRun s q v f k)
  | .awl => if dOpcode f.words = 0x92 then finish (gatherTileRun s q v f k) else scatterTileRun s q v f k
  | .event => if dOpcode f.words = 0xA0 then emitRun s q v f else finish (countRun s q v f)
  | _ => finish (elemTileRun s q v f k)

/-- A tile is for an Awl unit, which has not taken it yet. -/
def awlWaits (s : State) (t : Tile) : Bool :=
  match s.flightAt t.queue t.seq with
  | some f => clsOf f.words == .awl && !f.taken.contains t.no
  | none => false

/-- The place of a tile in the order of R168: the earliest-issued descriptor, then the lowest tile. -/
def tileKey (s : State) (q n k : Nat) : Nat := issueOrd s q n * 2 ^ 64 + k

/-- The source Awl of VC `v`'s row takes this tile now: of the tiles at the front of its row's VCs none comes before
it (R168). -/
def awlTurn (s : State) (v : Nat) (t : Tile) : Bool :=
  !awlWaits s t || (List.range 8).all fun i =>
    match (s.vc (v / 8 * 8 + i)).tiles with
    | [] => true
    | u :: _ => !awlWaits s u || decide (tileKey s t.queue t.seq t.no ≤ tileKey s u.queue u.seq u.no)

/-- A tile waits for its remote lines: its accesses go by the owner entries as they now stand, and its READs are formed
(R165, Table 02.7). -/
def tileAsks (s : State) (v : Nat) (t : Tile) (f : Flight) (ks : List UnitKey) : State :=
  let s := s.modFlight t.queue t.seq fun x =>
    { x with owns := x.owns ++ ownSnaps s t.queue v f t.no
             taken := if x.taken.contains t.no then x.taken else t.no :: x.taken }
  formReads s t.queue t.seq (tagOf f.words) ks

/-- A tile has run: the lines read for it and the owner entries its reads went by are let go. -/
def tileLeaves (s : State) (t : Tile) (ks : List UnitKey) : State :=
  (dropLines s t.queue t.seq ks).modFlight t.queue t.seq fun x =>
    { x with owns := x.owns.filter (fun o => o.tile != t.no), taken := x.taken.filter (· != t.no) }

/-- TILE_EXECUTE (R95 to R122, R125, R139, R149, R150, R165, R168): the tile at the front of VC `v`'s input queue runs,
an Awl tile in its turn. One with remote operands first forms its READs and runs once their lines are there. -/
def execTileExecute (v : Fin 64) (s : State) : Out :=
  if !s.runs then .next s
  else match (s.vc v).tiles with
    | [] => .next s
    | t :: rest =>
      match s.flightAt t.queue t.seq with
      | none => .next (s.modVc v fun x => { x with tiles := rest })
      | some f0 =>
        let f := { f0 with owns := f0.owns.filter fun o => o.tile == t.no }
        let ks := tileNeeds s t.queue v f t.no
        if !awlTurn s v t then .next s
        else if !linesHere f ks then .next (tileAsks s v t f ks)
        else
          let s := runTile (s.modVc v fun x => { x with tiles := rest }) t.queue v f t.no
          .next (tileDone (tileLeaves s t ks) t.queue t.seq)

/-! ### REDUCTION_COMBINE -/

/-- The sets of a reduction whose every tile is among the first `tiles`. -/
def wholeSets (f : Flight) : List Nat :=
  let z := setSize f.words f.recs
  let m := countOf ((viewSizes f.words f.recs 0).drop (dMod f.words % 8))
  if inBlocks f.words then (List.range f.tiles).flatMap fun k => (redTileSets f.words f.recs k).map Prod.fst
  else (List.range m).filter fun i =>
    decide ((if 1024 < z then (i + 1) * ((z + 1023) / 1024) else i / (1024 / z) + 1) ≤ f.tiles)

/-- REDUCTION_COMBINE (R108, R109, R126): once every tile of the oldest reduction of queue `q` has run, each set's
partials are combined in ascending tile number, and the combining VC writes the result. -/
def execReductionCombine (q : Fin 64) (s : State) : Out :=
  if !s.runs then .next s
  else match (s.q q).flight.find? fun f =>
      (clsOf f.words == .red || clsOf f.words == .redsfu) && !f.combined && decide (f.tiles ≤ f.done) with
    | none => .next s
    | some f =>
      let sizes := rSizes (recOf f.recs 4)
      let rs := (wholeSets f).map fun i => let c := combineSet f i; (c.1, unflat sizes i, c.2)
      let s := s.modFlight q f.seq fun f => { f with combined := true, partials := [] }
      let s := noteSr s q f (rs.map Prod.snd)
      let s := (distinct (rs.map Prod.fst)).foldl (fun s v =>
        storeResults s q f.seq v 0 f ((rs.filter fun r => r.1 == v).map Prod.snd)) s
      .next (s.modFlight q f.seq fun f => { f with complete := true })

/-! ### The home Awl -/

/-- A message belongs to a tile. -/
def ofTile (m : ScMsg) (t : Tile) : Bool := m.queue == t.queue && m.seq == t.seq && m.tile == t.no

/-- The message a source Awl sends next to a home: the first of the tile that comes first in the order of R168 among
those not suspended (R171, R175). -/
def nextMsg (s : State) (y h : Nat) : Option ScMsg :=
  let key (m : ScMsg) : Nat := tileKey s m.queue m.seq m.tile
  ((awlOut s y h).filter fun m => !(s.awl y).suspended.any (ofTile m)).foldl (fun best m =>
    match best with
    | some b => if key m < key b then some m else best
    | none => some m) none

/-- `s` with a message taken off its way. -/
def dropMsg (s : State) (y h : Nat) (m : ScMsg) : State := setAwlOut s y h ((awlOut s y h).erase m)

/-- The job of a message at its home. -/
def jobOf (a : AwlSt) (m : ScMsg) : Option ScJob := a.jobs.find? fun j => j.queue == m.queue && j.seq == m.seq

/-- The home Awl replaces one of its jobs. -/
def setJob (a : AwlSt) (j : ScJob) : AwlSt :=
  { a with jobs := a.jobs.map fun x => if x.queue = j.queue ∧ x.seq = j.seq then j else x }

/-- Contributions the reorder buffer holds. -/
def heldMsgs (a : AwlSt) : Nat := (a.jobs.map fun j => j.held.length).sum

/-- A job is the one served, and the message's tile the lowest not yet applied (R172, R175). -/
def atHead (a : AwlSt) (j : ScJob) (m : ScMsg) : Bool := a.jobs.head? == some j && m.tile == j.applied

/-- The home accepts a contribution (R175): always of the tile at the head, else while 7,168 are not held. -/
def accepts (a : AwlSt) (m : ScMsg) : Bool :=
  match jobOf a m with
  | none => true
  | some j => atHead a j m || decide (heldMsgs a < 7168)

/-- An entry of the combine table is of this destination element; a LOCAL one of this VC. -/
def sameDst (d : LastRec) (m : ScMsg) (c : Comb) : Bool := c.dst == m.dst && (!rLocal d || c.vc == m.vc)

/-- Contributions poisoned stay poisoned. -/
def withPoison (p : Bool) (v : List Num) : List Num :=
  match v with
  | x :: xs => { x with poison := p } :: xs
  | [] => []

/-- A contribution combined with an entry, or entered (Table 08.2): sums in WF, extremes, csum pairs; the last for WRITE. -/
def combIn (comb : Nat) (old : Option (List Num)) (new : List Num) : List Num :=
  let p := (nth new 0).poison || (old.any fun o => (nth o 0).poison && comb != 0)
  withPoison p (match comb, old with
    | 1, some o => [wAdd (nth o 0) (nth new 0)]
    | 2, some o => [nMax (nth o 0) (nth new 0)]
    | 3, some o => [nMin (nth o 0) (nth new 0)]
    | 4, o =>
      let a := match o with | some o => (nth o 0, nth o 1) | none => ({}, {})
      let r := new.foldl csumStep a
      [r.1, r.2]
    | _, _ => new)

/-- The home Awl's store path as a requester. -/
def awlAgent (q n h : Nat) : Agent := { kind := .tile q n, cls := 2, unit := 80 + h }

/-- A WRITE contribution waits for the write-back: its element lies behind a REMOTE owner entry, whose line is written
once (R176), or in an MX block, which is stored whole (log entry 35). -/
def writeWaits (so : State) (t v : Nat) (d : LastRec) (idx : List Nat) : Bool :=
  isMX (rType d) || decide (2 ≤ (homeOf so t v d idx).space)

/-- One contribution applied at home `h` (R173, R176, Table 08.2). -/
def applyMsg (s : State) (h : Nat) (m : ScMsg) : State :=
  match s.flightAt m.queue m.seq with
  | none => s
  | some f =>
    let d := recOf f.recs 4
    let t := s.qTen m.queue
    let so := viewAt s f (dstMark m.tile)
    let idx := unflat (rSizes d) m.dst
    if scComb f = 0 ∧ writeWaits so t m.vc d idx = false then
      storePuts s { awlAgent m.queue m.seq h with tile := m.tile } t m.queue m.seq m.vc
        (plainPuts so t m.vc f.words f.recs d [(idx, nth m.value 0)])
    else
      match jobOf (s.awl h) m with
      | none => s
      | some j =>
        let old := j.table.find? (sameDst d m)
        let val := combIn (scComb f) (old.map (·.value)) m.value
        let table := match old with
          | some o => j.table.map fun c => if c = o then { c with value := val } else c
          | none => j.table ++ [{ dst := m.dst, vc := m.vc, tile := m.tile, value := val }]
        s.modAwl h fun a => setJob a { j with table := table }

/-- The job served moves on: past every tile whose end marker is held, applying what is held of the next (R172). -/
def pump : Nat → State → Nat → State
  | 0, s, _ => s
  | k + 1, s, h =>
    match (s.awl h).jobs with
    | [] => s
    | j :: _ =>
      let now := j.held.filter fun m => m.tile == j.applied
      let s := s.modAwl h fun a => setJob a { j with held := j.held.filter fun m => m.tile != j.applied }
      let s := now.foldl (fun s m => applyMsg s h m) s
      if j.ended.contains j.applied then
        match (s.awl h).jobs with
        | [] => s
        | j :: _ => pump k (s.modAwl h fun a => setJob a { j with applied := j.applied + 1 }) h
      else s

/-- CONTRIBUTION (R171 to R173, R175): the next message of `source` to `home` is a contribution: applied when its tile
heads the order, buffered when there is room; refused, its tile is suspended. -/
def execContribution (source home : Fin 8) (s : State) : Out :=
  if !s.runs then .next s
  else match nextMsg s source home with
    | none => .next s
    | some m =>
      if m.marker then .next s
      else if !accepts (s.awl home) m then
        .next (s.modAwl source fun a => { a with suspended := a.suspended ++ [{ queue := m.queue, seq := m.seq, no := m.tile }] })
      else
        let s := dropMsg s source home m
        match jobOf (s.awl home) m with
        | none => .next s
        | some j =>
          if atHead (s.awl home) j m then .next (applyMsg s home m)
          else .next (s.modAwl home fun a => setJob a { j with held := j.held ++ [m] })

/-- END_MARKER (R172): the next message of `source` to `home` is a tile's end marker; the tiles it frees are applied. -/
def execEndMarker (source home : Fin 8) (s : State) : Out :=
  if !s.runs then .next s
  else match nextMsg s source home with
    | none => .next s
    | some m =>
      if !m.marker then .next s
      else
        let s := dropMsg s source home m
        match jobOf (s.awl home) m with
        | none => .next s
        | some j =>
          let ended := m.tile :: j.ended
          .next (pump (ended.length + 1) (s.modAwl home fun a => setJob a { j with ended := ended }) home)

/-- TILE_RESUME (R175): the first suspended tile of `source` whose next contribution every home would now accept. -/
def execTileResume (source : Fin 8) (s : State) : Out :=
  if !s.runs then .next s
  else
    let fits (t : Tile) : Bool := (List.range 8).all fun h =>
      match (awlOut s source h).find? fun m => ofTile m t with
      | none => true
      | some m => m.marker || accepts (s.awl h) m
    match (s.awl source).suspended.find? fits with
    | none => .next s
    | some t => .next (s.modAwl source fun a => { a with suspended := a.suspended.erase t })

/-! ### The write-back -/

/-- What an element becomes from its old value and its entry (Table 08.2). -/
def combOut (comb : Nat) (old : Num) (v : List Num) : Num :=
  let p := old.poison || (nth v 0).poison
  let x := match comb with
    | 1 => nAdd old (nth v 0)
    | 2 => nMax old (nth v 0)
    | 3 => nMin old (nth v 0)
    | 4 => nAdd old (csumVal (nth v 0, nth v 1))
    | _ => nth v 0
  { x with poison := if comb = 0 then (nth v 0).poison else p }

/-- The indices an entry's write-back reads: its element, or the whole block of an MX destination. -/
def wbReads (d : LastRec) (c : Comb) : List (List Nat) :=
  let i := unflat (rSizes d) c.dst
  if isMX (rType d) then (blockLanes d i).map Prod.snd else [i]

/-- The place of an element an entry's write-back reads. -/
def wbLoc (s : State) (q : Nat) (f : Flight) (c : Comb) (i : List Nat) : Loc :=
  locOf (viewAt s f (dstMark c.tile)) (s.qTen q) c.vc (recOf f.recs 4) i

/-- The remote lines a write-back needs (R176). -/
def wbNeeds (s : State) (q : Nat) (f : Flight) (j : ScJob) : List UnitKey :=
  (unitsOf (j.table.flatMap fun c => (wbReads (recOf f.recs 4) c).map (wbLoc s q f c))).filter fun u => decide (2 ≤ u.space)

/-- What a write-back of an abandoned SCATTER still writes: the WRITE contributions to elements of its own node (ch. 08);
every other table is discarded. -/
def wbKept (s : State) (q : Nat) (f : Flight) (j : ScJob) : ScJob :=
  let near (c : Comb) : Bool := decide ((wbLoc s q f c (unflat (rSizes (recOf f.recs 4)) c.dst)).home.space < 2)
  if f.abandoned then { j with table := j.table.filter fun c => scComb f == 0 && near c } else j

/-- The touched elements read, combined, rounded once and written, each line or word with one write (R173, R176). -/
def writeBack (s : State) (h q : Nat) (f : Flight) (j : ScJob) : State :=
  let t := s.qTen q
  let d := recOf f.recs 4
  let ag := awlAgent q f.seq h
  let so (c : Comb) : State := viewAt s f (dstMark c.tile)
  let one := wbLoc s q f
  let locs := j.table.flatMap fun c => (wbReads d c).map (one c)
  let r := readUnits s ag q f.seq (unitsOf locs)
  let s := r.2
  let old (c : Comb) (i : List Nat) : Num := elemNum (rType d) (elemAt r.1 (one c i))
  let new (c : Comb) : Num := combOut (scComb f) (old c (unflat (rSizes d) c.dst)) c.value
  let s := if scComb f != 0 && j.table.any fun c => (old c (unflat (rSizes d) c.dst)).poison then consumePoison s q f.seq (80 + h) 4 else s
  let puts : List Put := if isMX (rType d) then
    -- one block after another, each with every element of it that was touched
    let firsts := distinct (j.table.map fun c => ((wbReads d c).headD [], if rLocal d then c.vc else 0))
    firsts.flatMap fun b =>
      let cs := j.table.filter fun c => (wbReads d c).headD [] == b.1 && (!rLocal d || c.vc == b.2)
      let c0 := cs.headD {}
      let lanes := (blockLanes d b.1).map fun l =>
        (l.1, match cs.find? fun c => unflat (rSizes d) c.dst == l.2 with
          | some c => new c
          | none => old c0 l.2)
      (blockPuts (so c0) t c0.vc f.words d b.1 lanes).1
  else
    j.table.flatMap fun c => plainPuts (so c) t c.vc f.words f.recs d [(unflat (rSizes d) c.dst, new c)]
  dropLines (storePuts s ag t q f.seq (80 + h) puts) q f.seq (wbNeeds s q f j)

/-- The job served leaves home `h`; the next one is served. With the last of its jobs gone a descriptor's work is
complete. -/
def endJob (s : State) (h : Nat) (j : ScJob) : State :=
  let s := s.modAwl h fun a => { a with jobs := a.jobs.erase j }
  let s := match (s.awl h).jobs with
    | [] => s
    | k :: _ => pump (k.ended.length + 1) s h
  if (List.range 8).any fun y => (s.awl y).jobs.any fun x => x.queue == j.queue && x.seq == j.seq then s
  else s.modFlight j.queue j.seq fun f => { f with complete := true }

/-- SCATTER_WRITEBACK (R173, R176): with every tile's end marker applied, the home Awl writes its touched elements back
and serves the next descriptor. Remote elements are first read; an abandoned SCATTER's table is discarded. -/
def execScatterWriteback (home : Fin 8) (s : State) : Out :=
  if !s.runs then .next s
  else match (s.awl home).jobs with
    | [] => .next s
    | j :: _ =>
      match s.flightAt j.queue j.seq with
      | none => .next (endJob s home j)
      | some f =>
        if j.applied < f.tiles then .next s
        else
          let w := wbKept s j.queue f j
          let ks := wbNeeds s j.queue f w
          if !linesHere f ks then .next (formReads s j.queue j.seq (tagOf f.words) ks)
          else .next (endJob (writeBack s home j.queue f w) home j)

/-- An issued SCATTER takes its place among the jobs of all eight homes: by issue cc, then queue (R173). -/
def addJobs (s : State) (q n : Nat) : State :=
  let behind (j : ScJob) : Bool := decide (issueOrd s j.queue j.seq ≤ issueOrd s q n)
  let put (l : List ScJob) : List ScJob := l.takeWhile behind ++ { queue := q, seq := n } :: l.dropWhile behind
  (List.range 8).foldl (fun s h => s.modAwl h fun a => { a with jobs := put a.jobs }) s

end Sys2Proof.Machine
end

