-- ==== Sys2Proof/Machine/Link.lean ====
section
/-! DEFINITION. The link layer of the ports (chapter 12): flits, replay, credits, lanes, the port timers, link control,
and the management messages HELLO and HEARTBEAT with the identity check (chapter 13, R319). -/

namespace Sys2Proof.Machine

/-! ### Lane sets -/

/-- The lane sets of Table 12.7 in order of choice, width 1 apart. -/
def laneSets (p : Nat) : List Nat := if p < 8 then [0xF, 0x3, 0xC] else [0xFF, 0xF, 0xF0, 0x3, 0xC, 0x30, 0xC0]

/-- The lowest-numbered lane of a set, as a set; 0 of none. -/
def lowLane (good : Nat) : Nat := ((List.range 8).find? fun i => good.testBit i).elim 0 fun i => 2 ^ i

/-- The lane set a port uses when the lanes of `good` are good: the first choice that is all good; 0 when none is. -/
def bestSet (p good : Nat) : Nat := ((laneSets p).find? fun x => x &&& good == x).getD (lowLane good)

/-- The lanes of a set, counted. -/
def laneCount (l : Nat) : Nat := ((List.range 8).filter fun i => l.testBit i).length

/-! ### Codewords (R249, R250) -/

/-- The active lanes of a set in ascending order. -/
def lanesOf (l : Nat) : List Nat := (List.range 8).filter fun i => l.testBit i

/-- The control field of a codeword (Table 12.3). -/
def cwControl (seq lane width : Nat) : Nat := seq * 2 ^ 16 + lane * 2 ^ 13 + Nat.log2 width * 2 ^ 11

/-- One bit through the scrambler x^58 + x^39 + 1 that holds `st`, its latest output in bit 0. -/
def scrBit (st : Nat) (d : Bool) : Bool × Nat :=
  let o := d != (st.testBit 38 != st.testBit 57)
  (o, (st * 2 + o.toNat) % 2 ^ 58)

/-- A block scrambled, each byte from its bit 0 up (PRESUMED: the order of IEEE 802.3; log entry 83). -/
def scramble (st : Nat) (bs : List Byte) : List Byte × Nat :=
  bs.foldl (fun acc b =>
    let r := (List.range 8).foldl (fun (r : Nat × Nat) i => let x := scrBit r.2 (b.toNat.testBit i); (r.1 + x.1.toNat * 2 ^ i, x.2)) (0, acc.2)
    (acc.1 ++ [BitVec.ofNat 8 r.1], r.2)) ([], st)

/-- The flit stream cut into blocks: with one for every active lane a codeword period goes out, block b on the lane of
rank b mod W (R250). -/
def cwSend (x : PortSt) (p : Nat) : PortSt :=
  let ls := lanesOf x.lanes
  if ls.isEmpty ∨ x.txStream.length < 640 * ls.length then x
  else
    let r := ls.zipIdx.foldl (fun (acc : List CwOut × List (Nat × Nat)) l =>
      let st := fun k => (Config.freeScr (8 * p + k)).toNat
      let y := scramble (mget st acc.2 l.1) ((x.txStream.drop (640 * l.2)).take 640)
      (acc.1 ++ [{ lane := l.1, control := cwControl x.cwSeq l.1 ls.length, block := y.1 }], mset st acc.2 l.1 y.2)) ([], x.scr)
    { x with txStream := x.txStream.drop (640 * ls.length), cwOut := r.1, scr := r.2, cwSeq := (x.cwSeq + 1) % 16 }

/-- Codeword lock is gained (R249): the lane's latest three codewords, latest first, hold no symbol error. -/
def gainsLock (cws : List CwRes) : Bool := decide (3 ≤ cws.length) && (cws.take 3).all (· == .clean)

/-- Codeword lock is lost (R249): the latest eight codewords are uncorrectable. -/
def losesLock (cws : List CwRes) : Bool := decide (8 ≤ cws.length) && (cws.take 8).all (· == .bad)

/-- The lane is bad by its codewords (R256): lock lost, or UCW_TH uncorrectable ones within 1 ms, which is 19,531 codeword
periods of 51.2 ns. -/
def laneFails (s : State) (p : Nat) (cws : List CwRes) : Bool :=
  losesLock cws || decide (atLeast1 (bits (s.lreg p 0x0318 0x0460) 15 0) ≤ (cws.take 19531).countP (· == .bad))

/-! ### Flits -/

/-- Bytes gathered for one MSG flit of a channel: payload so far, FIRST, messages left and how far the first has gone,
and the egress reserve of the messages that have gone whole (R259, R293). -/
structure Fill where
  bytes : List Byte := []
  first : Nat := 31
  tx    : List TxMsg := []
  off   : Nat := 0
  heads : Nat := 0
  units : Nat := 0
  deriving DecidableEq, Repr

/-- The payload of 232 bytes filled from the messages waiting. -/
def fillFlit : Nat → Fill → Fill
  | 0, f => f
  | n + 1, f =>
    match f.tx with
    | [] => f
    | m :: ms =>
      let room := 232 - f.bytes.length
      if room = 0 then f
      else
        let part := (m.bytes.drop f.off).take room
        let first := if f.off = 0 ∧ f.first = 31 then f.bytes.length / 8 else f.first
        if f.off + part.length < m.bytes.length then
          { f with bytes := f.bytes ++ part, first := first, off := f.off + part.length }
        else fillFlit n { bytes := f.bytes ++ part, first := first, tx := ms, off := 0
                          heads := f.heads + m.heads, units := f.units + m.units }

/-- ACK of the next header (R261). -/
def ackOf (x : PortSt) : Nat := (x.rxSeq + 4095) % 4096

/-- A flit put on the lanes of port `p` in this slot: header, payload, TAG, CRC (R257, R258, R269). The header carries
NAK once, and the credit count of the channel whose turn it is (R266). -/
def emitFlit (s : State) (p ftype seq vc first : Nat) (payload : List Byte) : State :=
  let x := s.port p
  let gen := txSel s p
  let hdr := ftype * 2 ^ 60 + seq * 2 ^ 48 + ackOf x * 2 ^ 36 + (if x.nak then 2 ^ 35 else 0) + gen * 2 ^ 34 + vc * 2 ^ 32 +
    x.crTurn * 2 ^ 30 + (x.chan x.crTurn).freed % 256 * 2 ^ 22 + first * 2 ^ 17
  let body := leBytes 8 hdr ++ padTo 232 payload
  let tag := if x.authEn then gmac96 (keyNat (s.key (txKey x gen))) (x.txSess * 2 ^ 64 + x.txc) body else List.replicate 12 0
  let flit := body ++ tag ++ leBytes 4 (crc32 (body ++ tag))
  s.setPort p (cwSend { x with nak := false, crTurn := (x.crTurn + 1) % 4, lastFlit := flit, txc := (x.txc + 1) % 2 ^ 64
                               slot := x.slot + 1, txStream := x.txStream ++ flit } p)

/-- A link-control flit (Table 12.11). -/
def emitLctrl (s : State) (p ltype lanes : Nat) : State :=
  let x := s.port p
  let al := if ltype = 1 then 16 * 2 ^ 32 + 96 * 2 ^ 24 + 96 * 2 ^ 16 + 64 * 2 ^ 8 + (if x.authEn then 1 else 0) else 0
  emitFlit s p 2 0 0 31 (leBytes 8 (ltype * 2 ^ 56 + lanes * 2 ^ 48 + al) ++ leBytes 8 (if ltype = 1 then x.txSess else 0))

/-- A closed batch as a message (Table 10.7). -/
def batchMsg (s : State) (b : Batch) : Msg :=
  { type := 0x30, dst := b.node, src := nodeOf s, tenant := b.tenant
    payload := leBytes 8 (b.events.length * 2 ^ 50 + b.tenant * 2 ^ 40 + b.due) ++ b.events.flatMap fun e => leBytes 4 e }

/-- A journal record or COMMIT as a message (R320, Tables 15.8 to 15.10). -/
def jrecMsg (s : State) (r : JRec) : Msg :=
  if r.commit then { type := 0x41, dst := peerNode s 8, src := nodeOf s, txn := r.jcount, payload := jrecBytes r }
  else { type := 0x40, dst := peerNode s 8, src := nodeOf s, tenant := r.tenant, payload := jrecBytes r }

/-- What a channel's own buffers have ready moves behind its messages: closed event batches, journal records, COMMIT once
it has its response header (R216, R292, R320, R324). -/
def feedChan (s : State) (p v : Nat) : State :=
  if v = 3 then
    match (s.port p).batches.find? (fun b => b.closed) with
    | none => s
    | some b => pushMsg (s.modPort p fun x => { x with batches := x.batches.erase b }) p (batchMsg s b)
  else if v = 2 ∧ p = 8 then
    match s.twn.tx with
    | [] => s
    | r :: rs =>
      if r.commit ∧ 256 ≤ (s.port 8).rsvHeads then s
      else
        let s := s.modPort 8 fun x => { x with rsvHeads := if r.commit then x.rsvHeads + 1 else x.rsvHeads }
        pushMsg { s with twn := { s.twn with tx := rs } } p (jrecMsg s r)
  else s

/-- A HEARTBEAT goes with the reserved slot when no other MG message waits (R280). -/
def feedHb (s : State) (p : Nat) : State :=
  let x := s.port p
  match x.hb with
  | [] => s
  | h :: hs => if (x.chan 0).tx.isEmpty then s.setPort p ({ x with hb := hs }.setChan 0 { x.chan 0 with tx := [h] }) else s

/-- Bytes of a channel still to be sent. -/
def chanBytes (c : Chan) : Nat := (c.tx.map fun m => m.bytes.length).sum - c.txOff

/-- A channel is fed until a flit is full or nothing is ready. -/
def feed : Nat → State → Nat → Nat → State
  | 0, s, _, _ => s
  | n + 1, s, p, v => if 232 ≤ chanBytes ((s.port p).chan v) then s else feed n (feedChan s p v) p v

/-- A message waits on a channel, or in what feeds it. -/
def chanWaits (s : State) (p v : Nat) : Bool :=
  !((s.port p).chan v).tx.isEmpty || (v == 3 && (s.port p).batches.any fun b => b.closed) || (v == 2 && p == 8 && !s.twn.tx.isEmpty)

/-- A channel can send a new flit now: something waits and it has credit (R251, R266). -/
def chanReady (s : State) (p v : Nat) : Bool := chanWaits s p v && decide (0 < credit ((s.port p).chan v))

/-- A new MSG flit of channel `v`, fed as it is sent, goes out and is held (R260); the reserves of the responses it ends
are released (R293). -/
def sendNew (s : State) (p v : Nat) : State :=
  let s := feed 16 s p v
  let x := s.port p
  let c := x.chan v
  let f := fillFlit 30 { tx := c.tx, off := c.txOff }
  let payload := padTo 232 f.bytes
  let x := x.setChan v { c with tx := f.tx, txOff := f.off, sent := c.sent + 1 }
  let x := { x with heldFl := x.heldFl ++ [{ seq := x.txSeq, vc := v, first := f.first, payload := payload }]
                    ackAt := if x.heldFl.isEmpty then s.now + replayCc s p else x.ackAt
                    txSeq := (x.txSeq + 1) % 4096, egHeads := x.egHeads - f.heads, egUnits := x.egUnits - f.units }
  emitFlit (s.setPort p x) p 1 (s.port p).txSeq v f.first payload

/-- A HELLO waits to be sent: RS, RQ and EV flits follow it (R285). -/
def helloWaits (x : PortSt) : Bool := (x.chan 0).tx.any fun m => (msgParse m.bytes).type == 1

/-- A slot of a trained port: replay, the reserved MG slot, LCTRL, MG, RS, RQ and EV in turn, IDLE (R251). While a lane set
is being changed no MSG flit goes, replayed or new (R256). -/
def msgSlot (s : State) (p : Nat) : State :=
  let x := s.port p
  let idle (s : State) : State := emitFlit s p 0 0 0 31 []
  let reserved := decide (x.slot % 20 = 0)
  let link (s : State) (els : State) : State :=
    match x.lctrl with
    | (t, l) :: ls => emitLctrl (s.setPort p { x with lctrl := ls }) p t l
    | [] => els
  if x.newLanes.isSome then (if reserved then idle s else link s (idle s))
  else match x.replay with
  | f :: fs => emitFlit (s.setPort p { x with replay := fs }) p 1 f.seq f.vc f.first f.payload
  | [] =>
    let room := decide (x.heldFl.length < 512)
    if reserved then
      let s := feedHb s p
      if room && chanReady s p 0 then sendNew s p 0 else idle s
    else link s (
      if !room then idle s
      else if chanReady s p 0 then sendNew s p 0
      else if x.state ≠ .up ∨ helloWaits x = true then idle s
      else if chanReady s p 1 then sendNew s p 1
      else
        let a := if x.evTurn then 3 else 2
        let v := if chanReady s p a then a else 5 - a
        if chanReady s p v then sendNew (s.modPort p fun y => { y with evTurn := decide (v = 2) }) p v else idle s)

/-- FLIT_SLOT_TRANSMIT (R251, R268, R269): one slot of the port's transmitter. In ALIGN it carries ALIGN until the
partner's is held and the bitmaps agree, and ALIGN_DONE after that. DEDUCED: slot 0, whose TXC is 0, carries the first
ALIGN (R269); later reserved slots are IDLE (log entry 93). -/
def execFlitSlotTransmit (p : Fin 9) (s : State) : Out :=
  let x := s.port p
  if !s.linkOn then .next s
  else match x.state with
    | .align =>
      if x.slot % 20 = 0 ∧ x.slot ≠ 0 then .next (emitFlit s p 0 0 0 31 [])
      else if x.alignRx then
        let s := emitLctrl (s.modPort p fun y => { y with doneTx := true }) p 2 x.lanes
        .next (if x.doneRx then portTo s p .hello else s)
      else .next (emitLctrl s p 1 x.lanes)
    | .hello => .next (msgSlot s p)
    | .up => .next (msgSlot s p)
    | .fenced => .next (msgSlot s p)
    | _ => .next s

/-! ### Reception -/

/-- A message header cannot be read (R277): its TYPE is reserved, or its LEN above 4,120. -/
def unreadable (t len : Nat) : Bool := (typeVc t).isNone || decide (4120 < len)

/-- What a channel's receive buffer makes of payload bytes: the messages in progress and complete (R259, R277). -/
def assemble : Nat → List Byte → Chan → Nat → Chan × Nat
  | 0, _, c, k => (c, k)
  | n + 1, bs, c, k =>
    let have_ := c.part.length
    if have_ = 0 ∧ (bs.length < 8 ∨ bs.getD 7 0 = 0) then (c, k)
    else
      let all := c.part ++ bs
      if all.length < 8 then ({ c with part := all }, k)
      else
        let h := word64At all 0
        if unreadable (bits h 63 56) (bits h 55 40) then
          ({ c with part := [], skip := true, rx := c.rx ++ [{ msg := msgParse (padTo 16 all), flits := c.partFl }], partFl := 0 }, k + 1)
        else
          let need := msgSize (bits h 55 40)
          if all.length < need then ({ c with part := all }, k)
          else assemble n (all.drop need)
            { c with part := [], rx := c.rx ++ [{ msg := msgParse (all.take need), flits := c.partFl }], partFl := 0 } (k + 1)

/-- The last decoded message takes one more flit. -/
def lastFlit1 (rx : List RxMsg) : List RxMsg :=
  match rx.reverse with
  | [] => []
  | m :: ms => (({ m with flits := m.flits + 1 } : RxMsg) :: ms).reverse

/-- A flit of channel `v` is taken into its receive buffer; the flit is freed with the last message that has bytes in
it, at once when none has (R267). -/
def takeFlit (c : Chan) (first : Nat) (payload : List Byte) : Chan :=
  let bs := if c.skip || c.part.isEmpty then (if first = 31 then [] else payload.drop (8 * first)) else payload
  let c := if c.skip ∧ first ≠ 31 then { c with skip := false } else c
  let r := assemble 30 bs c 0
  if !r.1.part.isEmpty then { r.1 with partFl := r.1.partFl + 1 }
  else if r.2 ≠ 0 then { r.1 with rx := lastFlit1 r.1.rx }
  else { r.1 with freed := r.1.freed + 1 }

/-- A gap opens, or is open already (R261). -/
def openGap (s : State) (p : Nat) : State :=
  s.modPort p fun x => if x.gap then x else { x with gap := true, nak := true, nakAt := s.now + replayCc s p }

/-- The transmitter replays every held flit, or the port goes DOWN when the limit has passed (R262, R263). -/
def startReplay (s : State) (p : Nat) : State :=
  let x := s.port p
  if x.heldFl.isEmpty then s
  else if atLeast1 (bits (s.lreg p 0x031C 0x0464) 7 0) ≤ x.replays then portTo s p .down
  else (linkCount s p 2).modPort p fun x =>
    { x with replay := x.heldFl, replays := x.replays + 1, ackAt := s.now + replayCc s p }

/-- ACK, NAK and CR_CUM of a received header (R260, R262, R266); a credit that comes breaks a stall (R296). -/
def takeHeader (s : State) (p hdr : Nat) : State :=
  let ack := bits hdr 47 36
  let s := s.modPort p fun x =>
    let x := x.setChan (bits hdr 31 30) { x.chan (bits hdr 31 30) with peerCum := bits hdr 29 22 }
    let x := if stalls x then x else { x with stallAt := none }
    match x.heldFl.findIdx? fun f => f.seq == ack with
    | none => x
    | some i => { x with heldFl := x.heldFl.drop (i + 1), replays := 0, ackAt := s.now + replayCc s p
                         replay := x.replay.filter fun f => (x.heldFl.drop (i + 1)).contains f }
  if bit hdr 35 then startReplay s p else s

/-- The TAG of a received flit holds under a session (R269, R271). -/
def tagHolds (s : State) (p : Nat) (flit : List Byte) (sess : Nat) : Bool :=
  let x := s.port p
  let k := rxKey x (bits (word64At flit 0) 34 34)
  bit (s.tw 0x0A k 0) 31 &&
    gmac96 (keyNat (s.key k)) (sess * 2 ^ 64 + x.rxc) (flit.take 240) == (flit.drop 240).take 12

/-- FTYPE of a flit, and LTYPE of a LCTRL flit. -/
def ftypeOf (fl : List Byte) : Nat := bits (word64At fl 0) 63 60
def ltypeOf (fl : List Byte) : Nat := bits (word64At fl 1) 63 56

/-- Link-control content read from a flit (Table 12.11). -/
def lctrlOf (fl : List Byte) (tagOk : Bool) : Lctrl :=
  let a := word64At fl 1
  { ltype := bits a 63 56, lanes := bits a 55 48, crMg := bits a 39 32, crRs := bits a 31 24, crRq := bits a 23 16
    crEv := bits a 15 8, auth := bit a 0, session := bits (word64At fl 2) 31 0
    keyId := bits (word64At fl 0) 34 34, tagOk := tagOk }

/-- A reserved field of a flit is not 0 (R257, Tables 12.9 and 12.11). -/
def flitReserved (fl : List Byte) : Bool :=
  let a := word64At fl 1
  decide (3 ≤ ftypeOf fl) || bits (word64At fl 0) 16 0 != 0 ||
  (ftypeOf fl == 2 && (bits a 47 40 != 0 || bits a 7 1 != 0 || bits (word64At fl 2) 63 32 != 0))

/-- A flit is ALIGN. -/
def isAlign (fl : List Byte) : Bool := ftypeOf fl == 2 && ltypeOf fl == 1

/-- The session a flit's TAG is checked under: an ALIGN names its own; none before one has been accepted (R270, R271). -/
def flitSess (x : PortSt) (fl : List Byte) : Option Nat :=
  if x.state = .align then
    if isAlign fl then some (bits (word64At fl 2) 31 0) else if x.rxSess = 0 then none else some x.rxSess
  else some x.rxSess

/-- Link-control content waits for its command; ALIGN and ALIGN_DONE act in ALIGN only, LANE_MAP and its answer in a
trained link (R268). -/
def lcArrives (s : State) (p : Nat) (f : Lctrl) : State :=
  s.modPort p fun x => if (x.state == .align) == decide (f.ltype ≤ 2) then { x with lcRx := x.lcRx ++ [f] } else x

/-- A MSG flit that passed its checks: accepted in sequence, dropped as a duplicate, or a gap (R261). Behind a fence
the content of RS, RQ and EV flits is discarded (R296). -/
def takeMsg (s : State) (p hdr : Nat) (payload : List Byte) : State :=
  let x := s.port p
  let seq := bits hdr 59 48
  let v := bits hdr 33 32
  if seq = x.rxSeq then
    let c := x.chan v
    let c := if x.state = .fenced ∧ v ≠ 0 then { c with freed := c.freed + 1 } else takeFlit c (bits hdr 21 17) payload
    s.setPort p { x.setChan v c with rxSeq := (x.rxSeq + 1) % 4096, gotAny := true, gap := false, nak := false }
  else if (x.rxSeq + 4096 - seq) % 4096 ≤ 512 then s
  else openGap s p

/-- A received flit whose TAG fails (R270, R272): counted by its key entry and its port; an ALIGN is kept to be refused
by its command, which makes the port's count. -/
def tagFailed (s : State) (p : Nat) (fl : List Byte) : State :=
  let x := s.port p
  let s := s.modKey (rxKey x (bits (word64At fl 0) 34 34)) fun e => { e with tagFail := sat32 (e.tagFail + 1) }
  if x.state = .align ∧ isAlign fl = true then lcArrives s p (lctrlOf fl false)
  else
    let s := (openGap (linkCount s p 1) p).modPort p fun y => { y with tagFails := y.tagFails + 1 }
    if 8 ≤ (s.port p).tagFails then portTo s p .down else s

/-- A flit that passed CRC and TAG (R257, R260 to R262, R266, R268). -/
def takeGood (s : State) (p : Nat) (fl : List Byte) : State :=
  if flitReserved fl then malformed (openGap s p) p
  else
    let s := if linkState (s.port p).state then takeHeader s p (word64At fl 0) else s
    match ftypeOf fl with
    | 1 => if linkState (s.port p).state then takeMsg s p (word64At fl 0) ((fl.drop 8).take 232) else s
    | 2 => if ltypeOf fl = 0 ∨ 4 < ltypeOf fl then malformed s p else lcArrives s p (lctrlOf fl true)
    | _ => s

/-- FLIT_RECEIVE (R257 to R262, R266, R268, R271, R272): a received flit slot. Link-control content waits for its own
command. DEDUCED: in ALIGN a flit that comes before any ALIGN was accepted names no session, so that its TAG cannot be
checked, and is passed over (log entry 93). -/
def execFlitReceive (p : Fin 9) (flit : List Byte) (s : State) : Out :=
  let x := s.port p
  let fl := padTo 256 flit
  if !s.linkOn || !(linkState x.state || x.state == .align) then .next s
  else
    let s1 := s.modPort p fun y => { y with rxc := (y.rxc + 1) % 2 ^ 64 }
    if crc32 (fl.take 252) ≠ leNat (fl.drop 252) then
      .next (openGap ((linkCount s1 p 0).modPort p fun y => { y with tagFails := 0 }) p)
    else
      let good := takeGood (s1.modPort p fun y => { y with tagFails := 0 }) p fl
      if !x.authEn then .next good
      else match flitSess x fl with
        | none => .next s1
        | some n => .next (if tagHolds s p fl n then good else tagFailed s1 p fl)

/-- NAK_RESEND (R261). -/
def execNakResend (p : Fin 9) (s : State) : Out :=
  let x := s.port p
  if s.linkOn && linkState x.state && x.gap && decide (x.nakAt ≤ s.now) then
    .next (s.setPort p { x with nak := true, nakAt := s.now + replayCc s p })
  else .next s

/-- REPLAY_TIMEOUT (R262, R263). -/
def execReplayTimeout (p : Fin 9) (s : State) : Out :=
  let x := s.port p
  if s.linkOn && linkState x.state && !x.heldFl.isEmpty && decide (x.ackAt ≤ s.now) then .next (startReplay s p) else .next s

/-! ### Port commands and timers -/

/-- WLT_CTRL_EN_SET (R253, R315): a DISABLED port goes DOWN. TP stays DISABLED with TWIN_EN low. -/
def execWltCtrlEnSet (p : Fin 9) (s : State) : Out :=
  if !s.mspOn then .next s
  else
    let s := s.setReg (lkey p 0x0304 0x0450) 0x80000000
    if (s.port p).state = .disabled ∧ (p.val < 8 ∨ twinEn s = true) then .next (portTo s p .down) else .next s

/-- WLT_CTRL_EN_CLEAR (R253, R254): any state to DISABLED. -/
def execWltCtrlEnClear (p : Fin 9) (s : State) : Out :=
  if !s.mspOn then .next s else .next (portTo (s.setReg (lkey p 0x0304 0x0450) 0) p .disabled)

/-- WLT_CTRL_RELEASE (R290, R389): QUARANTINED to DOWN, STRIKES to 0. -/
def execWltCtrlRelease (p : Fin 8) (s : State) : Out :=
  if s.mspOn ∧ (s.port p).state = .quarantined then .next (portTo (s.modPort p fun x => { x with strikes := 0 }) p .down) else .next s

/-- WLT_CTRL_RETRAIN (R256): the staged RETRAIN, applied at the next boundary. -/
def execWltCtrlRetrain (p : Fin 9) (s : State) : Out :=
  if s.mspOn then .next (s.modPort p fun x => { x with retrain := true }) else .next s

/-- DOWN_RETRY_EXPIRY (R253): DOWN to TRAINING once the wait has ended and the commanded state in force is ON or DEGRADED. -/
def execDownRetryExpiry (p : Fin 9) (s : State) : Out :=
  let x := s.port p
  if s.linkOn && decide (x.state = .down) && decide (x.limit ≤ s.now) && decide (2 ≤ (s.unit (portUnit p)).force) then
    .next (portTo s p .training)
  else .next s

/-- LANE_LOCK (R249, R253): by its latest codewords a lane of a training port gains lock; the full width locked moves it to
ALIGN. -/
def execLaneLock (p : Fin 9) (lane : LaneCws) (s : State) : Out :=
  let x := s.port p
  if s.linkOn && decide (x.state = .training) && (fullLanes p).testBit lane.no && gainsLock lane.cws then
    let l := x.locked ||| 2 ^ lane.no.val
    let s := s.setPort p { x with locked := l }
    .next (if l = fullLanes p then portTo (s.modPort p fun y => { y with lanes := l }) p .align else s)
  else .next s

/-- TRAIN_TIMEOUT (R253): to ALIGN on a wholly locked lane set, else to DOWN, counted. -/
def execTrainTimeout (p : Fin 9) (s : State) : Out :=
  let x := s.port p
  if s.linkOn && decide (x.state = .training) && decide (x.limit ≤ s.now) then
    let l := bestSet p x.locked
    if l = 0 then .next (portTo (if p.val < 8 then s.bump (bankKey p 0x033C) 1 else s) p .down)
    else .next (portTo (s.setPort p { x with lanes := l }) p .align)
  else .next s

/-- ALIGN_TIMEOUT (R253). -/
def execAlignTimeout (p : Fin 9) (s : State) : Out :=
  let x := s.port p
  if s.linkOn && decide (x.state = .align) && decide (x.limit ≤ s.now) then .next (portTo s p .down) else .next s

/-- A narrower lane set is taken up for proposal or answer, or the port goes DOWN when no lane is left (R256). -/
def narrow (s : State) (p good ltype : Nat) : State :=
  let l := bestSet p good
  if l = 0 then portTo s p .down
  else s.modPort p fun x => { x with newLanes := some l, mapDone := decide (ltype = 4), lctrl := x.lctrl ++ [(ltype, l)] }

/-- The lane set in use becomes `l`; TP's is a check of REFT (R341). -/
def lanesTo (s : State) (p l : Nat) : State :=
  if (s.port p).lanes = l then s
  else
    let s := s.modPort p fun x => { x with lanes := l }
    if p = 8 then reftMoved s else s

/-- LANE_BAD (R249, R253, R256): by its latest codewords a lane goes bad. In TRAINING it no longer holds lock, in ALIGN
the lane set narrows, and on a trained link LANE_MAP names a narrower set. -/
def execLaneBad (p : Fin 9) (lane : LaneCws) (s : State) : Out :=
  let x := s.port p
  let without (l : Nat) : Nat := l &&& ((fullLanes p) ^^^ 2 ^ lane.no.val)
  if !s.linkOn || !(fullLanes p).testBit lane.no then .next s
  else if x.state = .training then .next (if losesLock lane.cws then s.setPort p { x with locked := without x.locked } else s)
  else if x.lanes.testBit lane.no && laneFails s p lane.cws && (linkState x.state || x.state == .align) then
    let good := without (x.newLanes.getD x.lanes)
    let s := s.setPort p { x with locked := without x.locked }
    if x.state = .align then
      (if bestSet p good = 0 then .next (portTo s p .down) else .next (lanesTo s p (bestSet p good)))
    else .next (narrow (if p.val = 8 then clkEval s else s) p good 3)
  else .next s

/-- The oldest link-control content a working port has received is `f`, of type `t`: the state without it (R264, R268). -/
def lcTake (s : State) (p t : Nat) (f : Lctrl) : Option State :=
  match (s.port p).lcRx with
  | g :: rest => if s.linkOn = true ∧ g = f ∧ f.ltype = t then some (s.modPort p fun x => { x with lcRx := rest }) else none
  | [] => none

/-- LANE_MAP (R256): MSG flits stop, LANE_MAP_DONE is answered. -/
def execLaneMap (p : Fin 9) (f : Lctrl) (s : State) : Out :=
  match lcTake s p 3 f with
  | none => .next s
  | some s =>
    let x := s.port p
    if linkState x.state then .next (narrow s p ((x.newLanes.getD x.lanes) &&& f.lanes) 4) else .next s

/-- LANE_MAP_DONE (R256): the switch may proceed. -/
def execLaneMapDone (p : Fin 9) (f : Lctrl) (s : State) : Out :=
  match lcTake s p 4 f with
  | none => .next s
  | some s =>
    let x := s.port p
    if linkState x.state && x.newLanes.isSome then .next (s.setPort p { x with mapDone := true }) else .next s

/-- LANE_SWITCH (R256, R263): after the exchange both ends switch at a codeword boundary whose CWSEQ is 0, and each
replays from its first unacknowledged flit. -/
def execLaneSwitch (p : Fin 9) (s : State) : Out :=
  let x := s.port p
  match x.newLanes with
  | none => .next s
  | some l =>
    if s.linkOn && linkState x.state && x.mapDone && !(x.lctrl.any fun e => e.1 == 4) && x.cwSeq == 0 then
      let s := lanesTo (s.setPort p { x with newLanes := none, mapDone := false }) p l
      .next (portObs (startReplay s p) p)
    else .next s

/-! ### ALIGN -/

/-- An ALIGN is refused with authentication (R270): its TAG or key fails, or its SESSION is not fresh. Its own repeats
carry the session just accepted. -/
def alignStale (s : State) (p : Nat) (f : Lctrl) : Bool :=
  let x := s.port p
  let k := rxKey x f.keyId
  x.authEn && !(f.tagOk && bit (s.tw 0x0A k 0) 31 &&
    (decide ((s.key k).session < f.session) || (x.rxSess != 0 && f.session == x.rxSess)))

/-- ALIGN (R265 to R270): AUTH, SESSION and TAG checked, buffer sizes and lane set adopted. -/
def execAlign (p : Fin 9) (f : Lctrl) (s : State) : Out :=
  match lcTake s p 1 f with
  | none => .next s
  | some s =>
    let x := s.port p
    if x.state != .align then .next s
    else if f.auth ≠ x.authEn ∨ alignStale s p f = true then .next (portTo (linkCount s p 1) p .down)
    else if f.crMg < 4 ∨ f.crRs < 4 ∨ f.crRq < 4 ∨ f.crEv < 4 ∨ x.lanes &&& f.lanes = 0 then .next (portTo s p .down)
    else
      let s := if x.authEn then s.modKey (rxKey x f.keyId) fun e => { e with session := f.session } else s
      let buf (v n : Nat) (y : PortSt) := y.setChan v { y.chan v with peerBuf := n }
      .next (lanesTo (s.modPort p fun y =>
        { buf 0 f.crMg (buf 1 f.crRs (buf 2 f.crRq (buf 3 f.crEv y))) with
          rxSess := f.session, alignRx := y.lanes &&& f.lanes == f.lanes }) p (x.lanes &&& f.lanes))

/-- ALIGN_DONE (R253, R268): the partner's lane set agrees; with this end's ALIGN_DONE sent the port enters HELLO. -/
def execAlignDone (p : Fin 9) (f : Lctrl) (s : State) : Out :=
  match lcTake s p 2 f with
  | none => .next s
  | some s =>
    let x := s.port p
    if decide (x.state = .align) && x.alignRx && f.lanes == x.lanes then
      let s := s.setPort p { x with doneRx := true }
      .next (if x.doneTx then portTo s p .hello else s)
    else .next s

/-! ### Received messages: what every one has in common -/

/-- Message `m` is the next of its channel (R264): it heads the receive buffer, or none waits there and it is taken as
received without the flit layer (log entry 30). -/
def rxNext (s : State) (p v : Nat) (m : Msg) : Bool :=
  match ((s.port p).chan v).rx with
  | r :: _ => r.msg == m
  | [] => (List.range 4).all fun u => !(((s.port p).chan u).rx.any fun r => r.msg == m)

/-- The message at the head of its channel's receive buffer leaves it, and its flits are freed (R267). -/
def takeRx (s : State) (p v : Nat) (m : Msg) : State :=
  let x := s.port p
  match (x.chan v).rx with
  | r :: rs => if r.msg = m then s.setPort p (x.setChan v { x.chan v with rx := rs, freed := (x.chan v).freed + r.flits }) else s
  | [] => s

/-- A message of a trained link: taken in its turn, then what its port's state gives it (R254, R264, R286). -/
def withRx (s : State) (p v : Nat) (m : Msg) (hello up fenced : State → State) : State :=
  let x := s.port p
  if !s.linkOn || !linkState x.state || !rxNext s p v m then s
  else
    let s := takeRx s p v m
    match x.state with
    | .hello => hello s
    | .up => up s
    | _ => fenced s

/-- 64-bit word `i` of a message's payload. -/
def mword (m : Msg) (i : Nat) : Nat := word64At m.payload i

/-- What R277 asks of every message of type `t`: its type, its LEN, DST, the header's reserved bits. -/
def msgFits (s : State) (m : Msg) (t len : Nat) : Bool :=
  m.type == t && m.len == len && m.payload.length == len && (t == 0x01 || m.dst == nodeOf s) && m.rsvd == 0

/-! ### HELLO and HEARTBEAT -/

/-- A HELLO breaks no rule of R277. -/
def helloFits (s : State) (m : Msg) : Bool :=
  msgFits s m 0x01 32 && bits (mword m 0) 31 10 == 0 && bits (mword m 3) 63 11 == 0 && bits (mword m 3) 7 4 == 0 && m.status == 0

/-- The first cause of Table 13.3 a HELLO with a nonzero ECHO meets; 0 when it passes (R284, R319). EN is as in force since
ALIGN (R389). -/
def helloCause (s : State) (p : Nat) (m : Msg) : Nat :=
  let x := s.port p
  let node := bits (mword m 0) 9 0
  let reqAuth := if p < 8 then bit (s.tw 9 p 0) 30 else bit (s.reg 0x0400) 0
  if p < 8 ∧ bit (s.tw 9 p 0) 31 = false then 1
  else if reqAuth = true ∧ x.authEn = false then 2
  else if m.src ≠ peerNode s p ∨ node ≠ peerNode s p then 3
  else if node = nodeOf s then 4
  else if p < 8 then
    if bit (s.tw 9 p 0) 29 = true ∧ (bits (mword m 0) 63 48 ≠ s.twB 9 p 1 31 16 ∨ bits (mword m 0) 47 36 ≠ s.twB 9 p 1 15 4) then 5
    else if mword m 2 ≠ x.nonce then 6 else 0
  else
    if bits (mword m 0) 63 32 ≠ 0x0C1A6402 then 5 else if mword m 2 ≠ x.nonce then 6 else 0

/-- A HELLO that fits, in HELLO (R284 to R286, R319). -/
def helloTake (s : State) (p : Nat) (m : Msg) : State :=
  let s := s.modPort p fun y => { y with peerNonce := mword m 1, echoed := y.echoed && y.peerNonce == mword m 1 }
  if mword m 2 = 0 then sendHello (s.modPort p fun y => { y with echoed := false }) p
  else
    let c := helloCause s p m
    if c = 0 then
      let s := s.modPort p fun y => { y with helloFail := 0, peerCaps := bits (mword m 3) 10 8 * 16 + bits (mword m 3) 3 0 }
      portTo (if (s.port p).echoed then s else sendHello s p) p .up
    else
      let s := s.modPort p fun y => { y with helloFail := c }
      if p < 8 ∧ c ≤ 2 then s
      else addStrikes (portTo s p .down) p (if c = 3 ∨ c = 5 ∨ c = 6 then 4 else 0)

/-- HELLO (R284 to R286, R319). -/
def execHello (p : Fin 9) (m : Msg) (s : State) : Out :=
  .next (withRx s p 0 m (fun s => if helloFits s m then helloTake s p m else malformed s p)
    (fun s => malformed s p) (fun s => malformed s p))

/-- HELLO_RESEND (R286): every 100 µs. -/
def execHelloResend (p : Fin 9) (s : State) : Out :=
  let x := s.port p
  if s.linkOn && decide (x.state = .hello) && decide (x.helloAt ≤ s.now) then .next (sendHello s p) else .next s

/-- HELLO_TIMEOUT (R286). -/
def execHelloTimeout (p : Fin 9) (s : State) : Out :=
  let x := s.port p
  if s.linkOn && decide (x.state = .hello) && decide (x.limit ≤ s.now) then
    .next (portTo (s.setPort p { x with helloFail := 7 }) p .down)
  else .next s

/-- EPC_STATUS.STATE (Table 02.2). -/
def stateCode : EState → Nat
  | .idle => 0 | .opened => 1 | .drain => 2 | .flush => 3 | .commit => 4 | .clear => 5 | .opening => 6

/-- HEARTBEAT (R281): the timeout starts again. -/
def execHeartbeat (p : Fin 9) (m : Msg) (s : State) : Out :=
  let k (s : State) : State :=
    if msgFits s m 0x02 8 && bits (mword m 0) 43 40 == 0 then s.modPort p fun y => { y with hbRxAt := s.now + hbTimeoutCc s p }
    else malformed s p
  .next (withRx s p 0 m k k k)

/-- HEARTBEAT_SEND (R280): every PERIOD a HEARTBEAT is formed, and waits for a reserved MG slot. -/
def execHeartbeatSend (p : Fin 9) (s : State) : Out :=
  let x := s.port p
  if s.linkOn && linkState x.state && decide (x.hbTxAt ≤ s.now) then
    let m : Msg := { type := 0x02, len := 8, dst := peerNode s p, src := nodeOf s
                     payload := leBytes 8 (x.hbCount * 2 ^ 48 + stateCode s.epc.state * 2 ^ 44 + s.epc.count) }
    .next (s.setPort p { x with hbTxAt := s.now + hbPeriodCc s p, hbCount := (x.hbCount + 1) % 2 ^ 16
                                hb := x.hb ++ [{ bytes := msgBytes m }] })
  else .next s

/-- HEARTBEAT_TIMEOUT (R281). -/
def execHeartbeatTimeout (p : Fin 9) (s : State) : Out :=
  let x := s.port p
  if s.linkOn && linkState x.state && decide (x.hbRxAt ≤ s.now) then .next (portTo s p .down) else .next s

/-! ### Fence, buckets, strikes -/

/-- CREDIT_STALL_FENCE (R296): a stall that has lasted WLT_STALL_TO fences the port. -/
def execCreditStallFence (p : Fin 9) (s : State) : Out :=
  let x := s.port p
  if s.linkOn && stalls x && (x.stallAt.any fun d => decide (d ≤ s.now)) then
    .next (addStrikes (linkRecord (portTo s p .fenced) p 0x60) p 16)
  else .next s

/-- QUOTA_REFILL (R283, R288): every 1,024 cc after the entry to UP, by QRATE and QBURST as they now stand. -/
def execQuotaRefill (p : Fin 8) (s : State) : Out :=
  let x := s.port p
  if s.linkOn && decide (x.state = .up) && decide (x.refillAt ≤ s.now) then
    .next (s.setPort p { x with
      refillAt := x.refillAt + 1024, qrate := s.twB 9 p 6 31 20
      buckets := (List.range 32).foldl (fun b t =>
        mset zeroNat b t (min (atLeast1 (s.twB 9 p 6 19 8)) (mget zeroNat b t + s.twB 9 p 6 31 20))) x.buckets })
  else .next s

/-- STRIKE_LEAK (R289): at every 2^20 cc counted from PORST_N each nonzero STRIKES falls by 1, once. -/
def execStrikeLeak (s : State) : Out :=
  if s.linkOn && decide ((s.now - s.power.porstAt) % 2 ^ 20 = 0) && decide (s.power.porstAt < s.now) && !s.cc.leaked then
    .next (((List.range 8).foldl (fun s p => s.modPort p fun x => { x with strikes := x.strikes - 1 }) s).setCc
      { s.cc with leaked := true })
  else .next s

/-- A message that R277 finds malformed by its header alone on channel `v` of port `p`. -/
def badOn (p v : Nat) (m : Msg) : Bool := typeOn p m.type != some v || decide (4120 < m.len)

/-- The channel whose receive buffer message `m` heads, malformed by its header alone. -/
def badHead (s : State) (p : Nat) (m : Msg) : Option Nat :=
  (List.range 4).find? fun v => (((s.port p).chan v).rx.head?.any fun r => r.msg == m) && badOn p v m

/-- MALFORMED_MESSAGE (R277, R318): a reserved TYPE, a twin code on a Welt port, a type of another channel, or an
unreadable LEN: the message is discarded, counted, struck; behind a fence RS, RQ and EV are discarded silently (R296). -/
def execMalformedMessage (p : Fin 9) (m : Msg) (s : State) : Out :=
  let x := s.port p
  if !s.linkOn || !linkState x.state then .next s
  else match badHead s p m with
    | some v => .next (if x.state = .fenced ∧ v ≠ 0 then takeRx s p v m else malformed (takeRx s p v m) p)
    | none =>
      if (typeOn p m.type).isNone || decide (4120 < m.len) then
        .next (if (List.range 4).all fun v => rxNext s p v m then malformed s p else s)
      else .next s

/-- A SUBMIT_RSP or CTRL_ACK breaks no rule of R277 (Tables 03.14 and 12.18). -/
def lateFits (s : State) (m : Msg) : Bool :=
  if m.type = 0x22 then
    msgFits s m 0x22 24 && m.status == 0 && bits (mword m 0) 39 32 == 0 && decide (bits (mword m 0) 7 6 ≤ 1) &&
    bits (mword m 1) 63 40 == 0 && bits (mword m 2) 63 32 == 0
  else msgFits s m 0x23 8 && bits (mword m 0) 63 41 == 0

/-- LATE_RSP (R277, R279): a SUBMIT_RSP or CTRL_ACK answers no request of the Veper. -/
def execLateRsp (p : Fin 8) (m : Msg) (s : State) : Out :=
  if m.type ≠ 0x22 ∧ m.type ≠ 0x23 then .next s
  else .next (withRx s p 1 m (fun s => malformed s p)
    (fun s => if lateFits s m then s.bump (bankKey p 0x0344) 1 else malformed s p) id)

/-! ### Requests of the Veper -/

/-- The message of a request (Tables 12.16, 12.17). -/
def reqMsg (s : State) (r : Req) : Msg :=
  { type := if r.write then 0x11 else 0x10, dst := r.node, src := nodeOf s, tenant := r.tenant, tag := r.tag, txn := r.txn
    payload := if r.write then r.body else leBytes 8 ((r.nlines - 1) * 2 ^ 48 + r.addr) }

/-- The cc of WLT_REQ_TO. -/
def reqToCc (s : State) (p : Nat) : Nat := s.usCc (atLeast1 (bits (s.reg (bankKey p 0x0320)) 23 0))

/-- REQUEST_SEND (R279, R282, R292, R294): the oldest request without a reserve takes one, starts its count, and is sent. -/
def execRequestSend (p : Fin 8) (s : State) : Out :=
  let x := s.port p
  match x.reqs.find? fun r => r.due.isNone with
  | none => .next s
  | some r =>
    if !s.linkOn || s.halted then .next s
    else if x.state ≠ .up then .next (reqDone s p r false 0x09 0 (errLines p r))
    else if 256 < x.rsvHeads + 1 ∨ (r.write = false ∧ 1024 < x.rsvUnits + r.nlines) then .next s
    else
      let s := s.setPort p { x with
        rsvHeads := x.rsvHeads + 1, rsvUnits := if r.write then x.rsvUnits else x.rsvUnits + r.nlines
        reqs := x.reqs.map fun y => if y.txn = r.txn then { y with due := some (s.now + reqToCc s p) } else y }
      .next (pushMsg s p (reqMsg s r))

/-- REQUEST_TIMEOUT (R279, R294). -/
def execRequestTimeout (p : Fin 8) (txn : Nat) (s : State) : Out :=
  match (s.port p).reqs.find? fun r => r.txn == txn with
  | none => .next s
  | some r => if s.linkOn && (r.due.any fun d => decide (d ≤ s.now)) then .next (reqDone s p r false 0x08 0 (errLines p r)) else .next s

/-- A response and the request it names: late when none matches or its count ends in this cc, malformed when it does not
fit (R279, chapters 12 and 13). -/
def rspFor (s : State) (p : Nat) (m : Msg) (write : Bool) : State :=
  match (s.port p).reqs.find? fun r => r.txn == m.txn && (r.due.any fun d => decide (s.now < d)) with
  | none => s.bump (bankKey p 0x0344) 1
  | some r =>
    let len := if write then 0 else if m.status = 0 then 8 + 64 * r.nlines else 8
    let fits := msgFits s m (if write then 0x21 else 0x20) len && r.write == write && m.tenant == r.tenant && m.tag == r.tag &&
      (write || (mword m 0 < 2 ^ (if m.status = 0 then r.nlines else 0)))
    if !fits then malformed (reqDone s p r false 0x03 0 (errLines p r)) p
    else if m.status ≠ 0 then reqDone s p r false m.status m.fault (errLines p r)
    else reqDone s p r true 0 0 ((List.range r.nlines).map fun i =>
      { port := p, node := r.node, tenant := r.tenant, addr := r.addr + 64 * i
        data := (m.payload.drop (8 + 64 * i)).take 64, poison := (mword m 0).testBit i })

/-- READ_RSP (R166, R267, R274, R286). -/
def execReadRsp (p : Fin 8) (m : Msg) (s : State) : Out :=
  .next (withRx s p 1 m (fun s => malformed s p) (fun s => rspFor s p m false) id)

/-- WRITE_ACK (R166, R286). -/
def execWriteAck (p : Fin 8) (m : Msg) (s : State) : Out :=
  .next (withRx s p 1 m (fun s => malformed s p) (fun s => rspFor s p m true) id)

/-- TWN_PEER_NODE_WRITE (R315, R390): a write of TWN_PEER_NODE, or of TWN_CTRL (`ctrl`); a change of NODE or REQ_AUTH
sends a trained TP to DOWN. MODE is not written with TWIN_EN low. -/
def execTwnPeerNodeWrite (ctrl : Bool) (w : Word) (s : State) : Out :=
  if !s.mspOn then .next s
  else
    let key := if ctrl then 0x0400 else 0x040C
    let old := s.reg key
    let new := w.toNat &&& (if ctrl then 0x00030101 else 0x3FF)
    let new := if ctrl && !twinEn s then new % 2 ^ 16 + bits old 17 16 * 2 ^ 16 else new
    let changed := if ctrl then new % 2 != s.reg key % 2 else new != s.reg key
    let s := s.setReg key new
    .next (if changed && linkState (s.port 8).state then portTo s 8 .down else s)

end Sys2Proof.Machine
end

