-- ==== Sys2Proof/Machine/Admit.lean ====
section
/-! DEFINITION. What every partner request meets before its own checks (R277, R287, R288, R293) and how it is answered;
the boundary triggers (R20, R23, R25, R340); tack updates on their way (R85). -/

namespace Sys2Proof.Machine

/-! ### Boundary triggers -/

/-- The epoch state takes a value in this cc. -/
def epcTo (s : State) (st : EState) : State := { s with epc := { s.epc with state := st, since := s.now } }

/-- A boundary starts in this cc: nothing of it has been done. -/
def startBoundary (e : Epoch) : Epoch :=
  { e with waitCc := 0, cleared := false, applied := false, abandoned := 0, held := false, waiting := false }

/-- The close sequence starts (R20, R28, R220), with its CLOSE trace record (R405). -/
def startClose (s : State) : State :=
  let e := startBoundary s.epc
  let s := epcTo { s with epc := { e with closeAt := s.now, fromIdle := false } } .drain
  traceAdd s 0xFFFFFF 5 0 0 s.epc.cause

/-- A boundary starts from IDLE: CLEAR, then OPENING (R20). -/
def startOpen (s : State) : State :=
  let e := startBoundary s.epc
  epcTo { s with epc := { e with fromIdle := true, runRead := true, drainAt := s.now } } .clear

/-- Trigger `b` of Table 02.3 (EPC_CAUSE bit) occurs in this cc (R20, R23, R25, R340). The second value tells that it was
merged or requested nothing. -/
def trigger (s : State) (b : Nat) : State × Bool :=
  let merged := (s.bump 0x0220 1, true)
  let again := decide (s.epc.causeCc = s.now) && s.epc.cause != 0
  let first (s : State) : State := { s with epc := { s.epc with cause := 2 ^ b, causeCc := s.now } }
  let join : State := { s with epc := { s.epc with cause := s.epc.cause ||| 2 ^ b } }
  match s.epc.state with
  | .idle =>
    if !bit (s.reg 0x0200) 0 then merged
    else if s.frozen then
      if s.clk.held then
        let s := { join with clk := { join.clk with heldSched := join.clk.heldSched || b == 3 } }
        if again then (s, false) else (s.bump 0x0220 1, true)
      else
        let s := first s
        ({ s with clk := { s.clk with held := true, heldSched := b == 3 } }, false)
    else (startOpen (first s), false)
  | .opened => (startClose (first s), false)
  | _ => if again && s.epc.since == s.now then (join, false) else merged

/-! ### Tack updates -/

/-- An update made in this cc applies 2 cc later (R85). -/
def tackUpdate (s : State) (rank tack : Nat) (write : Bool) (value : Nat) : State :=
  { s with tackUpd := s.tackUpd ++ [{ due := s.now + 2, rank := rank, tack := tack, write := write, value := value % 2 ^ 16 }] }

/-! ### Partner requests -/

/-- EXP_NODE of a port's partner. -/
def expNode (s : State) (p : Nat) : Nat := s.twB 9 p 0 9 0

/-- The egress reserve holds a response of `heads` headers and `units` line units (R293). -/
def egressRoom (s : State) (p heads units : Nat) : Bool :=
  decide ((s.port p).egHeads + heads ≤ 256) && decide ((s.port p).egUnits + units ≤ 1024)

/-- Egress reserve taken, and released unsent. -/
def egressTake (s : State) (p heads units : Nat) : State :=
  s.modPort p fun x => { x with egHeads := x.egHeads + heads, egUnits := x.egUnits + units }
def egressFree (s : State) (p heads units : Nat) : State :=
  s.modPort p fun x => { x with egHeads := x.egHeads - heads, egUnits := x.egUnits - units }

/-- A response to `m` (R273, Table 12.13). -/
def rspMsg (s : State) (m : Msg) (type status : Nat) (payload : List Byte) : Msg :=
  { type := type, dst := m.src, src := nodeOf s, tenant := m.tenant, tag := m.tag, txn := m.txn, status := status
    fault := if type = 0x20 ∨ type = 0x21 then s.once.headD 0 else 0, payload := payload }

/-- The answer of a request, holding one header and `units` line units of egress reserve. -/
def answer (s : State) (p : Nat) (m : Msg) (type status units : Nat) (payload : List Byte) : State :=
  pushRsp s p (rspMsg s m type status payload) 1 units

/-- What a request meets: `rsp` its response type, `units` the line units it reserves, `bad` that it is malformed,
`owed` that its response is wanted at all. -/
structure ReqShape where
  rsp   : Nat := 0x20
  units : Nat := 0
  bad   : Bool := false
  owed  : Bool := true
  empty : List Byte := []
  deriving DecidableEq, Repr

/-- A request that ends with a status other than OK. -/
def reject (s : State) (p : Nat) (m : Msg) (r : ReqShape) (status : Nat) : State :=
  if r.owed then answer s p m r.rsp status r.units r.empty else s

/-- The bucket of (port, tenant) gives a token; a QRATE of 0 as of the last refill applies no quota (R283, R288). -/
def takeToken (s : State) (p t : Nat) : Option State :=
  if (s.port p).qrate = 0 then some s
  else
    let n := mget zeroNat (s.port p).buckets t
    if n = 0 then none else some (s.modPort p fun x => { x with buckets := mset zeroNat x.buckets t (n - 1) })

/-- A request of the RQ channel before its own checks: the port's state, egress reserve, malformation and SRC, UNIT_OFF
when requests are stopped (R254, R264, R277, R287, R293, R400, R413). `k` continues with the reserve taken. -/
def withRequest (s : State) (p : Nat) (m : Msg) (r : ReqShape) (k : State → State) : State :=
  let x := s.port p
  if !s.linkOn || !linkState x.state || !rxNext s p 2 m then s
  else if x.state = .fenced then takeRx s p 2 m
  else if x.state = .hello then malformed (takeRx s p 2 m) p
  else if r.owed && !egressRoom s p 1 r.units then s
  else
    let s := { (if r.owed then egressTake (takeRx s p 2 m) p 1 r.units else takeRx s p 2 m) with once := [] }
    if r.bad || m.src != expNode s p || m.status != 0 || m.fault != 0 then reject (malformed s p) p m r 0x03
    else if s.halted then reject s p m r 0x07
    else k s

/-- The rights check and the quota check of R287 against rights word `w` of the partner table; a replica tenant's answer
is NO_RIGHTS (R317). -/
def withRights (s : State) (p : Nat) (m : Msg) (r : ReqShape) (w : Nat) (k : State → State) : State :=
  if !bit (s.tw 9 p w) m.tenant || isReplica s m.tenant then reject (refusal s p) p m r 0x01
  else match takeToken s p m.tenant with
    | none => reject s p m r 0x04
    | some s => k s

end Sys2Proof.Machine
end

