-- ==== Sys2Proof/Machine/Chain.lean ====
section
/-! DEFINITION. What ends a chain, a queue, a Cobbler program or a tenant's work: the answers owed to SUBMITs (R53, R55),
faults that stop a queue (R47, R397), the end of a program (R202), and abandonment (R32, R33, R90, R221). -/

namespace Sys2Proof.Machine

/-! ### Answers -/

/-- Free entries of a chain-head FIFO (R54). -/
def fifoFree (s : State) (q : Nat) : Nat := 16 - (s.q q).fifo.length

/-- A SUBMIT_RSP to the partner that submitted chain `c` (Tables 03.14, 03.15); one owed from a link the port has left
since is discarded as it is formed (R254). -/
def submitRsp (s : State) (q : Nat) (c : Chain) (status phase tag epoch : Nat) : State :=
  match c.port with
  | none => s
  | some p => if (s.port p).links ≠ c.link then s else pushRsp s p
      { type := 0x22, dst := c.src, src := nodeOf s, tenant := c.tenant, tag := c.htag, txn := c.txn
        payload := leBytes 8 (tag * 2 ^ 40 + c.submitId * 2 ^ 16 + status * 2 ^ 8 + phase * 2 ^ 6 + q) ++ leBytes 8 epoch ++
          leBytes 8 ((if phase = 1 then c.faults * 2 ^ 16 else 0) + fifoFree s q) } 1 0

/-- The PHASE RETIRE answer of a chain, when RSP asks for it (R55). -/
def retireAnswer (s : State) (q : Nat) (c : Chain) (status tag : Nat) : State :=
  if bit c.rsp 1 then submitRsp s q c status 1 tag s.epc.count else s

/-- A head that will never start is answered DONE_ABANDONED. An inline head's descriptor is its oldest; of another no
descriptor is known, and the spec states no TAG: it is free (log entry 36). -/
def answerHead (s : State) (q : Nat) (c : Chain) : State :=
  match c.inline with
  | some w => retireAnswer s q c 0x12 (tagOf w)
  | none => retireAnswer s.tick1 q c 0x12 ((Config.freeWord s.freeCtr).toNat % 2 ^ 24)

/-- Heads that will never start are answered, and stay in the FIFO with nothing owed (R55; log entry 36). -/
def answerFifo (s : State) (q : Nat) : State :=
  let s := (s.q q).fifo.foldl (fun s c => answerHead s q c) s
  s.modQ q fun x => { x with fifo := x.fifo.map fun c => { c with rsp := c.rsp % 2 } }

/-! ### Faults that stop a queue -/

/-- A queue stops for the epoch: nothing more is fetched or issued, its chain and its heads are answered (R47, R55). -/
def stopQueue (s : State) (q tag : Nat) : State :=
  let s := match (s.q q).chain with
    | none => s
    | some c => retireAnswer s q c 0x11 tag
  (answerFifo s q).modQ q fun x => { x with stopped := true, chain := none, fetch := [], next := none }

/-- A fault of level QUEUE found by the queue engine (R47, R397). -/
def queueFault (s : State) (q code tag detail : Nat) : State :=
  let s := recordFault s { tag := tag, code := code, unit := 103, tenant := s.qTen q, tv := true, queue := q, qv := true,
                           level := 2, detail := detail }
  let s := match (s.q q).chain with
    | none => s
    | some c => chainFault s q c.id
  stopQueue s q tag

/-- DETAIL of DESC_ADDR, DESC_POISON and DESC_FORMAT (Table 19.4). -/
def descDetail (f : Fetch) : Nat := if f.inline then 2 ^ 63 else f.addr

/-! ### Cobbler programs -/

/-- A program of a COBBLER descriptor has started or ended: its part of the descriptor's completion (R64, R201). -/
def cblCount (s : State) (q n : Nat) : State :=
  s.modFlight q n fun f => { f with launched := f.launched - 1, complete := f.complete || decide (f.launched ≤ 1) }

/-- WAIT_DONE of the COBBLER descriptor in flight. -/
def waitDone (s : State) (q n : Nat) : Bool :=
  match s.flightAt q n with
  | none => false
  | some f => bit (f.params.getD 1 0) 32

/-- The program on Cobbler `k` ends: the Cobbler is idle, its registers stay, outstanding reads are discarded (R202). -/
def cblEnd (s : State) (k : Nat) : State :=
  let c := s.cbl k
  if !c.running then s
  else
    let s := s.setCbl k { c with running := false, twait := none, lines := [], ops := c.ops.map fun o => { o with dead := true } }
    if waitDone s c.queue c.seq || !c.started then cblCount s c.queue c.seq else s

/-- A fault record of Cobbler `k`'s program (R52, R202). -/
def cblRecord (s : State) (k code level detail : Nat) : State :=
  let c := s.cbl k
  let s := recordFault s { tag := c.tag, code := code, unit := 64 + k, tenant := c.tenant, tv := true, queue := c.queue
                           qv := true, level := level, detail := detail }
  match s.flightAt c.queue c.seq with
  | none => s
  | some f => chainFault (s.modFlight c.queue c.seq fun f => { f with faults := f.faults + 1 }) c.queue f.chain

/-- A fault halts the program (R202): the record names the PC of the instruction and the offending address. -/
def cblFaultAt (s : State) (k code pc addr : Nat) : State :=
  cblEnd (cblRecord s k code 1 (addr % 2 ^ 32 * 2 ^ 32 + pc % 2 ^ 16)) k

/-- A fault of the instruction at the PC. -/
def cblFault (s : State) (k code addr : Nat) : State := cblFaultAt s k code (s.cbl k).pc addr

/-- The Cobblers that run programs of tenant `t`. -/
def cblsOf (s : State) (t : Nat) : List Nat := (List.range 16).filter fun k => (s.cbl k).running && (s.cbl k).tenant == t

/-- The WEIGHT of a queue, with which its credit is reloaded (R62). -/
def queueWeight (s : State) (q : Nat) : Nat := atLeast1 (s.tfB 5 q 0 11 8)

/-! ### Abandonment -/

/-- The queue has work that has not ended (R28, R29). -/
def qPending (x : QueueSt) : Bool :=
  !(x.ended || x.stopped || x.abandoned) && (x.chain.isSome || !x.fifo.isEmpty)

/-- The descriptor of queue `q` that stands at a WAIT. -/
def waitingAt (s : State) (q : Nat) : Option (Flight × Waiting) :=
  (s.q q).flight.findSome? fun f => f.wait.map fun w => (f, w)

/-- The queues of tenant `t`. -/
def qsOf (s : State) (t : Nat) : List Nat := (List.range 64).filter fun q => s.qTen q == t && s.qOn q

/-- The tag of the oldest unretired descriptor of a queue (R33, R55). -/
def oldestTag (x : QueueSt) : Nat :=
  match x.flight, x.fetch, x.next with
  | f :: _, _, _ => tagOf f.words
  | [], f :: _, _ => (f.words.map tagOf).getD f.predTag
  | [], [], some n => n.2
  | [], [], none => 0xFFFFFD

/-- Queue `q` has drained (R29). -/
def qDrained (s : State) (q : Nat) : Bool := (s.q q).flight.isEmpty && !qPending (s.q q)

/-- The event plane has delivered or dropped every event of tenant `t` due in the step (R29). -/
def tenDelivered (s : State) (t : Nat) : Bool :=
  (List.range 64).all fun v => !((s.vc v).evValid && decide (evTen s v = t)) || (s.vc v).delivEnd || decide (dueCount s v = 0)

/-- Tenant `t` has met the conditions of R29 for its own work: its queues and programs have drained, its Welt requests
have ended, its due events are delivered. -/
def tenDrained (s : State) (t : Nat) : Bool :=
  (qsOf s t).all (qDrained s) && (cblsOf s t).isEmpty && tenDelivered s t &&
  (List.range 8).all fun p => (s.port p).reqs.all fun r => r.tenant != t

/-- An in-flight descriptor is abandoned (R32): tiles not dealt are dropped, a wait ends. -/
def abandonFlight (f : Flight) : Flight :=
  let waits := clsOf f.words == .red || clsOf f.words == .redsfu || dOpcode f.words == 0x93
  { f with abandoned := true, tiles := f.dealt, wait := none, complete := f.complete || (!waits && decide (f.dealt ≤ f.done)) }

/-- One queue of an abandoned tenant (R32, R55). -/
def abandonQueue (s : State) (q : Nat) : State :=
  let x := s.q q
  let tag := oldestTag x
  let s := match x.chain with
    | none => s
    | some c => retireAnswer s q c 0x12 tag
  let s := x.owed.foldl (fun s c => retireAnswer s q c 0x12 tag) s
  (answerFifo s q).modQ q fun x =>
    { x with abandoned := true, chain := none, owed := [], fetch := [], next := none, flight := x.flight.map abandonFlight }

/-- A tenant's work for the epoch is abandoned (R32, R221): queues, programs, undelivered events. -/
def abandonTenant (s : State) (t : Nat) : State :=
  let s := s.modTen t fun x => { x with abandoned := true }
  let s := (qsOf s t).foldl abandonQueue s
  let s := (cblsOf s t).foldl cblEnd s
  evAbandon s t

/-- The EPOCH_DEADLINE records of a tenant (R33): one for each queue with work left, one for each running program. -/
def deadlineRecords (s : State) (t level : Nat) : State :=
  let s := ((qsOf s t).filter fun q => !qDrained s q).foldl (fun s q =>
    let s' := recordFault s { tag := oldestTag (s.q q), code := 0x50, unit := 103, tenant := t, tv := true, queue := q
                              qv := true, level := level }
    let ids := ((s.q q).chain.toList ++ (s.q q).owed).map (·.id)
    ids.foldl (fun s i => chainFault s q i) s') s
  (cblsOf s t).foldl (fun s k => cblRecord s k 0x50 level 1) s

/-- The deadline passes (R31, R32, R33, R221): every tenant not yet drained and not yet abandoned loses its work, and
EPC_ABANDON will name it. -/
def deadlineAbandon (s : State) (level : Nat) : State :=
  (List.range 32).foldl (fun s t =>
    if !s.tenRun t then s
    else if (s.ten t).abandoned || tenDrained s t then evAbandon s t
    else
      let s := abandonTenant (deadlineRecords s t level) t
      { s with epc := { s.epc with abandoned := s.epc.abandoned ||| 2 ^ t } }) s

end Sys2Proof.Machine
end

