-- ==== Sys2Proof/Machine/Memory.lean ====
section
/-! DEFINITION. The memories on their own: completion of accepted HBM accesses (R239, R242), and the scrubbers
(R233, R243 to R246, R391). -/

namespace Sys2Proof.Machine

/-- The scrubbers as they stand after the cold sequence: the first step 2^DIV cc after DEV_READY (R245). -/
def hbmScrubStart (_ : Nat) : Scrub := { due := 2 ^ 18 }
def sramScrubStart (_ : Nat) : Scrub := { due := 2 ^ 12 }

/-- The scrubber of controller `h`, and of CBUF or local memory `u` (VC n is n, Cobbler k is 64 + k). -/
def State.hbmScrubAt (s : State) (h : Nat) : Scrub := mget hbmScrubStart s.mem.hbmScrub h
def State.sramScrubAt (s : State) (u : Nat) : Scrub := mget sramScrubStart s.mem.sramScrub u
def State.setHbmScrub (s : State) (h : Nat) (x : Scrub) : State :=
  { s with mem := { s.mem with hbmScrub := mset hbmScrubStart s.mem.hbmScrub h x } }
def State.setSramScrub (s : State) (u : Nat) (x : Scrub) : State :=
  { s with mem := { s.mem with sramScrub := mset sramScrubStart s.mem.sramScrub u x } }

/-- The cc between steps: HBM_DIV and CBUF_DIV below 8 act as 8 (R391). -/
def hbmDiv (w : Nat) : Nat := 2 ^ max 8 (bits w 28 24)
def cbufDiv (w : Nat) : Nat := 2 ^ max 8 (bits w 12 8)

/-- MEM_SCRUB_PASS: the passes the last of HC0 to HC3 has completed (Table 18.10). -/
def scrubPass (s : State) : Nat :=
  min (min (s.hbmScrubAt 0).passes (s.hbmScrubAt 1).passes) (min (s.hbmScrubAt 2).passes (s.hbmScrubAt 3).passes) % 2 ^ 32

/-- The scrubber as a requester. -/
def scrubAgent (unit : Nat) : Agent := { kind := .scrub, cls := 7, unit := unit }

/-- Lines of one controller: 3,145,728 chunks in each of 32 pseudo-channels, four lines each (R226). -/
def hbmWalk : Nat := 3145728 * 128

/-- The line number (physical address / 64) of place `pos` in controller `h`'s walk (R226, R243). -/
def walkLine (h pos : Nat) : Nat :=
  let l := pos / 128
  let pc := pos / 4 % 32
  let c := l * 128 + (pc ^^^ (l / 4 % 32)) * 4 + (h ^^^ (l % 4))
  c * 4 + pos % 4

/-- One HBM line scrubbed (R243, R246, R247). -/
def scrubLine (s : State) (h l : Nat) : State :=
  match s.errSeen l with
  | .clean => s
  | .poison => s
  | .ce => (s.bump (0x0498 + 4 * h) 1).setLineErr l .clean
  | .ue =>
    let a := scrubAgent (88 + h)
    (agentOnce (logUE (s.bump 0x04A8 1) a 2 h (l * 64)) a 0x22 (eccDetail 2 (l * 64))).setLineErr l .poison

/-- HBM_SCRUB_STEP (R243, R245, R391): the step is due, enabled, and its controller ON. -/
def execHbmScrubStep (h : Fin 4) (s : State) : Out :=
  let x := s.hbmScrubAt h
  if s.linkOn && bit (s.reg 0x0480) 31 && s.isOn (88 + h) && decide (x.due ≤ s.now) then
    let last := x.pos + 1 = hbmWalk
    .next ((scrubLine s h (walkLine h x.pos)).setHbmScrub h
      { pos := if last then 0 else x.pos + 1, due := x.due + hbmDiv (s.reg 0x0480), passes := if last then x.passes + 1 else x.passes })
  else .next s

/-- The words of a scrubbed memory, and the number of its first (R232). -/
def sramWords (u : Nat) : Nat := if u < 64 then 131072 else 4096
def sramFirst (u : Nat) : Nat := (if u < 64 then cbufAddr u 0 else localAddr (u - 64) 0) / 16

/-- One CBUF or local word scrubbed; a word whose valid bit is clear is passed over (R233, R244). -/
def scrubWord (s : State) (u w : Nat) : State :=
  let a := scrubAgent u
  let p := sramPlace w
  let c := parityCheck s a w
  if c.2 then c.1
  else if !s.wordValid w then s
  else match s.wordErr w with
    | .clean => s
    | .poison => s
    | .ce => (s.bump 0x0490 1).setWord w true .clean
    | .ue => (agentOnce (logUE (s.bump 0x0494 1) a p.1 p.2.1 p.2.2) a 0x22 (eccDetail p.1 p.2.2)).setWord w true .poison

/-- The scrub step of memory `u` that was asked for in the cc that ends: made in a cc in which nothing else touched the
word's bank (R244), the next one counted from the cc this one was due (R245). -/
def scrubSram (s : State) (u : Nat) : State :=
  let x := s.sramScrubAt u
  let w := sramFirst u + x.pos
  if s.cc.touched.contains (bankOf w) then s
  else
    let s' := if s.eff u = 0 then s else scrubWord s u w
    let last := x.pos + 1 = sramWords u
    s'.setSramScrub u
      { pos := if last then 0 else x.pos + 1, due := x.due + cbufDiv (s.reg 0x0480), passes := if last then x.passes + 1 else x.passes }

/-- CBUF_SCRUB_STEP (R244, R245, R391): the scrubber, enabled and its step due, takes its bank in this cc if no other
accessor touches it; which is known as the cc ends (`scrubsDue`). -/
def execCbufScrubStep (u : Fin 80) (s : State) : Out :=
  if s.linkOn && bit (s.reg 0x0480) 15 && decide ((s.sramScrubAt u).due ≤ s.now) && !s.cc.scrub.contains u.val then
    .next (s.setCc { s.cc with scrub := s.cc.scrub ++ [u.val] })
  else .next s

/-- The scrub steps of the cc that ends. -/
def scrubsDue (s : State) : State := s.cc.scrub.foldl scrubSram s

/-- A controller that is not ON takes its next step 2^HBM_DIV cc after the first cc in which it is ON again (R243);
called as cc `s.now` begins. -/
def scrubHold (s : State) : State :=
  [0, 1, 2, 3].foldl (fun s h => if s.isOn (88 + h) then s
    else s.setHbmScrub h { s.hbmScrubAt h with due := s.now + 1 + hbmDiv (s.reg 0x0480) }) s

/-- MEM_SCRUB_WRITE (R391): a scrubber whose EN is set again starts its interval in this cc. -/
def execMemScrubWrite (w : Word) (s : State) : Out :=
  if !s.mspOn then .next s
  else
    let old := s.reg 0x0480
    let new := w.toNat &&& 0x9F009F00
    let s := s.setReg 0x0480 new
    let s := if bit new 31 && !bit old 31 then
        [0, 1, 2, 3].foldl (fun s h => s.setHbmScrub h { s.hbmScrubAt h with due := s.now + hbmDiv new }) s else s
    .next (if bit new 15 && !bit old 15 then
        (List.range 80).foldl (fun s u => s.setSramScrub u { s.sramScrubAt u with due := s.now + cbufDiv new }) s else s)

/-- Accesses without the `n`-th of controller `h`; that access, when no earlier one of its line is before it. -/
def takeAcc (h : Nat) : Nat → List Nat → List Acc → Option (Acc × List Acc)
  | _, _, [] => none
  | n, seen, a :: as =>
    if a.hc = h then
      match n with
      | 0 => if seen.contains a.line then none else some (a, as)
      | n + 1 => (takeAcc h n (a.line :: seen) as).map fun r => (r.1, a :: r.2)
    else (takeAcc h n seen as).map fun r => (r.1, a :: r.2)

/-- HBM_ACCESS_COMPLETE (R239, R242, R245): the `n`-th access controller `h` holds completes, never before an earlier one
of its line; a corrected or uncorrectable line is rewritten unless a write has taken its place. -/
def execHbmAccessComplete (h : Fin 4) (n : Nat) (s : State) : Out :=
  if !s.linkOn then .next s
  else match takeAcc h n [] s.mem.acc with
    | none => .next s
    | some (a, rest) =>
      let s := { s with mem := { s.mem with acc := rest } }
      match a.fix with
      | some .clean => .next (if s.lineErr a.line = .ce then s.setLineErr a.line .clean else s)
      | some .poison => .next (if s.lineErr a.line = .ue then s.setLineErr a.line .poison else s)
      | _ => .next s

end Sys2Proof.Machine
end

