-- ==== Sys2Proof/Machine/Messages.lean ====
section
/-! DEFINITION. What partners send besides SUBMIT: READ, WRITE, TACK_SET, EPOCH_CTRL (R274 to R276, R287), EVENT_BATCH
(R217), and the stream channels (R307 to R314). -/

namespace Sys2Proof.Machine

/-! ### READ and WRITE -/

/-- A partner message as a requester. -/
def partnerAgent (p t : Nat) : Agent := { kind := .partner p t, cls := 6, unit := portUnit p }

/-- The physical addresses of `n` lines of tenant `t` from `a`; none when some byte lies in no window (R227). -/
def linesOf (s : State) (t a n : Nat) : Option (List Nat) := (List.range n).mapM fun i => xlate s t (a + 64 * i) 64

/-- A controller that serves one of the lines is not ON (Table 19.7). -/
def someOff (s : State) (pas : List Nat) : Bool := pas.any fun pa => !s.isOn (88 + stackOf pa)

/-- The lines a READ asks for. -/
def readLines (m : Msg) : Nat := bits (mword m 0) 55 48 + 1

/-- A READ breaks no rule of R277. -/
def readFits (s : State) (m : Msg) : Bool :=
  let w := mword m 0
  msgFits s m 0x10 8 && bits w 63 54 == 0 && bits w 47 40 == 0 && bits w 5 0 == 0

/-- The lines read one after another: their bytes, their POISON bits. -/
def readAll (s : State) (a : Agent) (pas : List Nat) : List Byte × Nat × State :=
  pas.foldl (fun (acc : List Byte × Nat × State) pa =>
    let r := readLine acc.2.2 a (pa / 64)
    (acc.1 ++ r.1, acc.2.1 + (if r.2.1 then 2 ^ (acc.1.length / 64) else 0), r.2.2)) ([], 0, s)

/-- READ (R227, R239, R274, R278, R287, R293). -/
def execRead (p : Fin 8) (m : Msg) (s : State) : Out :=
  let n := readLines m
  let r : ReqShape := { rsp := 0x20, units := n, bad := !readFits s m, empty := leBytes 8 0 }
  .next (withRequest s p m r fun s => withRights s p m r 2 fun s =>
    match linesOf s m.tenant (bits (mword m 0) 39 0) n with
    | none => reject s p m r 0x02
    | some pas =>
      if someOff s pas then reject s p m r 0x07
      else
        let x := readAll s (partnerAgent p m.tenant) pas
        answer x.2.2 p m 0x20 0x00 n (leBytes 8 x.2.1 ++ x.1))

/-- MASKED of a WRITE. -/
def writeMasked (m : Msg) : Bool := bit (mword m 0) 40

/-- A WRITE breaks no rule of R277. -/
def writeFits (s : State) (m : Msg) : Bool :=
  let w := mword m 0
  msgFits s m 0x11 ((if writeMasked m then 24 else 16) + 64 * readLines m) && bits w 63 54 == 0 && bits w 47 41 == 0 &&
  bits w 5 0 == 0 && (!writeMasked m || bits w 55 48 == 0)

/-- Line `i` of a WRITE: its bytes where MASK allows, and its POISON bit (R275). -/
def writeLineOf (m : Msg) (i : Nat) : List (Option Byte) × Bool :=
  let data := (m.payload.drop ((if writeMasked m then 24 else 16) + 64 * i)).take 64
  (if writeMasked m then data.mapIdx fun j b => if bit (mword m 2) j then some b else none else data.map some,
   bit (mword m 1) i)

/-- The lines written, one request for those that follow one another in one window (R323). -/
def writeAll (s : State) (p t a : Nat) (pas : List Nat) (m : Msg) : State :=
  let each : List (Option Nat × LineWr) := pas.zipIdx.map fun x =>
    let l := writeLineOf m x.2
    (findWin s t (a + 64 * x.2) 64, { line := x.1 / 64, new := l.1, poison := l.2 })
  (each.splitBy fun x y => x.1 == y.1).foldl (fun s g =>
    match (g.headD (none, {})).1 with
    | some w => (reqWrite s (partnerAgent p t) t w (g.map Prod.snd)).1
    | none => s) s

/-- WRITE (R227, R240, R241, R275, R278, R287, R293, R323). -/
def execWrite (p : Fin 8) (m : Msg) (s : State) : Out :=
  let r : ReqShape := { rsp := 0x21, bad := !writeFits s m }
  let a := bits (mword m 0) 39 0
  .next (withRequest s p m r fun s => withRights s p m r 3 fun s =>
    match linesOf s m.tenant a (readLines m) with
    | none => reject s p m r 0x02
    | some pas =>
      if someOff s pas then reject s p m r 0x07
      else answer (writeAll s p m.tenant a pas m) p m 0x21 0x00 0 [])

/-! ### TACK_SET and EPOCH_CTRL -/

/-- CTRL_ACK's payload: MERGED and the epoch number (Table 12.18). -/
def ctrlAck (s : State) (merged : Bool) : List Byte := leBytes 8 ((if merged then 2 ^ 40 else 0) + s.epc.count)

/-- TACK_SET (R84, R85, R276, R287). -/
def execTackSet (p : Fin 8) (m : Msg) (s : State) : Out :=
  let w := mword m 0
  let r : ReqShape := { rsp := 0x23, owed := bit w 41, empty := ctrlAck s false
                        bad := !(msgFits s m 0x13 8 && bits w 47 42 == 0 && bits w 39 10 == 0) }
  let k := bits w 9 0
  .next (withRequest s p m r fun s => withRights s p m r 4 fun s =>
    if !s.ownsTack m.tenant k then reject (refusal s p) p m r 0x05
    else if !bit (s.tf 6 k 0) 31 || (bit w 40 && !bit (s.tf 6 k 0) 30) then
      reject (refusal (s.tackBit k 2) p) p m r 0x05
    else reject (tackUpdate s (80 + 2 * p) k (bit w 40) (bits w 63 48)) p m r 0x00)

/-- EPOCH_CTRL (R23 to R25, R276, R283, R287). -/
def execEpochCtrl (p : Fin 8) (m : Msg) (s : State) : Out :=
  let r : ReqShape := { rsp := 0x23, empty := ctrlAck s true, bad := !(msgFits s m 0x14 8 && mword m 0 == 1 && m.tenant == 0) }
  .next (withRequest s p m r fun s =>
    if !bit (s.tw 9 p 0) 28 then reject (refusal s p) p m r 0x06
    else
      let e := s.epc.count
      let x := if bit (s.reg 0x0218) 0 then trigger s 1 else (s, true)
      answer x.1 p m 0x23 0x00 0 (leBytes 8 ((if x.2 then 2 ^ 40 else 0) + e)))

/-! ### The EV channel -/

/-- What a message of the EV channel meets first: its turn, the port's state (R264, R286, R296) and whether it is malformed
(R277). -/
def withEv (s : State) (p : Nat) (m : Msg) (bad : Bool) (k : State → State) : State :=
  withRx s p 3 m (fun s => malformed s p)
    (fun s => if bad || m.status != 0 || m.fault != 0 then malformed s p else k { s with once := [] }) id

/-- Event `i` of an EVENT_BATCH or of a stream message: its 32-bit address. -/
def eventAt (m : Msg) (i : Nat) : Nat := leNat ((m.payload.drop (8 + 4 * i)).take 4)

/-- An EVENT_BATCH breaks no rule of R217 and R277. -/
def batchFits (s : State) (m : Msg) : Bool :=
  let w := mword m 0
  let n := bits w 55 50
  msgFits s m 0x30 (8 + 4 * n) && decide (1 ≤ n) && decide (n ≤ 56) && bits w 63 56 == 0 && bits w 49 45 == 0 &&
  (List.range n).all fun i => eventAt m i % 64 == 0

/-- EVENT_BATCH (R217, R222, R283, R339, R400): it waits out a change of M, in which the event plane does nothing. -/
def execEventBatch (p : Fin 8) (m : Msg) (s : State) : Out :=
  let w := mword m 0
  let n := bits w 55 50
  if s.frozen then .next s
  else .next (withEv s p m (!batchFits s m) fun s =>
    if s.halted then evDrop s 7 n
    else if !bit (s.tw 9 p 5) (bits w 44 40) then evDrop s 10 n
    else (List.range n).foldl (fun s i => remoteEvent s (bits w 44 40) (bits w 39 0) (eventAt m i)) s)

/-! ### Stream channels -/

def strTen (s : State) (c : Nat) : Nat := s.tfB 0x0B c 0 29 25
def strPort (s : State) (c : Nat) : Nat := s.tfB 0x0B c 0 23 21
def strEvent (s : State) (c : Nat) : Bool := bit (s.tf 0x0B c 0) 30
def strBase (s : State) (c : Nat) : Nat := s.tf 0x0B c 1 + s.tfB 0x0B c 2 31 24 * 2 ^ 32
def strSlots (s : State) (c : Nat) : Nat := 2 ^ s.tfB 0x0B c 2 23 19
def strSlot (s : State) (c : Nat) : Nat := 2 ^ s.tfB 0x0B c 2 18 14

/-- Stream ingress of channel `c` as a requester. -/
def strAgent (s : State) (c : Nat) : Agent := { kind := .stream c (strTen s c), cls := 6, unit := portUnit (strPort s c) }

/-- RD as the tenant last wrote it (R310); none when the RD line lies in no window. A poisoned line gives a free value. -/
def strRd (s : State) (c : Nat) : Option Nat × State :=
  match tenRead s (strAgent s c) (strTen s c) (strBase s c + 64) 4 with
  | none => (none, s)
  | some r => if r.2.1 then (some (Config.freeWord r.2.2.freeCtr).toNat, r.2.2.tick1) else (some (leNat r.1), r.2.2)

/-- Entries written and not yet published. -/
def strUnpub (s : State) (c : Nat) : Nat := ((s.str c).unpub.map (·.n)).sum

/-- Entries of the ring in use: WR − RD modulo 2^32 (R310). DEDUCED: those written and not yet published stand beside them
(log entry 95). -/
def strUsed (s : State) (c rd : Nat) : Nat := ((s.str c).wr + 2 ^ 32 - rd % 2 ^ 32) % 2 ^ 32 + strUnpub s c

/-- The entry words of channel `c` that a frame or message written now goes by. -/
def strWords (s : State) (c : Nat) : List Nat := (List.range 3).map (s.tf 0x0B c)

/-- `s` with the entry of channel `c` as in those words, for finding its ring. -/
def strView (s : State) (c : Nat) (ws : List Nat) : State :=
  { s with tabF := ws.zipIdx.foldl (fun m x => mset tabDefault m (tabKey 0x0B c x.2) x.1) s.tabF }

/-- A counter of a channel, saturating: 0 DROP_FULL, 1 DROP_OTHER. -/
def strDrop (s : State) (c other n : Nat) : State :=
  s.modStr c fun x => if other = 0 then { x with dropFull := sat32 (x.dropFull + n) } else { x with dropOther := sat32 (x.dropOther + n) }

/-- The slot header of Table 14.5. -/
def frameHeader (f : Frame) : List Byte :=
  leBytes 8 (f.fseq * 2 ^ 48 + (if f.gap then 2 ^ 33 else 0) + (if f.trunc then 2 ^ 32 else 0) + f.bytes) ++
  leBytes 8 (f.sec * 2 ^ 16 + f.frac) ++ leBytes 8 f.ns ++ leBytes 8 f.epoch ++ List.replicate 32 0

/-- The tenant address of the slot of frame `k`. -/
def frameAt (s : State) (c k : Nat) : Nat := strBase s c + 128 + k % strSlots s c * strSlot s c

/-- A channel's open frame closes (R311, R312): its header is written and it waits to be published, unless it is dropped. -/
def closeFrame (s : State) (c : Nat) (trunc : Bool) : State :=
  match (s.str c).frame with
  | none => s
  | some f =>
    let s := s.modStr c fun x => { x with frame := none }
    if f.drop then s
    else if f.refusedWr then strDrop s c 1 1
    else
      let w := tenWrite s (strAgent s c) (strTen s c) (frameAt s c f.index)
        (allBytes (frameHeader { f with trunc := f.trunc || trunc })) false
      if w.2 then strDrop w.1 c 1 1 else w.1.modStr c fun x => { x with unpub := x.unpub ++ [{ n := 1, words := strWords s c }] }

/-- A frame opens at a message with FIRST (R311, Table 14.5). -/
def openFrame (s : State) (c fseq : Nat) : State :=
  let s := closeFrame s c true
  let r := strRd s c
  let s := r.2
  let x := s.str c
  let full := r.1.any fun rd => decide (strSlots s c ≤ strUsed s c rd)
  let s := if full then strDrop s c 0 1 else s
  let f : Frame :=
    { fseq := fseq, gap := x.lastFseq.any fun l => (l + 1) % 65536 != fseq
      index := x.wr + strUnpub s c, sec := s.tod.sec, ns := s.tod.ns, frac := s.tod.frac / 2 ^ 32, epoch := s.epc.count
      drop := full, refusedWr := r.1.isNone }
  s.modStr c fun x => { x with frame := some f, lastFseq := some fseq }

/-- DATA of a frame's message written behind what the frame holds; what passes the slot's end is lost (R311). -/
def frameData (s : State) (c : Nat) (data : List Byte) : State :=
  match (s.str c).frame with
  | none => strDrop s c 1 1
  | some f =>
    if f.drop || f.refusedWr then s
    else
      let fit := data.take (strSlot s c - 64 - f.bytes)
      let w := tenWrite s (strAgent s c) (strTen s c) (frameAt s c f.index + 64 + f.bytes) (allBytes fit) false
      let f' : Frame := { f with bytes := f.bytes + fit.length, trunc := f.trunc || decide (fit.length < data.length), refusedWr := w.2 }
      w.1.modStr c fun x => { x with frame := some f' }

/-- The entries of an EVENT-mode message, written whole or dropped whole (R313). -/
def eventData (s : State) (c : Nat) (evs : List Nat) : State :=
  let r := strRd s c
  let s := r.2
  let n := evs.length
  match r.1 with
  | none => strDrop s c 1 n
  | some rd =>
    if strSlots s c < strUsed s c rd + n then strDrop s c 0 n
    else
      let k := ((s.str c).wr + strUnpub s c) % strSlots s c
      let bs := evs.map fun e => leBytes 8 (s.tod.ns * 2 ^ 32 + e)
      let first := (bs.take (strSlots s c - k)).flatten
      let rest := (bs.drop (strSlots s c - k)).flatten
      let w1 := tenWrite s (strAgent s c) (strTen s c) (strBase s c + 128 + 8 * k) (allBytes first) false
      let w2 := tenWrite w1.1 (strAgent s c) (strTen s c) (strBase s c + 128) (allBytes rest) false
      if w1.2 || w2.2 then strDrop w2.1 c 1 n else w2.1.modStr c fun x => { x with unpub := x.unpub ++ [{ n := n, words := strWords s c }] }

/-- A STREAM_DATA breaks no rule of R277 and names a valid channel bound to its port (R308). -/
def streamFits (s : State) (p : Nat) (m : Msg) : Bool :=
  let w := mword m 0
  let n := m.payload.length
  let c := bits w 2 0
  msgFits s m 0x31 n && decide (16 ≤ n) && decide (n ≤ 4104) && n % 8 == 0 && bits w 47 10 == 0 && bits w 7 3 == 0 &&
  (s.str c).valid && strPort s c == p

/-- The flits a message takes: those its receive buffer counts for it, or those its bytes fill. -/
def msgFlits (s : State) (p v : Nat) (m : Msg) : Nat :=
  match ((s.port p).chan v).rx with
  | r :: _ => r.flits
  | [] => (msgSize m.payload.length + 231) / 232

/-- The staging of channel `c` has room for `n` flits (R309): CRES of them, or a message alone that is longer. DESIGN CHOICE:
the channel's HBM writes are accepted within the cc, and empty the staging at its end (log entry 47). -/
def stageRoom (s : State) (c n : Nat) : Bool :=
  let held := mget zeroNat s.cc.staged c
  decide (held = 0) || decide (held + n ≤ s.tfB 0x0B c 0 20 16)

/-- A message's flits enter a channel's staging. -/
def stage (s : State) (c n : Nat) : State := s.setCc { s.cc with staged := mmod zeroNat s.cc.staged c (· + n) }

/-- STREAM_DATA (R308 to R313, R400): staged, once the staging has room, and written into its channel's ring. -/
def execStreamData (p : Fin 8) (m : Msg) (s : State) : Out :=
  let w := mword m 0
  let c := bits w 2 0
  let n := msgFlits s p 3 m
  let fits := streamFits s p m
  if fits && !stageRoom s c n then .next s
  else .next (withEv s p m (!fits) fun s =>
    let s := stage s c n
    if s.halted then strDrop s c 1 1
    else if strEvent s c then eventData s c ((List.range ((m.payload.length - 8) / 4)).map (eventAt m))
    else
      let s := if bit w 8 then openFrame s c (bits w 63 48) else s
      let s := frameData s c (m.payload.drop 8)
      if bit w 9 then closeFrame s c false else s)

/-- FRAME_PUBLISH (R310, R312, R314): with every line acknowledged WR advances, the WR line of the frame's own ring is
written, FTACK gains 1. -/
def execFramePublish (c : Fin 8) (s : State) : Out :=
  let x := s.str c
  match x.unpub with
  | [] => .next s
  | u :: rest =>
    if !s.live || !noAcc s (.stream c) then .next s
    else
      let wr := (x.wr + u.n) % 2 ^ 32
      let s := s.setStr c { x with wr := wr, unpub := rest, written := sat32 (x.written + 1) }
      let o := strView s c u.words
      let w := tenWrite s (strAgent o c) (strTen o c) (strBase o c)
        (allBytes (leBytes 4 wr ++ leBytes 4 x.dropFull ++ List.replicate 56 0)) false
      let s := w.1
      .next (if bit (o.tf 0x0B c 0) 15 && !w.2 then
          tackUpdate s (80 + 2 * strPort o c + 1) (o.tfB 0x0B c 0 9 0) false 1 else s)

end Sys2Proof.Machine
end

