-- ==== Sys2Proof/Machine/Twin.lean ====
section
/-! DEFINITION. Twin pairing (chapter 15): journal records received, the commit exchange, TSTATE and TDOWN, the apply of
committed records, the seeding walk, ADOPT, and what a boundary does to the pair. -/

namespace Sys2Proof.Machine

/-! ### Twin messages -/

/-- A twin message of channel `v` that has reached the pair: malformed (R277, R318), or its effect. -/
def twinMsg (s : State) (m : Msg) (bad : Bool) (k : State → State) : State :=
  if bad || m.src != peerNode s 8 || m.fault != 0 then malformed s 8 else k s

/-- What a twin message of channel `v` meets first: its turn and TP's state (R264, R286, R296). -/
def withTwin (s : State) (v : Nat) (m : Msg) (bad : Bool) (k : State → State) : State :=
  withRx s 8 v m (fun s => malformed s 8) (fun s => twinMsg s m bad k)
    (fun s => if v = 0 then twinMsg s m bad k else s)

/-- The same for messages that ask for work: they are passed over while work is halted (R400, R413; log entry 53). -/
def withTwinWork (s : State) (v : Nat) (m : Msg) (bad : Bool) (k : State → State) : State :=
  withTwin s v m bad fun s => if s.halted then s else k s

/-- TDOWN is put before everything else on MG (R330). -/
def sendTdown (s : State) (cause : Nat) : State :=
  let x := s.port 8
  if x.state = .up ∨ x.state = .fenced then
    let m : Msg := { type := 0x44, dst := peerNode s 8, src := nodeOf s, len := 8, payload := leBytes 8 cause }
    let c := x.chan 0
    let keep := if c.txOff = 0 then 0 else 1
    s.setPort 8 (x.setChan 0 { c with tx := c.tx.take keep ++ [{ bytes := msgBytes m }] ++ c.tx.drop keep })
  else s

/-! ### Journal records received -/

/-- A JRNL payload as a record (Tables 15.8, 15.9). -/
def jrecOf (m : Msg) : JRec :=
  let w := mword m 0
  { seed := bits w 63 62 == 1, auth := bit w 61, tenant := bits w 60 56, epoch := bits w 39 0, addr := mword m 1
    poison := mword m 2, jcount := mword m 3
    lines := (List.range (bits w 55 51 + 1)).map fun i => (m.payload.drop (32 + 64 * i)).take 64 }

/-- A JRNL breaks no rule of R277 and R320. -/
def jrnlFits (s : State) (m : Msg) : Bool :=
  let r := jrecOf m
  let w := mword m 0
  msgFits s m 0x40 (jrecLen r) && bits w 63 62 ≤ 1 && bits w 50 40 == 0 && bits r.addr 63 40 == 0 && r.addr % 64 == 0 &&
  decide (r.poison < 2 ^ 32) && (r.auth || r.jcount == 0) && m.tenant == r.tenant && m.txn == 0 &&
  (!r.auth || leNat ((m.payload.drop (jrecLen r - 4)).take 4) == 0)

/-- The TAG of a record holds under a session (R325). -/
def jrnlTagAt (s : State) (m : Msg) (r : JRec) (sess : Nat) : Bool :=
  (m.payload.drop (jrecLen r - 16)).take 12 ==
    gmac96 (keyNat (s.key (s.tfB 1 r.tenant 0 23 16))) (sess * 2 ^ 64 + r.jcount) (m.payload.take (jrecLen r - 16))

/-- The first of the sessions from `n` on under which a check passes. -/
def sessFrom (ok : Nat → Bool) : Nat → Nat → Option Nat
  | 0, _ => none
  | k + 1, n => if ok n then some n else sessFrom ok k (n + 1)

/-- The session a record passes its checks under (R325): at JCOUNT 0 any above the key entry's own; later the one in use,
with JCOUNT in sequence. -/
def rxSession (s : State) (m : Msg) (r : JRec) : Option Nat :=
  let held := (s.key (s.tfB 1 r.tenant 0 23 16)).session
  let cur := mget zeroNat s.twn.rxSess r.tenant
  if r.jcount = 0 then sessFrom (jrnlTagAt s m r) (2 ^ 32 - 1 - held) (held + 1)
  else if r.jcount = mget zeroNat s.twn.rxCnt r.tenant ∧ jrnlTagAt s m r cur = true then some cur else none

/-- A record's TAG, session and JCOUNT are good (R325, R326). -/
def jrnlTagOk (s : State) (m : Msg) (r : JRec) : Bool := !r.auth || (journalAuth s r.tenant && (rxSession s m r).isSome)

/-- Every line of a record lies in a window of its tenant. -/
def jrnlMapped (s : State) (r : JRec) : Bool :=
  (List.range r.lines.length).all fun i => (findWin s r.tenant (r.addr + 64 * i) 64).isSome

/-- The session and the count a good TAG leaves behind (R325). -/
def rxAccept (s : State) (m : Msg) (r : JRec) : State :=
  match r.auth, rxSession s m r with
  | true, some n =>
    let s := if r.jcount = 0 then s.modKey (s.tfB 1 r.tenant 0 23 16) fun e => { e with session := n } else s
    { s with twn := { s.twn with rxSess := mset zeroNat s.twn.rxSess r.tenant n, rxCnt := mset zeroNat s.twn.rxCnt r.tenant (r.jcount + 1) } }
  | _, _ => s

/-- A record is bad (R326). -/
def jrnlBad (s : State) (m : Msg) (r : JRec) : Bool := !isReplica s r.tenant || !jrnlMapped s r || !jrnlTagOk s m r

/-- The bytes the RX ring holds. -/
def rxUsed (s : State) : Nat := (((s.twn.rx ++ s.twn.apply).filter fun r => !r.commit).map jrecLen).sum

/-- A received record enters the RX ring behind the others, and its bytes the ring's HBM; or it finds no room (R326). -/
def rxAppend (s : State) (m : Msg) (r : JRec) : State :=
  if rxUsed s + jrecLen r ≤ ringBytes s 0x0424 then
    let s := ringPut s 0x0424 s.twn.rxWr (m.payload.take (jrecLen r))
    { s with twn := { s.twn with rx := s.twn.rx ++ [r], rxWr := s.twn.rxWr + jrecLen r } }
  else { s with twn := { s.twn with overflow := true } }

/-- JRNL (R326): into the RX ring, bad ones too; a bad one is counted and is written to no window. -/
def execJrnl (m : Msg) (s : State) : Out :=
  .next (withTwinWork s 2 m (!jrnlFits s m || m.status != 0) fun s =>
    let r := jrecOf m
    let bad := jrnlBad s m r
    let s := { s with twn := { s.twn with gotRecs := s.twn.gotRecs + 1, bad := s.twn.bad || bad } }
    if bad then rxAppend (s.bump 0x0444 1) m { r with bad := true } else rxAppend (rxAccept s m r) m r)

/-! ### Commit -/

/-- Epochs whose records have all been applied end: TWN_REPLICA_EPOCH, and IN with SEEDED (R328). -/
def applyEnds : Nat → State → State
  | 0, s => s
  | n + 1, s =>
    match s.twn.apply with
    | r :: rest =>
      if r.commit then
        applyEnds n { s with twn := { s.twn with apply := rest, replicaEp := r.epoch
                                                 inDir := if r.seeded && s.twn.inDir == 1 && !s.twn.stale then 2 else s.twn.inDir } }
      else s
    | [] => s

/-- A COMMIT breaks no rule of R277 and R320. -/
def commitFits (s : State) (m : Msg) : Bool :=
  msgFits s m 0x41 16 && bits (mword m 0) 63 40 == 0 && bits (mword m 1) 31 2 == 0 && m.tenant == 0

/-- CSTATUS: the lowest failure that applies (Table 15.10). -/
def commitStatus (s : State) (m : Msg) : Nat :=
  if bits (mword m 1) 63 32 ≠ s.twn.gotRecs then 1
  else if s.twn.overflow then 2
  else if bit (mword m 1) 0 then 3
  else if s.twn.bad then 4
  else 0

/-- COMMIT (R293, R327 to R329): answered; OK commits the epoch's records, anything else discards them. -/
def execCommit (m : Msg) (s : State) : Out :=
  if !egressRoom s 8 1 0 && linkState (s.port 8).state then .next s
  else .next (withTwinWork s 2 m (!commitFits s m || m.status != 0) fun s =>
    let c := commitStatus s m
    let e := bits (mword m 0) 39 0
    let mark : JRec := { commit := true, epoch := e, seeded := bit (mword m 1) 1 }
    let s := answer (egressTake s 8 1 0) 8 m 0x42 0x00 0 (leBytes 8 (c * 2 ^ 56 + e))
    let t : TwnSt := { s.twn with rx := [], gotRecs := 0, overflow := false, bad := false }
    if c = 0 then applyEnds 64 { s with twn := { t with apply := t.apply ++ s.twn.rx ++ [mark] } }
    else { s with twn := { t with stale := true, staleIn := e } })

/-- COMMIT's response header is released (R292, R320). -/
def commitFree (s : State) : State := s.modPort 8 fun x => { x with rsvHeads := x.rsvHeads - 1 }

/-- The commit on its way ends without an OK: reseeding is due at a later boundary (R329, R331). -/
def commitFailed (s : State) : State :=
  commitFree { s with epc := { s.epc with unacked := true }
                      twn := { s.twn with commitAt := none, outDir := if s.twn.outDir = 0 then 0 else 3
                                          staleOut := s.epc.count } }

/-- The cc of TWN_COMMIT_TO. -/
def commitToCc (s : State) : Nat := s.usCc (atLeast1 (s.regB 0x0428 23 0))

/-- COMMIT has been unanswered for TWN_COMMIT_TO (R321, R390). -/
def commitLate (s : State) : Bool := s.twn.commitAt.any fun c => decide (c + commitToCc s ≤ s.now)

/-- COMMIT_TIMEOUT (R321, R331). -/
def execCommitTimeout (s : State) : Out := if s.linkOn && commitLate s then .next (pairTo s 3) else .next s

/-- COMMIT_ACK (R279, R327 to R329): in the cc of the timeout the timeout holds. -/
def execCommitAck (m : Msg) (s : State) : Out :=
  if s.linkOn && commitLate s then .next (takeRx (pairTo s 3) 8 1 m)
  else .next (withTwinWork s 1 m (m.type != 0x42) fun s =>
    match s.twn.commitAt with
    | none => s
    | some _ =>
      if m.txn ≠ s.twn.commitTxn then s
      else if !msgFits s m 0x42 8 || bits (mword m 0) 55 40 != 0 || bits (mword m 0) 39 0 != s.twn.commitEp ||
          decide (4 < bits (mword m 0) 63 56) then malformed (commitFailed s) 8
      else if m.status ≠ 0 ∨ bits (mword m 0) 63 56 ≠ 0 then commitFailed s
      else
        commitFree { s with twn := { s.twn with commitAt := none, acked := s.twn.commitEp
                                                outDir := if s.twn.commitSeed && s.twn.outDir == 1 then 2 else s.twn.outDir } })

/-- The commit record is formed, and COMMIT enters the TX ring when OUT is SEEDING or CURRENT (R30, R35, R327). -/
def formCommit (s : State) : State :=
  let s := { s with epc := { s.epc with formed := true, unacked := false } }
  if journals s then
    let txn := (s.port 8).nextTxn
    let r : JRec := { commit := true, epoch := s.epc.count, jcount := txn, records := s.twn.sentRecs
                      seeded := s.twn.seedEnded, lost := s.twn.lost }
    let s := txAppend s r
    { s with twn := { s.twn with commitAt := some s.now, commitTxn := txn, commitEp := s.epc.count
                                 commitSeed := s.twn.seedEnded, sentRecs := 0, lost := false, seedEnded := false } }.modPort 8
      fun x => { x with nextTxn := (txn + 1) % 2 ^ 16 }
  else s

/-! ### TSTATE and TDOWN -/

/-- A TSTATE payload read (Table 15.11). -/
def tstateOf (m : Msg) : TState :=
  let w := mword m 0
  { side := bits w 63 63, pstate := bits w 62 60, mode := bits w 59 58, active := bits w 57 57, epoch := bits w 39 0
    run := bits (mword m 1) 63 32 }

/-- TSTATE (R329, R333): it replaces the one held and is judged. One of a later epoch than the failed COMMIT's tells that
the sender has reached its next boundary: IN returns to SEEDING. -/
def execTstate (m : Msg) (s : State) : Out :=
  let bad := !msgFits s m 0x43 16 || bits (mword m 0) 56 40 != 0 || bits (mword m 1) 31 0 != 0 || m.tenant != 0 || m.txn != 0
  .next (withTwin s 2 m (bad || m.status != 0) fun s =>
    let back := s.twn.stale && s.twn.pstate == 2 && (tstateOf m).epoch != s.twn.staleIn
    pairJudge { s with twn := { s.twn with gotTs := some (tstateOf m), stale := s.twn.stale && !back
                                           inDir := if back then 1 else s.twn.inDir } })

/-- TDOWN (R320, R321): PAIRED and ISOLATED go to PEER_FAILED; in the cc in which TP itself left UP too (ch. 15). -/
def execTdown (m : Msg) (s : State) : Out :=
  let bad := !msgFits s m 0x44 8 || (mword m 0 != 1 && mword m 0 != 2) || m.status != 0
  let fails (s : State) : State := if s.twn.pstate = 2 ∨ s.twn.pstate = 3 then pairTo s 4 else s
  if s.linkOn && s.cc.tpLeft && !linkState (s.port 8).state then
    .next (if bad || m.src != peerNode s 8 || m.fault != 0 then s else fails s)
  else .next (withTwin s 0 m bad fails)

/-! ### Apply, seeding, ADOPT -/

/-- A record written into its tenant's replica windows, each line through the window it now lies in (R328). -/
def applyRec (s : State) (r : JRec) : State :=
  r.lines.zipIdx.foldl (fun s x =>
    let a := r.addr + 64 * x.2
    match findWin s r.tenant a 64 with
    | none => s
    | some w => writeLine s twinAgent (paOf s r.tenant w a / 64) (allBytes x.1) (bit r.poison x.2)) s

/-- REPLICA_APPLY (R328, R331): the oldest committed record is applied. -/
def execReplicaApply (s : State) : Out :=
  if !s.live then .next s
  else match s.twn.apply with
    | [] => .next s
    | r :: rest => .next (applyEnds 64 (applyRec { s with twn := { s.twn with apply := rest } } r))

/-- Window entry `e` is walked: on, protected, of a tenant in the run set (R334). -/
def seedEntry (s : State) (e : Nat) : Bool := s.tenRun (e / 4) && s.winOn (e / 4) (e % 4) && winProt s (e / 4) (e % 4)

/-- The lines of window entry `e`. -/
def winLines (s : State) (e : Nat) : Nat := s.winN (e / 4) (e % 4) / 64

/-- TWN_SEED_LEFT: the lines the walk has left (R334). -/
def seedLeft (s : State) : Nat :=
  if s.twn.seedDone then 0
  else sat32 ((((List.range 128).filter fun e => decide (s.twn.seedWin ≤ e) && seedEntry s e).map (winLines s)).sum - s.twn.seedLine)

/-- SEED_WALK (R334): the next run of up to 32 lines is read and formed into a SEED record. DEDUCED: seeds yield TP by
forming none while a WRITE record or COMMIT waits in the TX ring, which keeps its order (log entry 94). -/
def execSeedWalk (s : State) : Out :=
  if !s.live || s.twn.pstate != 2 || s.twn.outDir != 1 || s.twn.seedDone || s.twn.tx.any (fun r => !r.seed) then .next s
  else match (List.range 128).find? fun e => decide (s.twn.seedWin ≤ e) && seedEntry s e with
    | none => .next { s with twn := { s.twn with seedDone := true, seedEnded := true } }
    | some e =>
      let l := if e = s.twn.seedWin then s.twn.seedLine else 0
      let n := min 32 (winLines s e - l)
      let pa := s.winP (e / 4) (e % 4) / 64 + l
      let s := (List.range n).foldl (fun s i => (readLine s twinAgent (pa + i)).2.2) s
      let s := jrnlLines s (hbmRank twinAgent) (e / 4) (s.winT (e / 4) (e % 4) + 64 * l) pa ((List.range n).map fun i => pa + i) true
      let fin := decide (winLines s e ≤ l + n)
      let nextE := if fin then e + 1 else e
      let more := (List.range 128).any fun e => decide (nextE ≤ e) && seedEntry s e
      .next { s with twn := { s.twn with seedWin := nextE, seedLine := if fin then 0 else l + n, seedDone := !more
                                         seedEnded := s.twn.seedEnded || !more } }

/-- TWN_CMD_ADOPT (R337): held in ISOLATED and PEER_FAILED. -/
def execTwnCmdAdopt (s : State) : Out :=
  if s.mspOn && (s.twn.pstate == 3 || s.twn.pstate == 4) then .next { s with twn := { s.twn with adopt := true } } else .next s

/-! ### The pair at a boundary -/

/-- TWN_STATUS.APPLY_BUSY (R328). -/
def applyBusy (s : State) : Bool := !s.twn.apply.isEmpty

/-- The valid tenants, as a set. -/
def validSet (s : State) : Nat := ((List.range 32).map fun t => if s.tenOk t then 2 ^ t else 0).sum

/-- The computed run set of Table 15.2 among the valid tenants. -/
def runSet (s : State) (mode active home : Nat) : Nat :=
  let side := twinSide s
  match mode with
  | 1 => validSet s &&& (if side = 1 then home else 0xFFFFFFFF ^^^ home)
  | 2 => if side = active then validSet s else 0
  | _ => validSet s

/-- Two ranges of physical addresses meet. -/
def meets (a n b m : Nat) : Bool := decide (a < b + m) && decide (b < a + n)

/-- A twin ring in force is valid (R322). -/
def ringOk (s : State) (me other : Nat) : Bool :=
  let b := bits (s.regF' me) 15 0 * 2 ^ 21
  let n := ringBytes s me
  decide (0 < n) && decide (b + n ≤ 0x1800000000) &&
  !meets b n (bits (s.regF' other) 15 0 * 2 ^ 21) (ringBytes s other) &&
  (List.range 128).all fun e => !(s.winOn (e / 4) (e % 4)) || !meets b n (s.winP (e / 4) (e % 4)) (s.winN (e / 4) (e % 4))

/-- The pair in the CLEAR apply stage (R316, R317, R321, R322, R329, R332, R335 to R337); `old` is the run set of the
epoch that ends. The tenants and windows have been validated and the staged rings are in force. -/
def twinApply (s : State) (old : Nat) : State :=
  let apart := s.twn.pstate == 3 || s.twn.pstate == 4
  let adopts := apart && s.twn.adopt && !applyBusy s
  let t := s.twn
  let fresh := !apart || adopts
  let m := s.regB 0x0400 17 16
  let mode := if fresh then (if m = 3 then 0 else m) else t.mode
  let active := if fresh then s.regB 0x0400 8 8 else t.active
  let home := if fresh then s.reg 0x0410 else t.home
  let want := runSet s mode active home
  let entering := want &&& (0xFFFFFFFF ^^^ old)
  let stays := want &&& old
  let run :=
    if mode = 0 then want
    else if t.pstate = 2 then
      (if applyBusy s then stays else stays ||| (entering &&& (0xFFFFFFFF ^^^ (t.gotTs.elim 0 (·.run)))))
    else if apart && !adopts then stays
    else want
  let rings := ringOk s 0x0420 0x0424 && ringOk s 0x0424 0x0420
  let s := { s with twn := { t with mode := mode, active := active, home := home, run := run
                                    replica := if mode = 0 then 0 else validSet s &&& (0xFFFFFFFF ^^^ run)
                                    pending := want &&& (0xFFFFFFFF ^^^ run)
                                    adopt := t.adopt && !adopts, ringsOk := rings, cfgErr := !rings } }
  if mode = 0 then pairTo s 0
  else
    let s := if s.twn.pstate = 0 then pairTo s 1 else s
    if s.twn.pstate = 2 then
      (if !rings then pairTo s 5
       else if s.twn.outDir = 3 ∧ s.twn.staleOut ≠ s.epc.count then startSeeding s else s)
    else if !rings && s.twn.pstate == 1 then pairTo s 5
    else if t.pstate ≠ 0 ∧ (s.port 8).state = .up ∧ pairAgrees s = true ∧ s.twn.needDown = false then pairTo s 2
    else s

end Sys2Proof.Machine
end

