-- ==== Sys2Proof/Machine/Epoch.lean ====
section
/-! DEFINITION. The epoch state machine (chapter 02): triggers, the close sequence, what a boundary clears (Table 02.6),
applies and validates (Table 02.7), and the opening, with the TOD schedule (R37, R38, R383). -/

namespace Sys2Proof.Machine

/-! ### TOD as a number -/

/-- A time as nanoseconds. -/
def nsOf (sec ns : Nat) : Nat := sec * 10 ^ 9 + ns

/-- TOD in units of 2^-48 ns. -/
def todTotal (s : State) : Nat := nsOf s.tod.sec s.tod.ns * 2 ^ 48 + s.tod.frac

/-- TOD has reached a time given in ns. -/
def todReached (s : State) (t : Nat) : Bool := decide (t * 2 ^ 48 ≤ todTotal s)

/-- The schedule instant in ns. -/
def instant (s : State) : Nat := nsOf s.epc.instSec s.epc.instNs

/-! ### Triggers -/

/-- EPC_CTRL_BOUNDARY (R20, R23, R25): RUN is written and the MSP trigger occurs. -/
def execEpcCtrlBoundary (run : Bool) (s : State) : Out :=
  if !s.mspOn then .next s
  else
    let s := s.setReg 0x0200 (if run then 1 else 0)
    .next (if s.live then (trigger s 0).1 else s)

/-- PERIOD_EXPIRY (R23, R25, R26): once for each open, in whatever state the cc finds. DESIGN CHOICE: a period that
elapses while EPC_TRIG_EN.PERIOD is 0 has passed, and a later write of PERIOD does not bring its trigger back (log entry 96). -/
def execPeriodExpiry (s : State) : Out :=
  if !s.live || s.epc.periodHit || decide (s.epc.count = 0) || decide (s.now < s.epc.openAt + s.epc.period) then .next s
  else
    let s := { s with epc := { s.epc with periodHit := true } }
    .next (if bit (s.reg 0x0218) 1 then (trigger s 2).1 else s)

/-- Drain is complete (R29). -/
def drained (s : State) : Bool :=
  s.queues.all (fun e => e.2.flight.isEmpty && !qPending e.2) && s.vcs.all (fun e => e.2.tiles.isEmpty) &&
  s.awls.all (fun e => e.2.suspended.isEmpty && e.2.jobs.isEmpty) && s.cbls.all (fun e => !e.2.running) &&
  (List.range 8).all (fun p => (s.port p).reqs.isEmpty) && evDrained s

/-- The deadline abandons work; EPC_STATUS.EVENT sets when a tenant was abandoned (R31 to R33). -/
def deadlinePasses (s : State) (level : Nat) : State :=
  let old := s.epc.abandoned
  let s := deadlineAbandon s level
  if s.epc.abandoned = old then s else s.setBit 0x0204 11

/-- DEADLINE_EXPIRY (R23, R26, R31 to R33): in OPEN it starts the close; in DRAIN it abandons unless drain is complete in
this cc. A close started in this same cc is the OPEN case. -/
def execDeadlineExpiry (s : State) : Out :=
  if !s.live || s.epc.deadlineHit || decide (s.now < s.epc.openAt + s.epc.deadline) then .next s
  else
    let s := { s with epc := { s.epc with deadlineHit := true } }
    match s.epc.state with
    | .opened => .next (deadlinePasses (trigger s 5).1 4)
    | .drain =>
      if s.epc.since = s.now then .next (deadlinePasses (trigger s 5).1 4)
      else if drained s then .next s
      else .next (deadlinePasses { s with epc := { s.epc with cause := s.epc.cause ||| 32 } } 3)
    | _ => .next s

/-- SCHEDULE_TRIGGER (R37): once per armed instant; the boundary it starts, or the one in progress, is held. -/
def execScheduleTrigger (s : State) : Out :=
  if !s.live || !bit (s.reg 0x0218) 2 || !s.epc.armed || s.epc.schedHit || !todReached s (instant s - s.reg 0x0234) then .next s
  else
    let s := (trigger { s with epc := { s.epc with schedHit := true } } 3).1
    .next (if s.epc.state = .idle then s else { s with epc := { s.epc with held := true } })

/-- EPC_SCHED_SEC_WRITE (R383): held for the next write of EPC_SCHED_NS. -/
def execEpcSchedSecWrite (hi : Bool) (w : Word) (s : State) : Out :=
  if !s.mspOn then .next s
  else .next (if hi then s.setReg 0x0238 (w.toNat % 2 ^ 16) else s.setReg 0x023C w.toNat)

/-- EPC_SCHED_NS_WRITE (R383, R387): the instant takes force in the next cc. -/
def execEpcSchedNsWrite (w : Word) (s : State) : Out :=
  if !s.mspOn then .next s
  else
    let ns := w.toNat % 2 ^ 30
    let s := s.setReg 0x0240 ns
    .next { s with nextFx := s.nextFx ++ [.sched (s.reg 0x0238 * 2 ^ 32 + s.reg 0x023C) (min ns 999999999)] }

/-! ### The close sequence -/

/-- DRAIN_COMPLETE (R29, R34, R220): DRAIN to FLUSH; heads no queue will start are answered, EVT_STRETCH_LAST is taken. -/
def execDrainComplete (s : State) : Out :=
  if !s.live || decide (s.epc.state ≠ .drain) || !drained s then .next s
  else
    let s := (List.range 64).foldl answerFifo s
    let s := s.setReg 0x0788 (min (2 ^ 32 - 1) ((s.vcs.map fun e => e.2.stretch).foldl max 0))
    .next (epcTo { s with epc := { s.epc with drainAt := s.now } } .flush)

/-- An access FLUSH waits for: a write of the epoch's work or of a writer (R34). -/
def flushes (x : Acc) : Bool :=
  x.write && match x.who with
    | .flight _ _ => true
    | .cobbler _ _ => true
    | .queue _ => true
    | .status => true
    | _ => false

/-- FLUSH_COMPLETE (R34, Table 02.4): after quiesce, every write acknowledged and every record flushed. -/
def execFlushComplete (s : State) : Out :=
  if !s.live || decide (s.epc.state ≠ .flush) || decide (s.now < s.epc.since + 16) || s.mem.acc.any flushes ||
      !s.flt.ring.isEmpty || !s.trc.held.isEmpty then .next s
  else .next (epcTo { s with epc := { s.epc with formed := false, unacked := false } } .commit)

/-- COMMIT_END (R34, R35, R327): the record is formed and no acknowledgement is awaited. -/
def execCommitEnd (s : State) : Out :=
  if !s.live || decide (s.epc.state ≠ .commit) || !s.epc.formed || s.twn.commitAt.isSome then .next s
  else .next (epcTo { s with epc := { s.epc with waitCc := s.now - (s.epc.since + 48) } } .clear)

/-- A queue after CLEAR: its configuration and what its table words report stay (Table 02.6). -/
def clearQueue (x : QueueSt) : QueueSt :=
  { valid := x.valid, cfgErr := x.cfgErr, retired := x.retired, cringWr := x.cringWr, lastTag := x.lastTag
    refused := x.refused, credit := x.credit, nextSeq := x.nextSeq, nextChain := x.nextChain }

/-- CLEAR (R20, R36, R85, R203, Table 02.6): the first cc of CLEAR reads RUN and clears the transit state. -/
def execClear (s : State) : Out :=
  if !s.live || decide (s.epc.state ≠ .clear) || s.epc.cleared then .next s
  else .next
    { s with
      epc := { s.epc with cleared := true, runRead := s.epc.fromIdle || bit (s.reg 0x0200) 0 }
      queues := s.queues.map fun e => (e.1, clearQueue e.2)
      tacks := s.tacks.map fun e => (e.1, { e.2 with value := 0 })
      cbls := s.cbls.map fun e => (e.1, { holder := e.2.holder, nextOp := e.2.nextOp, regs := List.replicate 16 0 })
      srPend := [] }

/-! ### The apply stage -/

/-- Windows validated in ascending entry order (R228, R229); `old` is the state whose entries end. -/
def validateWindows (s old : State) : State :=
  (List.range 128).foldl (fun s e =>
    let t := e / 4
    let w := e % 4
    let n := s.tfB 3 e 3 15 0
    let changed := (List.range 3).any fun i => s.tf 3 e (i + 1) != old.tf 3 e (i + 1)
    let x := s.win e
    let x := if changed then { x with gen := (x.gen + 1) % 2 ^ 16 } else x
    let on := bit (s.tf 3 e 0) 31
    let ok := decide (1 ≤ n) && decide (n ≤ 49152) && decide (s.tfB 3 e 2 15 0 + n ≤ 49152) &&
      decide (s.tfB 3 e 1 18 0 + n ≤ 524288) &&
      (List.range e).all fun f =>
        !(s.winOn (f / 4) (f % 4)) ||
        (!(f / 4 == t && meets (s.winT t w) (s.winN t w) (s.winT t (f % 4)) (s.winN t (f % 4))) &&
          !meets (s.winP t w) (s.winN t w) (s.winP (f / 4) (f % 4)) (s.winN (f / 4) (f % 4)))
    s.setWin e { x with valid := on && ok, cfgErr := on && !ok }) s

/-- [a, a + n) lies in one valid window of tenant `t`, running or not. -/
def inWindow (s : State) (t a n : Nat) : Bool := (findWin s t a n).isSome

/-- Base of the fault ring of tenant `t`. -/
def fringBase (s : State) (t : Nat) : Nat := s.tf 1 t 7 + s.tfB 1 t 6 31 24 * 2 ^ 32

/-- Tenants validated in ascending number (R300, R303). -/
def validateTenants (s old : State) : State :=
  (List.range 32).foldl (fun s t =>
    let b := s.tfB 1 t 3 9 0
    let n := s.tfB 1 t 3 26 16
    let lg := s.tfB 1 t 3 31 27
    let on := bit (s.tf 1 t 0) 31
    let ok := decide (b + n ≤ 1024) &&
      ((List.range t).all fun u => !(s.tenOk u) || decide (n = 0) || decide (s.tfB 1 u 3 26 16 = 0) ||
        !meets b n (s.tfB 1 u 3 9 0) (s.tfB 1 u 3 26 16)) &&
      (s.lastSize t == 0 || (decide (s.lastSize t ≤ 1048576) && inWindow s t (s.lastBase t) (64 * s.lastSize t))) &&
      (lg == 0 || (decide (4 ≤ lg) && decide (lg ≤ 16) && inWindow s t (fringBase s t) (2 ^ lg * 32)))
    let moved := decide (fringBase s t ≠ fringBase old t) || decide (lg ≠ old.tfB 1 t 3 31 27)
    s.modTen t fun x => { x with valid := on && ok, cfgErr := on && !ok, fringWr := if moved then 0 else x.fringWr }) s

/-- Base of a completion ring. -/
def cringBase (s : State) (q : Nat) : Nat := s.tf 5 q 1 + s.tfB 5 q 0 31 24 * 2 ^ 32

/-- Queue entries validated (R60). -/
def validateQueues (s old : State) : State :=
  (List.range 64).foldl (fun s q =>
    let lg := s.tfB 5 q 0 23 16
    let on := bit (s.tf 5 q 0) 5
    let ok := s.tenOk (s.qTen q) &&
      (lg == 0 || (decide (4 ≤ lg) && decide (lg ≤ 16) && cringBase s q % 64 == 0 &&
        inWindow s (s.qTen q) (cringBase s q) (2 ^ lg * 16)))
    let moved := decide (cringBase s q ≠ cringBase old q) || decide (lg ≠ old.tfB 5 q 0 23 16)
    s.modQ q fun x => { x with valid := on && ok, cfgErr := on && !ok, cringWr := if moved then 0 else x.cringWr }) s

/-- Bytes of a stream ring (R307). -/
def strBytes (s : State) (c : Nat) : Nat :=
  128 + if strEvent s c then 8 * strSlots s c else strSlots s c * strSlot s c

/-- Stream channels validated in ascending number (R307, R317). -/
def validateStreams (s : State) : State :=
  (List.range 8).foldl (fun s c =>
    let t := strTen s c
    let r := s.tfB 0x0B c 2 23 19
    let l := s.tfB 0x0B c 2 18 14
    let k := s.tfB 0x0B c 0 9 0
    let used := ((List.range c).map fun d =>
      if (s.str d).valid && strPort s d == strPort s c then s.tfB 0x0B d 0 20 16 else 0).sum
    let on := bit (s.tf 0x0B c 0) 31
    let ok := s.tenRun t &&
      (if strEvent s c then decide (6 ≤ r) && decide (r ≤ 24) && l == 0
       else decide (1 ≤ r) && decide (r ≤ 16) && decide (7 ≤ l) && decide (l ≤ 26)) &&
      inWindow s t (strBase s c) (strBytes s c) &&
      (!bit (s.tf 0x0B c 0) 15 || (s.ownsTack t k && bit (s.tf 6 k 0) 31)) &&
      decide (used + s.tfB 0x0B c 0 20 16 ≤ 48)
    s.modStr c fun x => { x with valid := on && ok, cfgErr := on && !ok }) s

/-- The regions of Table 10.3 of VC `v`: first CBUF byte and length. -/
def evRegions (s : State) (v : Nat) : List (Nat × Nat) :=
  let rows := evNaxon s v
  let reg (w hi lo n : Nat) : Nat × Nat := (512 * evCfg s v w hi lo, n)
  let l := [reg 1 11 0 (nneur s v * 16), reg 1 23 12 512, reg 2 23 12 32768, reg 2 11 0 (rows * (if evType s v = 9 then 512 else 1024))]
  if isMX (evType s v) then l ++ [reg 3 11 0 (rows * 32)] else l

/-- Region `r` of VC `v` is resident. -/
def resident (s : State) (v r : Nat) : Bool := bit (s.tf 4 v (r / 32)) (r % 32)

/-- A byte range of VC `v`'s CBUF lies in resident regions. -/
def inResident (s : State) (v a n : Nat) : Bool :=
  n == 0 || (decide (a + n ≤ 2 ^ 21) && (List.range 64).all fun r => !meets a n (r * 32768) 32768 || resident s v r)

/-- No two regions of a list overlap. -/
def noOverlap : List (Nat × Nat) → Bool
  | [] => true
  | x :: xs => xs.all (fun y => decide (x.2 = 0) || decide (y.2 = 0) || !meets x.1 x.2 y.1 y.2) && noOverlap xs

/-- Event-plane configurations validated (R205). -/
def validateLace (s : State) : State :=
  (List.range 64).foldl (fun s v =>
    let on := bit (s.tf 8 (64 * v + 63) 0) 31
    let ty := evType s v
    let rs := evRegions s v
    let ok := [0x03, 0x04, 0x09, 0x0A, 0x0B].contains ty && decide (1 ≤ nneur s v) && decide (nneur s v ≤ 1024) &&
      decide (evNaxon s v ≤ 1024) && bit (s.cmask (evTen s v)) v && rs.all (fun r => inResident s v r.1 r.2) && noOverlap rs
    s.modVc v fun x => { x with evValid := on && ok, evCfgErr := on && !ok }) s

/-- The trace ring's tenant, base and records. -/
def traceTenant (s : State) : Nat := bits (s.regF' 0x0580) 20 16
def traceBase (s : State) : Nat := s.regF' 0x0588 + bits (s.regF' 0x0584) 7 0 * 2 ^ 32
def traceSlots (s : State) : Nat := 2 ^ bits (s.regF' 0x0580) 4 0

/-- The trace ring validated (R406). -/
def validateTrace (s : State) : State :=
  let lg := bits (s.regF' 0x0580) 4 0
  let on := bit (s.regF' 0x0580) 31
  let ok := decide (8 ≤ lg) && decide (lg ≤ 24) && s.tenRun (traceTenant s) && inWindow s (traceTenant s) (traceBase s) (traceSlots s * 16)
  { s with trc := { s.trc with valid := on && ok, cfgErr := on && !ok } }

/-- Commanded unit states take force, and the ports follow (R253, R256, R297, R401, Table 12.6): a FENCED port that may
work again retrains from DOWN at once. -/
def applyUnits (s : State) : State :=
  let s := (List.range 105).foldl (fun s u => s.modUnit u fun x => { x with force := s.twB 0x0C u 0 1 0 }) s
  (List.range 9).foldl (fun s p =>
    let f := (s.unit (portUnit p)).force
    let again := (s.port p).retrain
    let s := if again then s.modPort p fun x => { x with retrain := false } else s
    let st := (s.port p).state
    if again && (st == .up || st == .fenced) then portTo s p .down
    else if st == .fenced && decide (2 ≤ f) then (portTo s p .down).modPort p fun x => { x with limit := s.now }
    else portForce s p f) s

/-- The Cobblers' holders: the lowest-numbered running tenant whose mask names each (R184). -/
def holderOf (s : State) (k : Nat) : Option Nat := (List.range 32).find? fun t => s.tenRun t && bit (s.tf 1 t 0) k

/-- Holders take force; the local memory of a Cobbler that changes hands is cleared (R184, R185). -/
def applyHolders (s : State) : State :=
  (List.range 16).foldl (fun s k =>
    let h := holderOf s k
    if (s.cbl k).holder = h then s
    else (clearValid s (localAddr k 0) 65536).modCbl k fun x => { x with holder := h }) s

/-- Scratch regions, and the whole CBUF of a VC whose set of tenants changed, are cleared (R234). -/
def clearScratch (s old : State) : State :=
  let cm (x : State) : List Nat := (List.range 32).map x.cmask
  let a := cm old
  let b := cm s
  (List.range 64).foldl (fun s v =>
    if (a.zip b).any fun p => bit p.1 v != bit p.2 v then clearValid s (cbufAddr v 0) (2 ^ 21)
    else (List.range 64).foldl (fun s r => if resident s v r then s else clearValid s (cbufAddr v (r * 32768)) 32768) s) s

/-- The record cache drops the records a boundary may have changed (R153). -/
def dropRecords (s old : State) : State :=
  let stale (t : Nat) : Bool :=
    (List.range 8).any (fun w => s.tf 1 t w != old.tf 1 t w) || s.tenRun t != old.tenRun t ||
    (List.range 4).any (fun w => (s.win (4 * t + w)).valid != (old.win (4 * t + w)).valid ||
      (List.range 4).any fun i => s.tf 3 (4 * t + w) i != old.tf 3 (4 * t + w) i) ||
    (List.range 16).any (fun k => ((s.cbl k).holder == some t) != ((old.cbl k).holder == some t))
  { s with mem := { s.mem with rcache := s.mem.rcache.filter fun r => !stale r.tenant } }

/-- The direct registers that are staged (R5). -/
def stagedRegs : List Nat := [0x0420, 0x0424, 0x0580, 0x0584, 0x0588, 0x0780]

/-- APPLY_STAGED (R5, R39, R60, R153, R185, R205, R228, R234, R300, R307, R314, R322, R401, R406): frames of changed
channels close, then the written values take force and are validated in the spec's order. -/
def execApplyStaged (s : State) : Out :=
  if !s.live || decide (s.epc.state ≠ .clear) || !s.epc.cleared || s.epc.applied || decide (s.now < s.epc.since + 96) then .next s
  else
    let s := (List.range 8).foldl (fun s c =>
      if (List.range 3).any fun w => s.tw 0x0B c w != s.tf 0x0B c w then closeFrame s c true else s) s
    let old := s
    let s := { s with tabF := s.tab }
    let s := stagedRegs.foldl (fun s k => s.setRegF k (s.reg k)) s
    let s := validateTenants (validateWindows s old) old
    let s := twinApply s (validSet old &&& old.twn.run)
    let s := applyUnits (validateTrace (validateLace (validateStreams (validateQueues s old))))
    let s := dropRecords (clearScratch (applyHolders s) old) old
    .next { s with epc := { s.epc with applied := true } }

/-! ### Opening -/

/-- Masks granted to enabled timed queues in ascending number (R71). -/
def grantMasks (s : State) : State :=
  ((List.range 64).foldl (fun (acc : State × Nat) q =>
    let s := acc.1
    let m := s.tf 5 q 2 + s.tf 5 q 3 * 2 ^ 32
    let cm := s.cmask (s.qTen q)
    let ok := s.qOn q && s.qTimed q && (m &&& cm) == m && (m &&& acc.2) == 0 &&
      (List.range 64).all fun v => !bit m v || s.isOn v
    if s.qOn q && s.qTimed q then
      (s.modQ q fun x => { x with granted := if ok then some m else none }, if ok then acc.2 ||| m else acc.2)
    else acc) (s, 0)).1

/-- The event planes enter the next step: what is left of the last is gone, deliveries and updates are due (R206, R215). -/
def nextStep (s : State) : State :=
  (List.range 64).foldl (fun s v =>
    let t := s.epc.count
    let s := if (s.vc v).delay.isEmpty && (s.vc v).extra.isEmpty then s else clearDue s v t
    if (s.vc v).evValid then
      s.modVc v fun x => { x with delivered := 0, delivEnd := false, updated := false, acc := [], accPoison := []
                                  evtPoison := false, stretch := 0 }
    else s.modVc v fun x => { x with delivEnd := true, updated := true, stretch := 0 }) s

/-- OPENING (R19, R20, R71, R304, R333, Table 02.6): the apply stage is over; with RUN read as 1 the next epoch is
prepared, otherwise the boundary ends in IDLE. -/
def execOpening (s : State) : Out :=
  if !s.live || decide (s.epc.state ≠ .clear) || !s.epc.applied || decide (s.now < s.epc.since + 128) then .next s
  else if !s.epc.runRead then .next (epcTo { s with epc := { s.epc with held := false } } .idle)
  else
    let s := nextStep (grantMasks s)
    let s := (List.range 32).foldl (fun s t => s.modTen t fun x => { x with jused := 0, jexhausted := false }) s
    .next (epcTo (pairJudge (sendTState s)) .opening)

/-- The instant advances by the interval past TOD plus the lead, or the schedule disarms (R38). -/
def advanceSchedule (s : State) : State :=
  if !s.epc.armed then s
  else
    let iv := s.reg 0x0230
    if iv = 0 then { s with epc := { s.epc with armed := false, schedHit := false } }
    else
      let i := instant s
      let lim := todTotal s / 2 ^ 48 + s.reg 0x0234
      let k := max 1 (if lim < i then 1 else (lim - i) / iv + 1)
      let n := i + k * iv
      let s := s.bump 0x0244 (k - 1)
      { s with epc := { s.epc with instSec := n / 10 ^ 9, instNs := n % 10 ^ 9, schedHit := false } }

/-- The events of an EVENT-mode ring written before its WR are ingested for step `t`, and RD follows (R217, R218, R313). -/
def ingest (s : State) (c : Nat) : State :=
  let x := s.str c
  if !(x.valid && strEvent s c) then s
  else
    let t := strTen s c
    let s := { s with once := [] }
    let r := strRd s c
    match r.1 with
    | none => r.2
    | some rd =>
      let n := min (strSlots s c) ((x.wr + 2 ^ 32 - rd % 2 ^ 32) % 2 ^ 32)
      if n = 0 then r.2
      else
        let s := (List.range n).foldl (fun s i =>
          let k := (x.wr + 2 ^ 32 - n + i) % strSlots s c
          match tenRead s (strAgent s c) t (strBase s c + 128 + 8 * k) 8 with
          | none => strDrop s c 1 1
          | some e =>
            let s := e.2.2
            let ev := leNat (e.1.take 4)
            if e.2.1 then evDrop s 9 1
            else if ev % 64 ≠ 0 then strDrop s c 1 1
            else remoteEvent s t s.epc.count ev) r.2
        (tenWrite s (strAgent s c) t (strBase s c + 64) (allBytes (leBytes 4 x.wr)) false).1

/-- The epoch opens in this cc (R21, R26, R34, R38, R62, R218, R405). -/
def openEpoch (s : State) (late : Bool) : State :=
  let wrap := s.epc.count = 2 ^ 40 - 1
  let e := s.epc
  let cost := min 0xFFFF (s.now - e.drainAt - e.waitCc)
  let e' : Epoch :=
    { e with count := if wrap then 1 else e.count + 1, openAt := s.now, period := max 4096 (s.reg 0x0210)
             deadline := max 4096 (s.reg 0x0214), periodHit := false, deadlineHit := false, overhead := cost
             formed := false, held := false, waiting := false }
  let s := epcTo { s with epc := e' } .opened
  let s := if wrap then s.setBit 0x0204 8 else s
  let s := if late then (s.setBit 0x0204 9).setBit 0x0204 11 else s
  let s := if e.held then advanceSchedule s else s
  let s := { s with
    queues := s.queues.map fun x => (x.1, { x.2 with retired := 0, refused := 0 })
    tacks := s.tacks.map fun x => (x.1, { x.2 with updates := 0 })
    tens := s.tens.map fun x => (x.1, { x.2 with abandoned := false, knotOnce := false }) }
  let s := ((List.range 64).filter s.qOn).foldl (fun s q => s.modQ q fun x => { x with credit := queueWeight s q }) s
  let s := traceAdd s 0xFFFFFF 4 0 0 (s.epc.count % 2 ^ 25)
  (List.range 8).foldl ingest s

/-- The boundary waits for its schedule instant (R37). -/
def schedHeld (s : State) : Bool := s.epc.held && s.epc.armed

/-- EPOCH_OPEN (R21, R37, R38): OPENING is over and no schedule instant is ahead; an instant that had passed before this
cc makes the open late. -/
def execEpochOpen (s : State) : Out :=
  if !s.live || decide (s.epc.state ≠ .opening) || decide (s.now < s.epc.since + 48) ||
      (schedHeld s && !todReached s (instant s)) then .next s
  else .next (openEpoch s (schedHeld s && !s.epc.waiting && decide (instant s * 2 ^ 48 + s.tod.incr ≤ todTotal s)))

/-- SCHEDULE_HOLD_RELEASE (R37): a boundary that waits opens once TOD has reached the instant. -/
def execScheduleHoldRelease (s : State) : Out :=
  if !s.live || decide (s.epc.state ≠ .opening) || !s.epc.waiting || !todReached s (instant s) then .next s
  else .next (openEpoch s false)

end Sys2Proof.Machine
end

