-- ==== Sys2Proof/Machine/Clock.lean ====
section
/-! DEFINITION. The CLKU, TOD and PPS (chapter 16): changes of M, the references and the selection among them, how TOD
advances, is set and paced, and what PPS_IN and PPS_OUT do. -/

namespace Sys2Proof.Machine

/-! ### The references -/

/-- The references that are better than the selected one (R344). -/
def better (s : State) (r : Nat) : Bool := isCand s r && decide (refPrio s r < refPrio s s.clk.sel)

/-- A write of a CLK register that may change PRIO or EN: a qualified reference it disables is disqualified under DISABLED
(Table 18.5), and a candidate it makes better than the selected reference counts its hold-off from this cc (chapter 16,
When things meet). DESIGN CHOICE: a reference disabled so counts CLK_QUAL_TIME anew (log entry 97). -/
def clkWritten (old s : State) : State :=
  let s := (List.range 3).foldl (fun s r =>
    if refEn s r || !refEn old r || !(s.ref r).qual then s
    else s.setRef r { s.ref r with qual := false, cause := 4, okAt := s.now }) s
  clkEval ((List.range 3).foldl (fun s r =>
    if better s r && !better old r then s.setRef r { s.ref r with candAt := s.now } else s) s)

/-- The fine-frequency limit in 0.01 ppm (R342). -/
def finePpm (s : State) : Nat := 100 * min 100 (atLeast1 (s.regB 0x0120 6 0))

/-- A fine offset as its check takes it. -/
def offsetMag (o : BitVec 16) : Nat := o.toInt.natAbs

/-- CLK_REF_OFFSET saturates at ±32,767 (Table 18.5). -/
def offsetKept (o : BitVec 16) : Nat := if o.toNat = 0x8000 then 0x8001 else o.toNat

/-- The fine offset of a window that passed: the last CLK_REF_OFFSET reports (R342). -/
def noteOffset (s : State) (r : Nat) (offset : BitVec 16) : State := s.setRef r { s.ref r with offset := offsetKept offset }

/-- A window of reference `r` has an offset within FINE_PPM. -/
def windowPasses (s : State) (r : Nat) (offset : BitVec 16) : Bool :=
  s.clkOn && (r != 2 || reftActive s) && decide (offsetMag offset ≤ finePpm s)

/-- REF_CHECK_FAIL (R341 to R343, Table 16.2): causes 1 ACTIVITY, 2 COARSE, 3 FINE, 5 LANE (REFT only). A fine check fails
only beyond FINE_PPM; a window within it leaves its offset to be reported. -/
def execRefCheckFail (r : Fin 3) (cause : Nat) (offset : BitVec 16) (s : State) : Out :=
  let real := decide (cause = 1) || decide (cause = 2) || (decide (cause = 3) && decide (finePpm s < offsetMag offset)) ||
    (decide (cause = 5) && decide (r.val = 2))
  if !s.clkOn || !real then .next (if cause = 3 ∧ windowPasses s r.val offset then noteOffset s r.val offset else s)
  else
    let x := s.ref r.val
    .next (clkEval (s.setRef r.val { x with
      qual := false, cause := cause, okAt := s.now, act := decide (cause = 2) || decide (cause = 3)
      offset := if cause = 3 then offsetKept offset else x.offset }))

/-- CLK_QUAL_TIME and CLK_REV_HOLDOFF in cc. -/
def qualCc (s : State) : Nat := s.usCc (1000 * atLeast1 (s.regB 0x0124 15 0))
def holdoffCc (s : State) : Nat := s.usCc (1000 * atLeast1 (s.regB 0x0128 15 0))

/-- REF_QUALIFY (R341 to R343): `offset` is the fine offset of its last window. EN does not enter: it makes a qualified
reference a candidate. -/
def execRefQualify (r : Fin 3) (offset : BitVec 16) (s : State) : Out :=
  let x := s.ref r.val
  if !windowPasses s r.val offset then .next s
  else if x.qual || decide (s.now < x.okAt + qualCc s) then .next (noteOffset s r.val offset)
  else .next (clkEval (s.setRef r.val { x with qual := true, act := true, candAt := s.now, offset := offsetKept offset }))

/-- The reference's revertive hold-off has passed (R344, R348). -/
def holdoffOver (s : State) (r : Nat) : Bool :=
  better s r && decide (max (s.ref r).candAt s.clk.lastEnd + holdoffCc s ≤ s.now)

/-- REVERT_HOLDOFF_EXPIRY (R344). -/
def execRevertHoldoffExpiry (s : State) : Out :=
  if !s.clkOn || !bit (s.reg 0x0100) 0 || s.clk.switchEnd.isSome || s.clk.holdover then .next s
  else match bestRef s ((List.range 3).filter (holdoffOver s)) with
    | some r => .next (startSwitch s r)
    | none => .next s

/-- REF_SWITCH_END (R346 to R348). -/
def execRefSwitchEnd (s : State) : Out :=
  match s.clk.switchEnd with
  | none => .next s
  | some e =>
    if !s.clkOn || decide (s.now < e) then .next s
    else .next (clkEval { s with clk := { s.clk with switchEnd := none, lastEnd := s.now } })

/-! ### The frequency of CCLK -/

/-- The nominal INCR of a multiplier, round(2^53 / M) (R339). -/
def nominalIncr (m : Nat) : Nat := (2 ^ 54 + m) / (2 * m)

/-- CLK_CCLK_M_WRITE (R338, R386). -/
def execClkCclkMWrite (w : Word) (s : State) : Out :=
  let m := w.toNat % 64
  if !s.mspOn then .next s
  else if m < 32 ∨ 48 < m ∨ s.epc.state ≠ .idle then .next (s.setBit 0x0104 4)
  else
    let s := s.setReg 0x0108 m
    if m = s.clk.m then .next s
    else .next { s with clk := { s.clk with change := some (m, s.now + s.usCc 100) } }

/-- FREQ_CHANGE_END (R339, R340, R386). -/
def execFreqChangeEnd (s : State) : Out :=
  match s.clk.change with
  | none => .next s
  | some (m, e) =>
    if !s.clkOn || decide (s.now < e) then .next s
    else
      let held := s.clk.held
      let sched := s.clk.heldSched
      let s := { s with clk := { s.clk with m := m, change := none, held := false, heldSched := false }
                        tod := { s.tod with incr := nominalIncr m, hold := none, valid := false } }
      if held && s.live then
        let s := startOpen s
        .next { s with epc := { s.epc with held := sched } }
      else .next s

/-! ### TOD -/

/-- TOD_INCR_HI_WRITE (R353). -/
def execTodIncrHiWrite (w : Word) (s : State) : Out :=
  .next (if s.mspOn then { s with tod := { s.tod with hold := some (w.toNat % 2 ^ 20) } } else s)

/-- TOD_INCR_LO_WRITE (R353): the new INCR applies in the next cc. -/
def execTodIncrLoWrite (w : Word) (s : State) : Out :=
  if !s.mspOn then .next s
  else
    let hi := s.tod.hold.getD (s.tod.incr / 2 ^ 32)
    .next { s with tod := { s.tod with hold := none }, nextFx := s.nextFx ++ [.incr (hi * 2 ^ 32 + w.toNat)] }

/-- An apply of mode `m` becomes the pending one (R356, R357). -/
def todArm (s : State) (m : Nat) : State :=
  if s.mspOn then { s with tod := { s.tod with pend := m, nowAt := s.now + 1 } } else s

/-- TOD_APPLY_NONE (Table 16.3). -/
def execTodApplyNone (s : State) : Out := .next s
/-- TOD_APPLY_NOW (R356). -/
def execTodApplyNow (s : State) : Out := .next (todArm s 1)
/-- TOD_APPLY_AT_NEXT_SECOND (R356). -/
def execTodApplyAtNextSecond (s : State) : Out := .next (todArm s 2)
/-- TOD_APPLY_AT_NEXT_PPS (R356). -/
def execTodApplyAtNextPps (s : State) : Out := .next (todArm s 3)
/-- TOD_CANCEL (R357). -/
def execTodCancel (s : State) : Out := .next (todArm s 0)

/-- TOD takes the TOD_SET values in this cc (R356, R357). -/
def todSet (s : State) : State :=
  let sec := s.regB 0x0198 15 0 * 2 ^ 32 + s.regB 0x019C 31 0
  { s with tod := { s.tod with sec := sec, ns := min 999999999 (s.regB 0x01A0 29 0), frac := s.regB 0x01A4 15 0 * 2 ^ 32
                               pend := 0, valid := true } }

/-- The fraction and nanoseconds before the wrap of this cc's increment. -/
def todSum (s : State) : Nat := s.tod.ns * 2 ^ 48 + s.tod.frac + s.tod.incr

/-- This cc's increment passes 999,999,999 ns (R352). -/
def rollsOver (s : State) : Bool := decide (10 ^ 9 ≤ todSum s / 2 ^ 48)

/-- TOD advances by one increment (R352). -/
def todStep (s : State) : State :=
  let n := todSum s / 2 ^ 48
  let f := todSum s % 2 ^ 48
  if rollsOver s then { s with tod := { s.tod with frac := f, ns := n - 10 ^ 9, sec := (s.tod.sec + 1) % 2 ^ 48 } }
  else { s with tod := { s.tod with frac := f, ns := n } }

/-- An apply replaces this cc's increment: NOW in its cc, AT_NEXT_PPS in the event cc (Table 16.3). -/
def applyReplaces (s : State) (pps : Bool) : Bool :=
  (decide (s.tod.pend = 1) && decide (s.tod.nowAt ≤ s.now)) || (decide (s.tod.pend = 3) && pps)

/-- PPS_OUT rises in the cc after a rollover cc, and falls WIDTH × 1,024 cc later (R362). -/
def ppsRise (s : State) : State :=
  match s.tod.riseAt with
  | none => s
  | some r =>
    if s.now < r then s
    else if bit (s.reg 0x01C8) 31 then
      { s with tod := { s.tod with out := true, riseAt := none, fallAt := r + 1024 * atLeast1 (s.regB 0x01C8 7 0) } }
    else { s with tod := { s.tod with riseAt := none } }

/-- The event of a counted edge (R360). -/
def ppsEvent (s : State) : State :=
  let again := bit (s.reg 0x0184) 3
  let s := { s with tod := { s.tod with ppsDue := none, cap := s.tod.ppsCap, ppsCnt := (s.tod.ppsCnt + 1) % 2 ^ 32 } }
  s.setBit 0x0184 (if again then 4 else 3)

/-- TOD in the cc that has just begun: the increment or an apply, the event of a counted edge, PPS_OUT, and the PPS
trigger (R352, R356 to R360, R362). -/
def todAdvance (s : State) : State :=
  let pps := match s.tod.ppsDue with
    | some e => decide (e ≤ s.now)
    | none => false
  let s := ppsRise s
  let s :=
    if applyReplaces s pps then todSet s
    else if rollsOver s then
      let s := if s.tod.pend = 2 then todSet (todStep s) else todStep s
      if bit (s.reg 0x01C8) 31 then { s with tod := { s.tod with riseAt := some (s.now + 1) } } else s
    else todStep s
  if pps then
    let s := ppsEvent s
    if bit (s.reg 0x0218) 3 && s.live then (trigger s 4).1 else s
  else s

/-- PPS_OUT_FALL (R362). -/
def execPpsOutFall (s : State) : Out :=
  .next (if s.clkOn && s.tod.out && decide (s.tod.fallAt ≤ s.now) then { s with tod := { s.tod with out := false } } else s)

/-- PPS_EDGE (R359, R360): a rising edge sampled in this cc that stays high for `high` cc. -/
def execPpsEdge (high : Nat) (s : State) : Out :=
  if !s.clkOn || decide (high < 16) then .next s
  else if (match s.tod.lastPps with
      | some p => decide (s.now < p + 2 ^ 29)
      | none => false) then .next (s.bump 0x01C4 1)
  else .next { s with tod := { s.tod with
      lastPps := some s.now, ppsDue := some (s.now + 16), ppsCap := (s.tod.sec, s.tod.ns, s.tod.frac) } }

end Sys2Proof.Machine
end

