-- ==== Sys2Proof/Machine/Fetch.lean ====
section
/-! DEFINITION. The queue engine up to issue: SUBMIT (R27, R53, R54), the chain head, the descriptor fetch through the
DCACHE (R46, R47, R57, R58), its checks, and the record cache (R152, R153, R159). -/

namespace Sys2Proof.Machine

/-! ### SUBMIT -/

/-- The epoch number that opens next (R21, R27). -/
def nextEpoch (s : State) : Nat := if s.epc.count = 2 ^ 40 - 1 then 1 else s.epc.count + 1

/-- The chain a SUBMIT asks for, on the link-up `link` of its port. -/
def submitChain (m : Msg) (p link : Nat) : Chain :=
  { addr := bits (mword m 2) 39 0
    inline := if bits (mword m 0) 7 6 = 1 then some ((List.range 16).map fun i => mword m (2 + i)) else none
    port := some p, submitId := bits (mword m 0) 31 16, rsp := bits (mword m 0) 9 8
    txn := m.txn, htag := m.tag, src := m.src, tenant := m.tenant, link := link }

/-- Inline descriptors a FIFO holds. -/
def inlineUsed (x : QueueSt) : Nat := (x.fifo.filter fun c => c.inline.isSome).length

/-- A head joins a queue's FIFO, when there is room (R54). -/
def fifoRoom (x : QueueSt) (c : Chain) : Bool :=
  decide (x.fifo.length < 16) && (c.inline.isNone || decide (inlineUsed x < 4))
def fifoAdd (s : State) (q : Nat) (c : Chain) : State :=
  s.modQ q fun x => { x with fifo := x.fifo ++ [{ c with id := x.nextChain }], nextChain := x.nextChain + 1 }

/-- A SUBMIT breaks no rule of order 1 of Table 03.13. -/
def submitFits (s : State) (p : Nat) (m : Msg) : Bool :=
  let k := bits (mword m 0) 7 6
  msgFits s m 0x12 (if k = 1 then 144 else 24) && m.status == 0 && m.fault == 0 && m.src == expNode s p && decide (k ≤ 1) &&
  bits (mword m 0) 63 37 == 0 && bits (mword m 0) 15 10 == 0 && bits (mword m 1) 63 40 == 0 &&
  (k == 1 || (bits (mword m 2) 63 40 == 0 && bits (mword m 2) 6 0 == 0))

/-- The headers of egress reserve a SUBMIT's answers may take (R293). -/
def submitHeads (rsp : Nat) : Nat := if rsp = 3 then 2 else 1

/-- The chain of the reserve is answered with a refusal and the rest of the reserve is released. -/
def submitRefuse (s : State) (p q : Nat) (c : Chain) (status epoch : Nat) : State :=
  let s := egressFree s p (submitHeads c.rsp - 1) 0
  submitRsp (s.modQ q fun x => { x with refused := min 0xFFFF (x.refused + 1) }) q c status 0 0 epoch

/-- The checks of Table 03.13 from order 2 on, and the append (R27, R53, R54, R301). DESIGN CHOICE: R27 gives EPOCH_IDLE in
IDLE and EPOCH_DRAINING from the start of a close sequence; in CLEAR and OPENING of a boundary that started in IDLE, which
no close sequence started, the answer is EPOCH_IDLE (log entry 98). -/
def submitCheck (s : State) (p : Nat) (m : Msg) : State :=
  let q := bits (mword m 0) 5 0
  let t := bits (mword m 0) 36 32
  let c := submitChain m p (s.port p).links
  let now := s.epc.count
  if s.epc.state = .idle ∨ (s.epc.state ≠ .opened ∧ s.epc.fromIdle = true) then submitRefuse s p q c 0x02 (nextEpoch s)
  else if s.epc.state ≠ .opened then submitRefuse s p q c 0x01 (nextEpoch s)
  else if !bit (s.tw 9 p 4) t || !s.ownsQ t q then submitRefuse (refusal s p) p q c 0x05 now
  else match takeToken s p t with
    | none => submitRefuse s p q c 0x07 now
    | some s =>
      if bits (mword m 1) 39 0 ≠ 0 ∧ bits (mword m 1) 39 0 ≠ now then submitRefuse s p q c 0x03 now
      else if !s.qOn q then submitRefuse s p q c 0x06 now
      else if (s.ten t).abandoned then submitRefuse s p q c 0x09 now
      else if !fifoRoom (s.q q) c then submitRefuse s p q c 0x04 now
      else
        let s := fifoAdd s q c
        let s := if c.rsp = 0 then egressFree s p 1 0 else s
        let s := if bit c.rsp 0 then submitRsp s q c 0x00 0 0 now else s
        if (s.q q).stopped then answerFifo s q else s

/-- A SUBMIT of a higher port has reached queue `q` in this cc: this one follows in the next (R54). -/
def submitLate (s : State) (p q : Nat) : Bool := s.cc.submits.any fun e => e.1 == q && decide (p < e.2)

/-- SUBMIT (R27, R53, R54, R264, R277, R287, R293, R340, R400, R413): the next SUBMIT of its channel, once its answers have
egress reserve, those of one cc in ascending port number; the Cobbler submits of the cc have been handled as it began. While
requests are stopped it is answered by header STATUS UNIT_OFF. -/
def execSubmit (p : Fin 8) (m : Msg) (s : State) : Out :=
  let x := s.port p
  let c := submitChain m p x.links
  let n := submitHeads c.rsp
  let q := bits (mword m 0) 5 0
  if !s.linkOn || !linkState x.state || !rxNext s p 2 m then .next s
  else if x.state = .fenced then .next (takeRx s p 2 m)
  else if x.state = .hello then .next (malformed (takeRx s p 2 m) p)
  else if !egressRoom s p n 0 || submitLate s p q then .next s
  else
    let s := { egressTake (takeRx s p 2 m) p n 0 with once := [] }
    if !submitFits s p m then .next (submitRefuse (malformed s p) p q c 0x08 s.epc.count)
    else if s.halted then
      .next (answer (egressFree s p (n - 1) 0) p m 0x22 0x07 0
        (leBytes 8 (c.submitId * 2 ^ 16 + q) ++ leBytes 8 s.epc.count ++ leBytes 8 (fifoFree s q)))
    else .next (submitCheck (s.setCc { s.cc with submits := (q, p.val) :: s.cc.submits }) p m)

/-! ### Orders 5 to 7 -/

/-- The operands present, in the order SRC0 to DST. -/
def operands (w : List Nat) : List Nat := (List.range 5).filter (dHas w)

/-- The entry of the record cache for a record, as an access of this cc finds it: one a write of this cc has invalidated
still serves it (R153). -/
def recEntry (s : State) (t i : Nat) : Option CachedRec :=
  (s.mem.rcache ++ s.cc.rcGone).find? fun r => r.tenant == t && r.index == i

/-- A record as the record cache gives it (R153, R238): none when it is not held, or when its words read uncorrectable. -/
def cachedRec (s : State) (t i : Nat) : Option LastRec :=
  match recEntry s t i with
  | some r => if r.err = .clean ∨ r.err = .ce then some r.record else none
  | none => none

/-- What reading a record through the record cache leaves (R238, R246): a correctable error is corrected, an uncorrectable
one invalidates the entry; each is counted. -/
def recTouch (s : State) (t i : Nat) : State :=
  match recEntry s t i with
  | none => s
  | some r =>
    match r.err with
    | .clean => s
    | .ce =>
      let fixed (x : CachedRec) : CachedRec := if x.tenant = t ∧ x.index = i then { x with err := .clean } else x
      let s := s.bump 0x04B8 1
      { s with mem := { s.mem with rcache := s.mem.rcache.map fixed }, cc := { s.cc with rcGone := s.cc.rcGone.map fixed } }
    | _ =>
      let kept (x : CachedRec) : Bool := !(x.tenant == t && x.index == i)
      let s := s.bump 0x04B8 1
      { s with mem := { s.mem with rcache := s.mem.rcache.filter kept }, cc := { s.cc with rcGone := s.cc.rcGone.filter kept } }

/-- A record read from its line: its words, whether the line is poisoned, its physical address (R152). -/
def readRecord (s : State) (q i tag chain : Nat) : LastRec × Bool × Nat × State :=
  let t := s.qTen q
  let a : Agent := { kind := .fetch q tag chain, cls := 5, unit := 103 }
  match xlate s t (s.lastBase t + 64 * i) 64 with
  | none => ([], true, 0, s)
  | some pa => let r := readPhys s a pa 64; (recWords r.1, r.2.1, pa, r.2.2)

/-- A validated record enters the cache, unless a write of this cc, which its line was read before, has overlapped it
(R153). DESIGN CHOICE: R153 names no replacement policy; the record loaded longest ago leaves a full cache (log entry 99). -/
def cacheRec (s : State) (t i pa : Nat) (r : LastRec) : State :=
  if ccBehind s.cc.hbm (pa / 64) 104 then s
  else { s with mem := { s.mem with rcache := ({ tenant := t, index := i, pa := pa, record := r } ::
      s.mem.rcache.filter fun x => !(x.tenant == t && x.index == i)).take 2048 } }

/-- LAST_* DETAIL: index and operand (Table 19.4). -/
def lastDetail (w : List Nat) (o : Nat) : Nat := dIndex w o + o * 2 ^ 20

/-- The first operand whose record fails Table 07.7, then R160: code and operand (R159, R160). `poison` names the
operands whose line was poisoned. DESIGN CHOICE: R160 orders its own two operands nowhere; where DST and source 0 of a
SCATTER both break it, DETAIL names DST (log entry 100). -/
def order5 (s : State) (t : Nat) (w : List Nat) (recs : List (Option LastRec)) (poison : List Nat) : Option (Nat × Nat) :=
  match (operands w).findSome? fun o =>
      if s.lastSize t ≤ dIndex w o then some (0x10, o)
      else (recCheck s t (poison.contains o) (recOf recs o)).map fun c => (c, o) with
  | some x => some x
  | none =>
    if dHas w 4 && !dstOk (recOf recs 4) then some (0x12, 4)
    else if dOpcode w == 0x93 && !dstOk (recOf recs 0) then some (0x12, 0)
    else none

/-- The VC an EV_EMIT or EV_COUNT names, DETAIL of EVT_CONFIG (R223, Table 19.4). -/
def eventVc (w : List Nat) (recs : List (Option LastRec)) (ps : List Nat) : Nat :=
  if dOpcode w = 0xA0 then rVc (recOf recs 0) else bits (ps.getD 0 0) 5 0

/-- Orders 5 to 7 of Table 03.9 on a descriptor whose records are all here: ready, or bad. -/
def lateChecks (s : State) (q : Nat) (f : Fetch) (w : List Nat) (poison : List Nat) : Fetch :=
  let t := s.qTen q
  let bad (c d : Nat) : Fetch := { f with phase := .bad c (tagOf w) d, at_ := s.now }
  match order5 s t w f.recs poison with
  | some (c, o) => bad c (lastDetail w o)
  | none =>
    match (if (operands w).isEmpty then none else order6 s t w f.recs) with
    | some c => bad c (if c = 0x03 then descDetail f else eventVc w f.recs (dParams w))
    | none =>
      match order7 s q w f.recs with
      | some y => bad 0x04 y
      | none => { f with phase := .ready, at_ := s.now }

/-- The last fetched descriptor replaced. -/
def setFetch (s : State) (q i : Nat) (f : Fetch) : State := s.modQ q fun x => { x with fetch := x.fetch.set i f }

/-- A descriptor's words are here: orders 3 and 4, then its records from the cache; those not cached are loaded
(R47, R152). -/
def earlyChecks (s : State) (q : Nat) (f : Fetch) (w : List Nat) : Fetch :=
  let t := s.qTen q
  let tag := if tagReserved (tagOf w) then f.predTag else tagOf w
  if !fieldsOk s t w then { f with phase := .bad 0x03 tag (descDetail f), at_ := s.now }
  else if isCtl (dOpcode w) && !tackOk s t (dOpcode w) (dParams w) (dPsrEn w) then
    { f with phase := .bad 0x05 (tagOf w) ((ctlTack (dOpcode w) (dParams w)).getD 0), at_ := s.now }
  else
    let recs := (List.range 5).map fun o => if dHas w o then cachedRec s t (dIndex w o) else none
    let missing := (operands w).filter fun o => (recs.getD o none).isNone && decide (dIndex w o < s.lastSize t)
    let f := { f with recs := recs }
    if missing.isEmpty then lateChecks s q f w [] else { f with phase := .loading missing, at_ := s.now }

/-- What looking up a descriptor's records leaves in the record cache, once it has passed orders 1 to 4 (R152, R238). -/
def recsTouch (s : State) (q : Nat) (w : List Nat) : State :=
  let t := s.qTen q
  if !fieldsOk s t w || (isCtl (dOpcode w) && !tackOk s t (dOpcode w) (dParams w) (dPsrEn w)) then s
  else (operands w).foldl (fun s o => recTouch s t (dIndex w o)) s

/-- A descriptor that failed a check faults in the cc of that check, and its queue stops: the descriptors before it that
have not issued do not issue (R47, R398). -/
def raiseBad (s : State) (q : Nat) : State :=
  match (s.q q).fetch.findSome? fun f => match f.phase with
    | .bad code tag detail => some (code, tag, detail)
    | _ => none with
  | some (code, tag, detail) => queueFault s q code tag detail
  | none => s

/-! ### The chain head -/

/-- Queue `q` may fetch and issue: its work goes on, in OPEN or DRAIN (R28, R45, R47, R60, R301). -/
def qLive (s : State) (q : Nat) : Bool :=
  let x := s.q q
  s.runs && s.qOn q && (decide (s.epc.state = .opened) || decide (s.epc.state = .drain)) &&
  !(x.stopped || x.ended || x.abandoned)

/-- CHAIN_HEAD_TAKE (R45, R46, R47, R54, R71, R74): an idle queue, which stands at no WAIT, takes the next head of its FIFO. An inline descriptor is
checked at once; a timed queue without a granted mask faults. -/
def execChainHeadTake (q : Fin 64) (s : State) : Out :=
  let x := s.q q
  match x.fifo with
  | [] => .next s
  | c :: rest =>
    if !qLive s q || x.chain.isSome || (waitingAt s q).isSome then .next s
    else
      let s := s.setQ q { x with fifo := rest, chain := some c, base := s.now, loops := [], nextAt := s.now + 1 }
      if s.qTimed q && (s.q q).granted.isNone then
        .next (queueFault s q 0x04 (match c.inline with | some w => tagOf w | none => 0xFFFFFD) 0)
      else match c.inline with
        | none => .next (s.modQ q fun x => { x with next := some (c.addr, 0xFFFFFD) })
        | some w =>
          let f : Fetch := { inline := true, chain := c.id, words := some w }
          .next (raiseBad ((recsTouch s q w).modQ q fun x =>
            { x with fetch := [earlyChecks s q f w], next := (dKnownNext w).map fun a => (a, tagOf w) }) q)

/-! ### The fetch -/

/-- Descriptor fetches as a requester, with the tag a fetch fault carries. -/
def fetchAgent (q : Nat) (f : Fetch) : Agent := { kind := .fetch q f.predTag f.chain, cls := 5, unit := 103 }

/-- A DCACHE line moves to the front, or enters it, its set keeping 16 ways (R57). -/
def dcacheTouch (s : State) (l : Nat) : State :=
  let rest := s.mem.dcache.filter (· != l)
  let mine := rest.filter fun d => d % 512 == l % 512
  let old := mine.drop 15
  { s with mem := { s.mem with dcache := l :: rest.filter fun d => !old.contains d } }

/-- The DCACHE holds HBM line pair `l` for an access of this cc: one that a write of this cc has invalidated still serves
it (R58). -/
def dcacheHolds (s : State) (l : Nat) : Bool := s.mem.dcache.contains l || s.cc.dcGone.contains l

/-- The error state of a DCACHE line's stored words. -/
def dcacheErr (s : State) (l : Nat) : Err := mget (fun _ => Err.clean) s.mem.dcErr l

/-- A line the DCACHE no longer holds, or holds anew, or has corrected has no error. -/
def dcacheClean (s : State) (l : Nat) : State :=
  { s with mem := { s.mem with dcErr := mset (fun _ => Err.clean) s.mem.dcErr l .clean } }

/-- A DCACHE line that reads uncorrectable is invalidated. -/
def dcacheDrop (s : State) (l : Nat) : State :=
  let s := dcacheClean s l
  { s with mem := { s.mem with dcache := s.mem.dcache.filter (· != l) }, cc := { s.cc with dcGone := s.cc.dcGone.filter (· != l) } }

/-- A read of line pair `l` through the DCACHE (R57, R58, R238, R246): its 128 bytes on a hit, as they stood before the
writes of this cc; none on a miss, which an uncorrectable error in the line's stored words is too. -/
def dcacheRead (s : State) (l : Nat) : Option (List Byte) × State :=
  if !dcacheHolds s l then (none, s)
  else
    let bytes := (s.lineSeen 0 (2 * l)).bytes ++ (s.lineSeen 0 (2 * l + 1)).bytes
    let hit (s : State) : State := if s.mem.dcache.contains l then dcacheTouch s l else s
    match dcacheErr s l with
    | .clean => (some bytes, hit s)
    | .ce => (some bytes, hit (dcacheClean (s.bump 0x04B8 1) l))
    | _ => (none, dcacheDrop (s.bump 0x04B8 1) l)

/-- A miss's read fills the DCACHE, unless a write of this cc, which the read came before, has overlapped the line (R57,
R58). -/
def dcacheFill (s : State) (a : Agent) (l : Nat) : State :=
  if ccBehind s.cc.hbm (2 * l) (hbmRank a) || ccBehind s.cc.hbm (2 * l + 1) (hbmRank a) then s
  else dcacheClean (dcacheTouch s l) l

/-- A queue's fetch has started in this cc (R74). -/
def fetchedNow (s : State) (q : Nat) : Bool := (s.q q).fetch.any fun f => f.phase == .asked && f.at_ == s.now

/-- DESCRIPTOR_FETCH (R46, R47 order 1, R57, R58, R74, R86): the next descriptor's fetch starts, one in a cc, at most four
ahead of the one issuing. A DCACHE hit holds the content of this cc. -/
def execDescriptorFetch (q : Fin 64) (s : State) : Out :=
  let x := s.q q
  match x.next, x.chain with
  | some (a, ptag), some c =>
    if !qLive s q || decide (5 ≤ x.fetch.length) || decide (s.now < x.nextAt) || fetchedNow s q then .next s
    else
      let f : Fetch := { addr := a, predTag := ptag, chain := c.id, at_ := s.now }
      let add (s : State) (f : Fetch) (n : Option (Nat × Nat)) : State :=
        s.modQ q fun x => { x with fetch := x.fetch ++ [f], next := n }
      match (if a % 128 = 0 then xlate s (s.qTen q) a 128 else none) with
      | none => .next (raiseBad (add s { f with phase := .bad 0x01 ptag a } none) q)
      | some pa =>
        match dcacheRead s (pa / 128) with
        | (some bs, s) =>
          let w := descWords bs
          .next (add s { f with words := some w } ((dKnownNext w).map fun n => (n, tagOf w)))
        | (none, s) => .next (add s f none)
  | _, _ => .next s

/-- DESCRIPTOR_RETURN (R46, R47, R57, R58, R74, R152): the oldest fetch still asked for returns, 12 cc after it started at
the earliest, and is checked; a miss reads HBM and fills the DCACHE. -/
def execDescriptorReturn (q : Fin 64) (s : State) : Out :=
  let x := s.q q
  if !qLive s q then .next s
  else match x.fetch.findIdx? fun f => f.phase == .asked with
    | none => .next s
    | some i =>
      let f := x.fetch.getD i {}
      if s.now < f.at_ + 12 then .next s
      else match f.words with
      | some w => .next (raiseBad (setFetch (recsTouch s q w) q i (earlyChecks s q f w)) q)
      | none =>
        match xlate s (s.qTen q) f.addr 128 with
        | none => .next (raiseBad (setFetch s q i { f with phase := .bad 0x01 f.predTag f.addr, at_ := s.now }) q)
        | some pa =>
          let r := readPhys { s with once := f.wrote } (fetchAgent q f) pa 128
          let s := r.2.2
          if r.2.1 then
            .next (raiseBad (setFetch s q i { f with poison := true, phase := .bad 0x02 f.predTag f.addr, at_ := s.now }) q)
          else
            let s := dcacheFill s (fetchAgent q f) (pa / 128)
            let w := descWords r.1
            let s := setFetch (recsTouch s q w) q i (earlyChecks s q { f with words := some w } w)
            .next (raiseBad (s.modQ q fun x =>
              if x.next.isNone && decide (i + 1 = x.fetch.length) then
                { x with next := (dKnownNext w).map fun n => (n, tagOf w) }
              else x) q)

/-- LAST_RECORD_RETURN (R152, R153, R159, R160): the record of operand `o` of the oldest descriptor still loading it is
read, validated and cached; the last of them lets orders 5 to 7 be applied. -/
def execLastRecordReturn (q : Fin 64) (operand : Fin 5) (s : State) : Out :=
  let x := s.q q
  let wants (f : Fetch) : Bool := match f.phase with | .loading ms => ms.contains operand.val | _ => false
  if !qLive s q then .next s
  else match x.fetch.findIdx? wants with
    | none => .next s
    | some i =>
      let f := x.fetch.getD i {}
      let w := f.words.getD []
      let t := s.qTen q
      let r := readRecord { s with once := f.wrote } q (dIndex w operand) (tagOf w) f.chain
      let bad := recCheck s t r.2.1 r.1
      let s := if bad.isNone then cacheRec r.2.2.2 t (dIndex w operand) r.2.2.1 r.1 else r.2.2.2
      let left := match f.phase with | .loading ms => ms.filter (· != operand.val) | _ => []
      let f := { f with recs := f.recs.set operand (some (if r.2.1 then [] else r.1)), poison := f.poison || r.2.1
                        phase := .loading left, at_ := s.now, wrote := s.once }
      if left.isEmpty then
        -- a poisoned line shows as an empty record, which no line in memory gives
        .next (raiseBad (setFetch s q i (lateChecks s q f w ((operands w).filter fun o => f.recs.getD o none == some []))) q)
      else .next (setFetch s q i f)

end Sys2Proof.Machine
end

