-- ==== Sys2Proof/Machine/Issue.lean ====
section
/-! DEFINITION. Issue (R61 to R69, R74): the descriptor at the front of a queue, its parameters, the checks made at issue
(R48, R96), the flight it becomes, how the chain goes on (R45, R50, R82), and the control descriptors (R77, R78, R81 to
R87, R201). -/

namespace Sys2Proof.Machine

/-! ### The front of a queue -/

/-- The descriptor at the front of a queue: its fetch, its words, P0 to P4 as resolved in this cc (R42). -/
structure Front where
  f  : Fetch := {}
  w  : List Nat := []
  ps : List Nat := []
  deriving DecidableEq, Repr

/-- P0 to P4, with the scalar registers PSR_EN names (R42). -/
def resolveP (x : QueueSt) (w : List Nat) : List Nat :=
  (dParams w).zipIdx.map fun p => if p.2 < 4 ∧ bit (dPsrEn w) p.2 then x.sr.getD (dPsrSel w p.2) 0 else p.1

/-- The cc a timed descriptor is scheduled for (R74). -/
def schedCc (x : QueueSt) (w : List Nat) : Nat := x.base + Nat.max (dDelay w) 1

/-- Every Cobbler of a mask is idle (R201). -/
def cblsIdle (s : State) (mask : Nat) : Bool := (List.range 16).all fun k => !bit mask k || !(s.cbl k).running

/-- What holds an issue back (R63, R65, R68, R69, R74, R201); `at_` is the cc in which the descriptor was ready. -/
def issueRoom (s : State) (q : Nat) (at_ : Nat) (w ps : List Nat) : Bool :=
  let x := s.q q
  let e := sbEntries q x w ps
  decide (x.flight.length < 8) && (!dBarrier w || x.flight.isEmpty) &&
  (if s.qTimed q then decide (schedCc x w ≤ s.now)
   else decide (max at_ x.base + 12 ≤ s.now) && sbFree s (s.qTen q) e.1 e.2) &&
  (dOpcode w != 6 || cblsIdle s (bits (ps.getD 1 0) 15 0))

/-- The front descriptor of queue `q`, when nothing of its own holds it back in this cc. -/
def readyFront (s : State) (q : Nat) : Option Front :=
  if !qLive s q then none
  else match (s.q q).fetch with
    | [] => none
    | f :: _ =>
      match f.phase, f.words with
      | .ready, some w =>
        let ps := resolveP (s.q q) w
        if issueRoom s q f.at_ w ps then some { f := f, w := w, ps := ps } else none
      | _, _ => none

/-- The queues ready to issue in this cc. -/
def readyQs (s : State) : List Nat := (s.queues.map (·.1)).filter fun q => (readyFront s q).isSome

/-- The issues made in this cc so far (R61). -/
def issuesNow (s : State) : IssueSt := if s.issue.cc = s.now then s.issue else { cc := s.now, base := s.lastTen }

/-- Of the ready guarded queues of its tenant, `q` has the most credit, reloaded when none has any; a lower number wins
a tie (R62). -/
def bestOfTenant (s : State) (rs : List Nat) (q : Nat) : Bool :=
  let mine := rs.filter fun r => !s.qTimed r && s.qTen r == s.qTen q
  let key (r : Nat) : Nat := if mine.any fun r => decide (0 < (s.q r).credit) then (s.q r).credit else queueWeight s r
  mine.all fun r => r == q || decide (key r < key q) || (key r == key q && decide (q < r))

/-- A tenant's place in the rotation of this cc (R62). -/
def tenPlace (base t : Nat) : Nat := (t + 31 - base % 32) % 32

/-- One of the four issue slots of this cc is left for queue `q`: ready timed queues go first in ascending number, then one
guarded queue of each tenant in rotation (R61, R62). -/
def issueSlot (s : State) (q : Nat) : Bool :=
  let i := issuesNow s
  let rs := readyQs s
  let timed := rs.filter s.qTimed
  if s.qTimed q then decide (i.n + (timed.filter fun r => decide (r < q)).length < 4)
  else
    let t := s.qTen q
    let others := (List.range 32).filter fun u =>
      !i.tens.contains u && decide (tenPlace i.base u < tenPlace i.base t) && rs.any fun r => !s.qTimed r && s.qTen r == u
    !i.tens.contains t && bestOfTenant s rs q && decide (i.n + timed.length + others.length < 4)

/-- The front descriptor of queue `q`, when it may issue in this cc. -/
def frontOf (s : State) (q : Nat) : Option Front := if issueSlot s q then readyFront s q else none

/-- What an issue check finds: code and DETAIL. Parameters from scalar registers are checked here (R48, R49, R96, R223);
a timed queue whose mask holds a VC that is not ON refuses (chapter 04). -/
def issueBad (s : State) (q : Nat) (fr : Front) : Option (Nat × Nat) :=
  let t := s.qTen q
  let op := dOpcode fr.w
  let g := ((s.q q).granted).getD 0
  if s.qTimed q && (List.range 64).any fun v => bit g v && !s.isOn v then some (0x04, 3)
  else if dPsrEn fr.w = 0 then none
  else if isCtl op then
    if !ctlOk s t op fr.ps 0 then some (0x03, descDetail fr.f)
    else if !tackOk s t op fr.ps 0 then some (0x05, (ctlTack op fr.ps).getD 0)
    else none
  else if !shapesOk fr.w fr.f.recs fr.ps 0 then some (0x03, descDetail fr.f)
  else (eventOk s t fr.w fr.f.recs fr.ps 0).map fun c =>
    (c, if c = 0x03 then descDetail fr.f else eventVc fr.w fr.f.recs fr.ps)

/-- An issue check that fails faults the descriptor, which has no effect; `k` issues it. -/
def startIssue (op : Nat) (q : Nat) (s : State) (k : Front → State) : Out :=
  match frontOf s q with
  | none => .next s
  | some fr =>
    if dOpcode fr.w ≠ op then .next s
    else match issueBad s q fr with
      | some (code, detail) => .next (queueFault s q code (tagOf fr.w) detail)
      | none => .next (k fr)

/-! ### A descriptor in flight -/

/-- The tenant of those granted in this cc that stands last in its rotation (R62). -/
def lastGranted (i : IssueSt) (t : Nat) : Nat :=
  i.tens.foldl (fun a u => if tenPlace i.base a < tenPlace i.base u then u else a) t

/-- A grant costs a guarded queue one credit; a queue without credit has its tenant's queues reloaded first (R62). -/
def grant (s : State) (q : Nat) : State :=
  let t := s.qTen q
  let load (s : State) : State :=
    ((List.range 64).filter fun r => s.qTen r == t && s.qOn r).foldl
      (fun s r => s.modQ r fun x => { x with credit := queueWeight s r }) s
  let s := if (s.q q).credit = 0 then load s else s
  { s.modQ q fun x => { x with credit := x.credit - 1 } with lastTen := lastGranted (issuesNow s) t }

/-- An issue of queue `q` counts among those of this cc (R61). -/
def noteIssue (s : State) (q : Nat) : State :=
  let i := issuesNow s
  { s with issue := { i with n := i.n + 1, tens := if s.qTimed q then i.tens else s.qTen q :: i.tens } }

/-- The front descriptor issues: it is in flight, holding its scoreboard entries (R63, R66, R69, R74, R405). -/
def issueIt (s : State) (q : Nat) (fr : Front) (mk : Flight → Flight) : State :=
  let x := s.q q
  let timed := s.qTimed q
  let e := if timed then ([], 0) else sbEntries q x fr.w fr.ps
  let fl := mk { seq := x.nextSeq, words := fr.w, wrote := fr.f.wrote, recs := fr.f.recs, chain := fr.f.chain, issued := s.now, params := fr.ps
                 entries := e.1, need := e.2 }
  let s := noteIssue s q
  let s := if timed then s.bump 0x0700 (s.now - schedCc x fr.w) else grant s q
  let s := s.modQ q fun x =>
    { x with fetch := x.fetch.drop 1, flight := x.flight ++ [fl], nextSeq := x.nextSeq + 1, base := s.now }
  if dTrace fr.w then traceTen s (tagOf fr.w) 1 (s.qTen q) q (dOpcode fr.w) else s

/-! ### How a chain goes on -/

/-- The number the descriptor in flight last got. -/
def lastSeq (s : State) (q : Nat) : Nat := (s.q q).nextSeq - 1

/-- What a descriptor with LAST decides as it issues (R45, R50, R82): an address or the end of the chain, the loop stack,
and the counter that receives an iteration number. -/
def lastGoes : List LoopEntry → Option Nat × List LoopEntry × Option (Nat × Nat)
  | [] => (none, [], none)
  | e :: rest =>
    if 1 < e.left then
      (some e.body, { e with left := e.left - 1, iter := e.iter + 1 } :: rest,
        if e.idx ≤ 7 then some (e.idx, (e.iter + 1) % 2 ^ 32) else none)
    else (e.next, rest, none)

/-- That decision takes force on the loop stack and its counter. -/
def lastTakes (s : State) (q : Nat) : State :=
  s.modQ q fun x =>
    let g := lastGoes x.loops
    { x with loops := g.2.1, cnt := match g.2.2 with | some c => x.cnt.set c.1 c.2 | none => x.cnt }

/-- The chain of queue `q` ends with its descriptor `n` (R45, R50, R55). -/
def endChain (s : State) (q n : Nat) : State :=
  (s.modFlight q n fun f => { f with ends := true }).modQ q fun x =>
    { x with chain := none, owed := x.owed ++ x.chain.toList, fetch := [], next := none, loops := [] }

/-- The queue goes on at an address that descriptor `tag` named, with the fetch of the next cc at the earliest (R46, R86). -/
def goTo (s : State) (q a tag : Nat) : State := s.modQ q fun x => { x with next := some (a, tag), nextAt := s.now + 1 }

/-- The queue goes on where a decision sends it, or its chain ends with descriptor `n`. -/
def goWhere (s : State) (q n tag : Nat) : Option Nat → State
  | none => endChain s q n
  | some a => goTo s q a tag

/-- Descriptor `n` carries LAST: the innermost loop decides, or the chain ends. -/
def goLast (s : State) (q n tag : Nat) : State := goWhere (lastTakes s q) q n tag (lastGoes (s.q q).loops).1

/-- An issued descriptor that decides nothing itself: LAST acts. -/
def goOn (s : State) (q : Nat) (fr : Front) : State :=
  raiseBad (if dLast fr.w then goLast s q (lastSeq s q) (tagOf fr.w) else s) q

/-- An issued descriptor that carries on at its own NEXT: LAST acts first. -/
def goNext (s : State) (q n : Nat) (w : List Nat) : State :=
  if dLast w then goLast s q n (tagOf w) else goTo s q (dNext w) (tagOf w)

/-! ### LOOP and BRANCH -/

/-- The value of a CNT or SR operand, as 64 bits of which a CNT has 32 (R78, R81). -/
def cntOrSr (x : QueueSt) (c : Nat) : Nat := if c < 8 then x.cnt.getD c 0 else x.sr.getD (c - 8) 0

/-- The count of a LOOP (R81). -/
def loopCount (x : QueueSt) (p1 : Nat) : Nat :=
  let c := bits p1 7 0
  if c ≤ 0x0F then cntOrSr x c % 2 ^ 32 else bits p1 63 32

/-- LOOP (R45, R81, R82): the count is read, the entry pushed, the body begun; with a count of 0 nothing is pushed and the
body is skipped. A LOOP that is itself the last of a body decides that body's loop as it issues; where the decision leads
is where its own loop is left to. DESIGN CHOICE: a LOOP with LAST and a count above 0 outside any body runs its body, and
the chain ends as the loop is left (log entry 101). -/
def execLoop (q : Fin 64) (s : State) : Out :=
  startIssue 0x01 q s fun fr =>
    let x := s.q q
    let p1 := fr.ps.getD 1 0
    let n := loopCount x p1
    if n ≠ 0 ∧ 4 ≤ x.loops.length then queueFault s q 0x06 (tagOf fr.w) 0
    else
      let s := issueIt s q fr fun f => { f with complete := true }
      if n = 0 then goNext s q (lastSeq s q) fr.w
      else
        let body := bits (fr.ps.getD 0 0) 39 0
        let idx := bits p1 15 8
        let left := if dLast fr.w then (lastGoes x.loops).1 else some (dNext fr.w)
        goTo ((if dLast fr.w then lastTakes s q else s).modQ q fun x =>
          { x with loops := { left := n, body := body, idx := idx, next := left } :: x.loops
                   cnt := if idx ≤ 7 then x.cnt.set idx 0 else x.cnt }) q body (tagOf fr.w)

/-- A comparator operand under an interpretation (R78): CNT 32 bits, SR and the immediate 64. -/
def cmpValue (x : QueueSt) (c : Cmp) (o : Nat) : Num :=
  let raw := if o = 0x10 then c.imm else cntOrSr x o
  match c.interp with
  | 0 => nInt raw
  | 1 => nInt (if o < 8 then toSigned 32 raw else toSigned 64 raw)
  | _ => ofFp32 raw

/-- A comparator evaluated (R78). -/
def cmpHolds (x : QueueSt) (i : Nat) : Bool :=
  let c := x.cmp.getD i {}
  relHolds c.rel (cmpValue x c c.a) (cmpValue x c c.b)

/-- BRANCH (R45, R50, R78, R83). -/
def execBranch (q : Fin 64) (s : State) : Out :=
  startIssue 0x02 q s fun fr =>
    let p1 := fr.ps.getD 1 0
    let taken := cmpHolds (s.q q) (bits p1 1 0) == bit p1 8
    let s := issueIt s q fr fun f => { f with complete := true }
    let n := lastSeq s q
    if (taken && bit p1 9) || (!taken && bit p1 10) then endChain s q n
    else if dLast fr.w then goLast s q n (tagOf fr.w)
    else goTo s q (if taken then bits (fr.ps.getD 0 0) 39 0 else dNext fr.w) (tagOf fr.w)

/-! ### WAIT -/

/-- WAIT (R45, R82, R86, R87): it issues and starts evaluating; the queue reads no further until it is satisfied or times
out. With LAST its loop decides, or its chain ends, as it issues. -/
def execWait (q : Fin 64) (s : State) : Out :=
  startIssue 0x03 q s fun fr =>
    let p0 := fr.ps.getD 0 0
    let p1 := fr.ps.getD 1 0
    let goes := if dLast fr.w then (lastGoes (s.q q).loops).1 else some (dNext fr.w)
    let w : Waiting :=
      { tack := bits p0 9 0, thresh := bits p0 31 16, consume := bit p0 32
        until_ := if bits p1 31 0 = 0 then none else some (s.now + 1024 * bits p1 31 0)
        toNext := if bit p1 32 then some (bits (fr.ps.getD 2 0) 39 0) else none
        goes := goes }
    let s := issueIt s q fr fun f => { f with wait := some w }
    let s := if dLast fr.w then lastTakes s q else s
    if goes.isNone then endChain s q (lastSeq s q) else s

/-- The value of a tack reaches a threshold; a consume subtracts it (R86, R198). -/
def tackMeets (s : State) (w : Waiting) : Bool := decide (w.thresh ≤ (s.tack w.tack).value)
def tackConsume (s : State) (w : Waiting) : State :=
  if w.consume then s.modTack w.tack fun x => { x with value := x.value - w.thresh } else s

/-- A waiter on the same tack takes its units in this cc: its threshold is reached and it consumes. -/
def takesFrom (s : State) (tack : Nat) (w : Waiting) : Bool :=
  w.tack == tack && w.consume && decide (0 < w.thresh) && tackMeets s w

/-- The WAIT of a queue below `n`, or a TWAIT of a Cobbler below `k`, is evaluated before and takes from the tack (R86). -/
def takenBefore (s : State) (tack n k : Nat) : Bool :=
  (List.range n).any (fun q => (waitingAt s q).any fun x => takesFrom s tack x.2) ||
  (List.range k).any fun j => (s.cbl j).running && (s.cbl j).twait.any (takesFrom s tack)

/-- WAIT_SATISFIED (R86): the threshold is reached, after the queues below have been evaluated; the queue goes on. -/
def execWaitSatisfied (q : Fin 64) (s : State) : Out :=
  match waitingAt s q with
  | none => .next s
  | some (f, w) =>
    if !s.runs || !tackMeets s w || takenBefore s w.tack q 0 then .next s
    else
      let s := (tackConsume s w).modFlight q f.seq fun f => { f with wait := none, complete := true }
      .next (match w.goes with
        | some a => goTo s q a (tagOf f.words)
        | none => s)

/-- WAIT_TIMEOUT (R87): TIMEOUT × 1,024 cc after its issue the unsatisfied WAIT goes on at TO_NEXT, or faults and stops
its queue. DESIGN CHOICE: a WAIT that ends a loop body, whose count has fallen at its issue (R82), goes on at TO_NEXT on a
timeout, and not where its loop decided; one with LAST outside any body has ended its chain, and TO_NEXT is not followed
(log entry 102). -/
def execWaitTimeout (q : Fin 64) (s : State) : Out :=
  match waitingAt s q with
  | none => .next s
  | some (f, w) =>
    if !s.runs || tackMeets s w || !(w.until_.any fun d => decide (d ≤ s.now)) then .next s
    else
      let s := s.modFlight q f.seq fun f => { f with wait := none, complete := true }
      match w.toNext with
      | some a => .next (if w.goes.isNone then s else goTo s q a (tagOf f.words))
      | none => .next (stopQueue (flightFault s q f.seq 0x07 103 2 0) q (tagOf f.words))

/-! ### SET -/

/-- A SET whose KIND, as resolved, is `kind` (R48, R77, R84). -/
def startSet (kind : Nat) (q : Nat) (s : State) (k : Front → State) : Out :=
  startIssue 0x04 q s fun fr => if bits (fr.ps.getD 0 0) 3 0 = kind then goOn (k fr) q fr else s

/-- INDEX of a SET. -/
def setIndex (fr : Front) : Nat := bits (fr.ps.getD 0 0) 25 16

/-- TACK_ADD (R64, R84): issued; its update is made when every earlier descriptor of its queue has retired. -/
def execTackAdd (q : Fin 64) (s : State) : Out := startSet 0 q s fun fr => issueIt s q fr id

/-- TACK_WRITE (R64, R84). -/
def execTackWrite (q : Fin 64) (s : State) : Out := startSet 1 q s fun fr => issueIt s q fr id

/-- CNT_WRITE (R77). -/
def execCntWrite (q : Fin 64) (s : State) : Out :=
  startSet 2 q s fun fr => (issueIt s q fr fun f => { f with complete := true }).modQ q fun x =>
    { x with cnt := x.cnt.set (setIndex fr) (fr.ps.getD 1 0 % 2 ^ 32) }

/-- CNT_ADD (R77). -/
def execCntAdd (q : Fin 64) (s : State) : Out :=
  startSet 3 q s fun fr => (issueIt s q fr fun f => { f with complete := true }).modQ q fun x =>
    { x with cnt := x.cnt.set (setIndex fr) ((x.cnt.getD (setIndex fr) 0 + fr.ps.getD 1 0 % 2 ^ 32) % 2 ^ 32) }

/-- A write to a scalar register, applied at the end of cc `due` in the order of R79. -/
def srWrite (s : State) (due rank q r v : Nat) : State :=
  { s with srPend := s.srPend ++ [{ due := due, rank := rank, queue := q, reg := r, value := v }] }

/-- SR_WRITE (R77, R79). -/
def execSrWrite (q : Fin 64) (s : State) : Out :=
  startSet 4 q s fun fr =>
    srWrite (issueIt s q fr fun f => { f with complete := true }) s.now 0 q (setIndex fr) (fr.ps.getD 1 0 % 2 ^ 64)

/-- CMP_CONFIG (R77, R78). -/
def execCmpConfig (q : Fin 64) (s : State) : Out :=
  startSet 5 q s fun fr =>
    let p1 := fr.ps.getD 1 0
    let c : Cmp := { a := bits p1 7 0, b := bits p1 15 8, rel := bits p1 18 16, interp := bits p1 21 20
                     imm := if bits p1 15 8 = 0x10 then fr.ps.getD 2 0 else 0 }
    (issueIt s q fr fun f => { f with complete := true }).modQ q fun x => { x with cmp := x.cmp.set (setIndex fr) c }

/-! ### EPOCH_END and COBBLER -/

/-- EPOCH_END (R45): the chain ends and the queue issues nothing more in the epoch. -/
def execEpochEnd (q : Fin 64) (s : State) : Out :=
  startIssue 0x05 q s fun fr =>
    let s := issueIt s q fr fun f => { f with complete := true }
    (endChain s q (lastSeq s q)).modQ q fun x => { x with ended := true }

/-- One named Cobbler is launched, or reported OFF (R186, R201). -/
def launchOne (s : State) (q n : Nat) (w ps : List Nat) (k : Nat) : State :=
  if !s.isOn (64 + k) then cblCount (flightFault s q n 0x36 (64 + k) 1 0) q n
  else s.modCbl k fun c =>
    { running := true
      regs := (List.replicate 16 0).set 1 (bits (ps.getD 2 0) 31 0) |>.set 2 (bits (ps.getD 2 0) 63 32)
      queue := q, seq := n, tenant := s.qTen q, tag := tagOf w, prog := bits (ps.getD 0 0) 39 0, len := bits (ps.getD 1 0) 25 16
      lines := [{ no := 0, at_ := s.now + 1 }], late := c.late.map fun l => { l with rd := 0 }
      ops := c.ops, nextOp := c.nextOp, holder := c.holder }

/-- COBBLER (R186, R201): the image lies in one window, or CBL_IMAGE; the named Cobblers start. -/
def execCobbler (q : Fin 64) (s : State) : Out :=
  startIssue 0x06 q s fun fr =>
    let mask := bits (fr.ps.getD 1 0) 15 0
    let ks := (List.range 16).filter (bit mask)
    let s := issueIt s q fr fun f => { f with launched := ks.length }
    let n := lastSeq s q
    let len := bits (fr.ps.getD 1 0) 25 16
    let s := if (xlate s (s.qTen q) (bits (fr.ps.getD 0 0) 39 0) (128 * len)).isNone then
        (flightFault s q n 0x35 103 1 0).modFlight q n fun f => { f with complete := true }
      else ks.foldl (fun s k => launchOne s q n fr.w fr.ps k) s
    goOn s q fr

end Sys2Proof.Machine
end

