-- ==== Sys2Proof/Machine/Data.lean ====
section
/-! DEFINITION. The data opcodes of Table 05.2 as they issue: what each computes is the meaning of its tiles
(Tile.lean, Awl.lean), which every opcode reaches through TILE_EXECUTE; SR_LOAD and SR_STORE, which the queue engine
executes itself (R121). -/

namespace Sys2Proof.Machine

/-- A data descriptor of opcode `op` issues: cut into its tiles (R91, R108, R124, R167), a SCATTER joining the jobs of
the home Awls (R173). -/
def issueData (op : Nat) (q : Nat) (s : State) : Out :=
  startIssue op q s fun fr =>
    let s := issueIt s q fr fun f => { f with tiles := tileCount fr.w fr.f.recs fr.ps }
    goOn (if op = 0x93 then addJobs s q (lastSeq s q) else s) q fr

/-! ### SR_LOAD and SR_STORE -/

/-- The queue engine as a requester for a descriptor. -/
def srAgent (q n : Nat) : Agent := { kind := .tile q n, cls := 5, unit := 103 }

/-- The VC whose CBUF a record with LOCAL at 1 names in SR_LOAD or SR_STORE: the spec names none (log entry 37). -/
def srVc (s : State) : Nat := (Config.freeWord s.freeCtr).toNat % 64

/-- The flat index P0[31:0], signed (R121, Table 19.4). -/
def srIndex (f : Flight) : Int := toSigned 32 (f.params.getD 0 0)

/-- The place SR_LOAD reads, unless its index is refused (R102, R162). -/
def srLoadLoc (s : State) (q : Nat) (f : Flight) : Option Loc :=
  let r := recOf f.recs 0
  let z := viewSizes f.words f.recs 0
  (resolveIdx (rFault r) (countOf z) (srIndex f)).map fun k =>
    locOf s (s.qTen q) (srVc s) r (viewIdx f.words 0 (unflat z k))

/-- OOB_ACCESS of an operand (R102, Table 19.4). -/
def srOob (s : State) (q : Nat) (f : Flight) (operand : Nat) : State :=
  flightOnce s q f.seq 0x21 103 1 (operand + ofSigned 32 (srIndex f) * 2 ^ 32)

/-- SR_LOAD reads its element and delivers it (R100, R101, R102, R121). -/
def srLoadRun (s : State) (q : Nat) (f : Flight) : State :=
  let ty := tyOf f.recs 0
  let r : Nat × State := match srLoadLoc s q f with
    | none => (srDeliver ty 0 0x7F false, srOob s q f 0)
    | some l =>
      let x := loadElems s (srAgent q f.seq) q f.seq 103 [l]
      let e := x.1.headD {}
      (srDeliver ty e.bits e.scale e.poison, if e.poison then consumePoison x.2 q f.seq 103 0 else x.2)
  r.2.tick1.modFlight q f.seq fun f => { f with srOut := some r.1, complete := true }

/-- The index SR_STORE writes, unless it is refused. -/
def srStoreIdx (f : Flight) : Option (List Nat) :=
  let d := recOf f.recs 4
  (resolveIdx (rFault d) (countOf (rSizes d)) (srIndex f)).map (unflat (rSizes d))

/-- The value SR_STORE converts (R121). -/
def srStoreVal (f : Flight) : Num :=
  let p1 := f.params.getD 1 0
  if bit (dMod f.words) 0 then nInt (toSigned 64 p1) else ofFp32 p1

/-- The places SR_STORE reads before it writes: the other elements of an MX block (R144). -/
def srStoreReads (s : State) (q : Nat) (f : Flight) (idx : List Nat) : List (Nat × List Nat × Loc) :=
  let d := recOf f.recs 4
  if isMX (rType d) then (blockLanes d idx).map fun l => (l.1, l.2, locOf s (s.qTen q) (srVc s) d l.2) else []

/-- SR_STORE writes its value (R102, R121, R143, R144). -/
def srStoreRun (s : State) (q : Nat) (f : Flight) : State :=
  let t := s.qTen q
  let d := recOf f.recs 4
  let a := srAgent q f.seq
  let v := srVc s
  let s := match srStoreIdx f with
    | none => srOob s q f 4
    | some idx =>
      if isMX (rType d) then
        let ls : List (Nat × List Nat × Loc) := srStoreReads s q f idx
        let r := readUnits s a q f.seq (unitsOf (ls.map fun (l : Nat × List Nat × Loc) => l.2.2))
        let lanes : List (Nat × Num) := ls.map fun (l : Nat × List Nat × Loc) => (l.1, if l.2.1 = idx then srStoreVal f else elemNum (rType d) (elemAt r.1 l.2.2))
        let p := blockPuts r.2 t v f.words d idx lanes
        storePuts r.2 a t q f.seq v p.1
      else storePuts s a t q f.seq v (plainPuts s t v f.words f.recs d [(idx, srStoreVal f)])
  s.tick1.modFlight q f.seq fun f => { f with complete := true }

/-- The remote lines a scalar descriptor reads (R165). -/
def srNeeds (s : State) (q : Nat) (f : Flight) : List UnitKey :=
  let t := s.qTen q
  let d := recOf f.recs 4
  let rem (ls : List Loc) : List UnitKey := (unitsOf ls).filter fun u => decide (2 ≤ u.space)
  if dOpcode f.words = 0x08 then rem (srLoadLoc s q f).toList
  else match srStoreIdx f with
    | none => []
    | some idx =>
      rem ((srStoreReads s q f idx).map fun l => l.2.2) ++
      (if isMX (rType d) then []
       else keptLines (((plainPuts s t 0 f.words f.recs d [(idx, srStoreVal f)]).filter fun p => p.home.bad.isNone).foldl addPut []))

/-- The oldest scalar descriptor of opcode `op` in flight that has not done its work. -/
def srOpen (s : State) (op q : Nat) : Option Flight :=
  (s.q q).flight.find? fun f => dOpcode f.words == op && !f.complete

/-- Its work, once the remote lines it reads are here; else the READs they need. -/
def srWork (op : Nat) (q : Nat) (run : State → Nat → Flight → State) (s : State) : State :=
  match srOpen s op q with
  | none => s
  | some f =>
    let ks := srNeeds s q f
    if linesHere f ks then run s q f else formReads s q f.seq (tagOf f.words) ks

/-- A scalar descriptor issues and does its work; one that waits for remote lines does it when the command comes again. -/
def issueScalar (op : Nat) (run : State → Nat → Flight → State) (q : Nat) (s : State) : Out :=
  match srOpen s op q with
  | some _ => .next (if s.runs then srWork op q run s else s)
  | none => startIssue op q s fun fr => goOn (srWork op q run (issueIt s q fr id)) q fr

/-- SR_LOAD (R100 to R102, R121, R162). -/
def execSrLoad (q : Fin 64) (s : State) : Out := issueScalar 0x08 srLoadRun q s

/-- SR_STORE (R102, R121, R162). -/
def execSrStore (q : Fin 64) (s : State) : Out := issueScalar 0x09 srStoreRun q s

/-! ### The data opcodes -/

/-- ADD (R103): the descriptor issues and is cut into tiles. -/
def execAdd (q : Fin 64) (s : State) : Out := issueData 0x10 q s

/-- SUB (R103): the descriptor issues and is cut into tiles. -/
def execSub (q : Fin 64) (s : State) : Out := issueData 0x11 q s

/-- MUL (R103): the descriptor issues and is cut into tiles. -/
def execMul (q : Fin 64) (s : State) : Out := issueData 0x12 q s

/-- DIV (R103): the descriptor issues and is cut into tiles. -/
def execDiv (q : Fin 64) (s : State) : Out := issueData 0x13 q s

/-- MAX (R103): the descriptor issues and is cut into tiles. -/
def execMax (q : Fin 64) (s : State) : Out := issueData 0x14 q s

/-- MIN (R103): the descriptor issues and is cut into tiles. -/
def execMin (q : Fin 64) (s : State) : Out := issueData 0x15 q s

/-- FMA (R103): the descriptor issues and is cut into tiles. -/
def execFma (q : Fin 64) (s : State) : Out := issueData 0x16 q s

/-- AND (R103): the descriptor issues and is cut into tiles. -/
def execOpAnd (q : Fin 64) (s : State) : Out := issueData 0x17 q s

/-- OR (R103): the descriptor issues and is cut into tiles. -/
def execOpOr (q : Fin 64) (s : State) : Out := issueData 0x18 q s

/-- XOR (R103): the descriptor issues and is cut into tiles. -/
def execOpXor (q : Fin 64) (s : State) : Out := issueData 0x19 q s

/-- SHL (R103): the descriptor issues and is cut into tiles. -/
def execShl (q : Fin 64) (s : State) : Out := issueData 0x1A q s

/-- SHR (R103): the descriptor issues and is cut into tiles. -/
def execShr (q : Fin 64) (s : State) : Out := issueData 0x1B q s

/-- PADD (R104): the descriptor issues and is cut into tiles. -/
def execPadd (q : Fin 64) (s : State) : Out := issueData 0x1C q s

/-- PMUL (R104): the descriptor issues and is cut into tiles. -/
def execPmul (q : Fin 64) (s : State) : Out := issueData 0x1D q s

/-- SELECT (R106): the descriptor issues and is cut into tiles. -/
def execSelect (q : Fin 64) (s : State) : Out := issueData 0x1E q s

/-- CLAMP (R103): the descriptor issues and is cut into tiles. -/
def execClamp (q : Fin 64) (s : State) : Out := issueData 0x1F q s

/-- ABS (R103): the descriptor issues and is cut into tiles. -/
def execAbs (q : Fin 64) (s : State) : Out := issueData 0x20 q s

/-- NEG (R103): the descriptor issues and is cut into tiles. -/
def execNeg (q : Fin 64) (s : State) : Out := issueData 0x21 q s

/-- NOT (R103): the descriptor issues and is cut into tiles. -/
def execOpNot (q : Fin 64) (s : State) : Out := issueData 0x22 q s

/-- RELU (R103): the descriptor issues and is cut into tiles. -/
def execRelu (q : Fin 64) (s : State) : Out := issueData 0x23 q s

/-- LRELU (R103): the descriptor issues and is cut into tiles. -/
def execLrelu (q : Fin 64) (s : State) : Out := issueData 0x24 q s

/-- FLOOR (R103): the descriptor issues and is cut into tiles. -/
def execFloor (q : Fin 64) (s : State) : Out := issueData 0x25 q s

/-- CEIL (R103): the descriptor issues and is cut into tiles. -/
def execCeil (q : Fin 64) (s : State) : Out := issueData 0x26 q s

/-- RINT (R103): the descriptor issues and is cut into tiles. -/
def execRint (q : Fin 64) (s : State) : Out := issueData 0x27 q s

/-- SIGN (R103): the descriptor issues and is cut into tiles. -/
def execSign (q : Fin 64) (s : State) : Out := issueData 0x28 q s

/-- EXP (R105): the descriptor issues and is cut into tiles. -/
def execExp (q : Fin 64) (s : State) : Out := issueData 0x30 q s

/-- EXP2 (R105): the descriptor issues and is cut into tiles. -/
def execExp2 (q : Fin 64) (s : State) : Out := issueData 0x31 q s

/-- LOG (R105): the descriptor issues and is cut into tiles. -/
def execLog (q : Fin 64) (s : State) : Out := issueData 0x32 q s

/-- LOG2 (R105): the descriptor issues and is cut into tiles. -/
def execLog2 (q : Fin 64) (s : State) : Out := issueData 0x33 q s

/-- RECIP (R105): the descriptor issues and is cut into tiles. -/
def execRecip (q : Fin 64) (s : State) : Out := issueData 0x34 q s

/-- RSQRT (R105): the descriptor issues and is cut into tiles. -/
def execRsqrt (q : Fin 64) (s : State) : Out := issueData 0x35 q s

/-- SQRT (R105): the descriptor issues and is cut into tiles. -/
def execSqrt (q : Fin 64) (s : State) : Out := issueData 0x36 q s

/-- TANH (R105): the descriptor issues and is cut into tiles. -/
def execTanh (q : Fin 64) (s : State) : Out := issueData 0x37 q s

/-- SIGMOID (R105): the descriptor issues and is cut into tiles. -/
def execSigmoid (q : Fin 64) (s : State) : Out := issueData 0x38 q s

/-- GELU (R105): the descriptor issues and is cut into tiles. -/
def execGelu (q : Fin 64) (s : State) : Out := issueData 0x39 q s

/-- SILU (R105): the descriptor issues and is cut into tiles. -/
def execSilu (q : Fin 64) (s : State) : Out := issueData 0x3A q s

/-- ERF (R105): the descriptor issues and is cut into tiles. -/
def execErf (q : Fin 64) (s : State) : Out := issueData 0x3B q s

/-- SIN (R105): the descriptor issues and is cut into tiles. -/
def execSin (q : Fin 64) (s : State) : Out := issueData 0x3C q s

/-- COS (R105): the descriptor issues and is cut into tiles. -/
def execCos (q : Fin 64) (s : State) : Out := issueData 0x3D q s

/-- SOFTPLUS (R105): the descriptor issues and is cut into tiles. -/
def execSoftplus (q : Fin 64) (s : State) : Out := issueData 0x3E q s

/-- CMP (R106): the descriptor issues and is cut into tiles. -/
def execCmp (q : Fin 64) (s : State) : Out := issueData 0x40 q s

/-- RSUM (R109): the descriptor issues and is cut into tiles. -/
def execRsum (q : Fin 64) (s : State) : Out := issueData 0x50 q s

/-- RCSUM (R109): the descriptor issues and is cut into tiles. -/
def execRcsum (q : Fin 64) (s : State) : Out := issueData 0x51 q s

/-- RMAX (R109): the descriptor issues and is cut into tiles. -/
def execRmax (q : Fin 64) (s : State) : Out := issueData 0x52 q s

/-- RMIN (R109): the descriptor issues and is cut into tiles. -/
def execRmin (q : Fin 64) (s : State) : Out := issueData 0x53 q s

/-- RARGMAX (R109): the descriptor issues and is cut into tiles. -/
def execRargmax (q : Fin 64) (s : State) : Out := issueData 0x54 q s

/-- RARGMIN (R109): the descriptor issues and is cut into tiles. -/
def execRargmin (q : Fin 64) (s : State) : Out := issueData 0x55 q s

/-- RLSE (R109): the descriptor issues and is cut into tiles. -/
def execRlse (q : Fin 64) (s : State) : Out := issueData 0x56 q s

/-- RSUMSQ (R109): the descriptor issues and is cut into tiles. -/
def execRsumsq (q : Fin 64) (s : State) : Out := issueData 0x57 q s

/-- RCOUNT (R109): the descriptor issues and is cut into tiles. -/
def execRcount (q : Fin 64) (s : State) : Out := issueData 0x58 q s

/-- SCANSUM (R110): the descriptor issues and is cut into tiles. -/
def execScansum (q : Fin 64) (s : State) : Out := issueData 0x60 q s

/-- SCANMAX (R110): the descriptor issues and is cut into tiles. -/
def execScanmax (q : Fin 64) (s : State) : Out := issueData 0x61 q s

/-- COMPACT (R110): the descriptor issues and is cut into tiles. -/
def execCompact (q : Fin 64) (s : State) : Out := issueData 0x62 q s

/-- TOPK (R111): the descriptor issues and is cut into tiles. -/
def execTopk (q : Fin 64) (s : State) : Out := issueData 0x68 q s

/-- LNORM (R112): the descriptor issues and is cut into tiles. -/
def execLnorm (q : Fin 64) (s : State) : Out := issueData 0x70 q s

/-- RMSNORM (R112): the descriptor issues and is cut into tiles. -/
def execRmsnorm (q : Fin 64) (s : State) : Out := issueData 0x71 q s

/-- SOFTMAX (R112): the descriptor issues and is cut into tiles. -/
def execSoftmax (q : Fin 64) (s : State) : Out := issueData 0x72 q s

/-- GNORM (R113): the descriptor issues and is cut into tiles. -/
def execGnorm (q : Fin 64) (s : State) : Out := issueData 0x73 q s

/-- CONVERT (R116): the descriptor issues and is cut into tiles. -/
def execConvert (q : Fin 64) (s : State) : Out := issueData 0x80 q s

/-- QUANT_MX (R117): the descriptor issues and is cut into tiles. -/
def execQuantMx (q : Fin 64) (s : State) : Out := issueData 0x81 q s

/-- FINISH (R118): the descriptor issues and is cut into tiles. -/
def execFinish (q : Fin 64) (s : State) : Out := issueData 0x82 q s

/-- FILL (R119): the descriptor issues and is cut into tiles. -/
def execFill (q : Fin 64) (s : State) : Out := issueData 0x88 q s

/-- IOTA (R119): the descriptor issues and is cut into tiles. -/
def execIota (q : Fin 64) (s : State) : Out := issueData 0x89 q s

/-- COPY (R116): the descriptor issues and is cut into tiles. -/
def execCopy (q : Fin 64) (s : State) : Out := issueData 0x90 q s

/-- PERMUTE (R119): the descriptor issues and is cut into tiles. -/
def execPermute (q : Fin 64) (s : State) : Out := issueData 0x91 q s

/-- GATHER (R120): the descriptor issues and is cut into tiles. -/
def execGather (q : Fin 64) (s : State) : Out := issueData 0x92 q s

/-- SCATTER (R120): the descriptor issues and is cut into tiles. -/
def execScatter (q : Fin 64) (s : State) : Out := issueData 0x93 q s

/-- EV_EMIT (R122): the descriptor issues and is cut into tiles. -/
def execEvEmit (q : Fin 64) (s : State) : Out := issueData 0xA0 q s

/-- EV_COUNT (R223): the descriptor issues and is cut into tiles. -/
def execEvCount (q : Fin 64) (s : State) : Out := issueData 0xA1 q s

end Sys2Proof.Machine
end

