-- ==== Sys2Proof/Machine/Retire.lean ====
section
/-! DEFINITION. The Clicker (R91, R92), the retire unit (R42, R55, R59, R64, R79, R84, R100, R405) and the knot detector
(R88 to R90). -/

namespace Sys2Proof.Machine

/-! ### Dealing -/

/-- A descriptor's tiles may go to VC `v` (R91, Table 19.7). -/
def eligible (s : State) (q : Nat) (f : Flight) (v : Nat) : Bool :=
  let awl := clsOf f.words == .awl
  (if s.qTimed q then bit (((s.q q).granted).getD 0) v else bit (freeMask s (s.qTen q)) v && s.isOn v) &&
  (!awl || s.isOn (80 + v / 8))

/-- The VCs from the one after `last`, wrapping. -/
def vcsAfter (last : Option Nat) : List Nat :=
  match last with
  | none => List.range 64
  | some l => (List.range 64).map fun i => (l + 1 + i) % 64

/-- The eligible VC the next tile goes to: the first with a free slot (R91). -/
def dealTo (s : State) (q : Nat) (f : Flight) : Option Nat :=
  (vcsAfter f.lastVc).find? fun v => eligible s q f v && decide ((s.vc v).tiles.length < 4)

/-- A descriptor with tiles still to be dealt. -/
def undealt (f : Flight) : Bool := decide (f.dealt < f.tiles)

/-- The descriptor of queue `q` whose tiles are dealt next: no older descriptor of its tenant's guarded queues has
tiles left (R92). -/
def dealNext (s : State) (q : Nat) : Option Flight :=
  match (s.q q).flight.find? undealt with
  | none => none
  | some f =>
    let older (r : Nat) : Bool := r != q && !s.qTimed r && (s.q r).flight.any fun g => undealt g && decide (g.issued < f.issued)
    if !s.qTimed q && (qsOf s (s.qTen q)).any older then none else some f

/-- A descriptor has been cut, and none of its tiles has been dealt in this cc (R91). -/
def mayDeal (s : State) (f : Flight) : Bool := decide (f.issued + 12 ≤ s.now) && (f.dealt == 0 || decide (f.dealtAt < s.now))

/-- The tile queue `q` deals in this cc: its descriptor and the VC it goes to. -/
def dealNow (s : State) (q : Nat) : Option (Flight × Nat) :=
  match dealNext s q with
  | none => none
  | some f => if mayDeal s f then (dealTo s q f).map fun v => (f, v) else none

/-- The tenants whose guarded descriptors wait for a slot in VC `v` (R92). -/
def waitsFor (s : State) (v : Nat) : List Nat :=
  (List.range 32).filter fun t => (qsOf s t).any fun r => !s.qTimed r && (dealNow s r).any fun d => d.2 == v

/-- SHARE of tenant `t`; 0 acts as 1 (R302). -/
def shareOf (s : State) (t : Nat) : Nat := atLeast1 (s.tfB 1 t 0 27 24)

/-- The tenant whose turn it is in VC `v` among those that wait for it (R92): the one served last while tiles of its turn
are left, then the next in ascending number, wrapping. DESIGN CHOICE: a turn is SHARE tiles (log entry 103). -/
def turnOf (s : State) (v : Nat) : Option Nat :=
  let ws := waitsFor s v
  let x := s.vc v
  if x.turnLeft ≠ 0 ∧ ws.contains x.turn then some x.turn
  else ((List.range 32).map fun i => (x.turn + 1 + i) % 32).find? ws.contains

/-- A tile of tenant `t` has been dealt to the VC. -/
def turnTaken (s : State) (t : Nat) (x : VcSt) : VcSt :=
  if x.turnLeft ≠ 0 ∧ x.turn = t then { x with turnLeft := x.turnLeft - 1 } else { x with turn := t, turnLeft := shareOf s t - 1 }

/-- TILE_DEAL (R91, R92, R302): the next tile of queue `q`'s oldest undealt descriptor goes to its VC, 12 cc after its
issue and one in a cc; none while no eligible VC has a free slot, or its tenant has not its turn there. -/
def execTileDeal (q : Fin 64) (s : State) : Out :=
  if !s.runs then .next s
  else match dealNow s q with
    | none => .next s
    | some (f, v) =>
      if !s.qTimed q && decide (turnOf s v ≠ some (s.qTen q)) then .next s
      else
        let take (x : VcSt) : VcSt := if s.qTimed q then x else turnTaken s (s.qTen q) x
        .next ((s.modVc v fun x => { take x with tiles := x.tiles ++ [{ queue := q, seq := f.seq, no := f.dealt }] }).modFlight q f.seq
          fun f => { f with dealt := f.dealt + 1, lastVc := some v, dealtAt := s.now })

/-! ### Retiring -/

/-- The opcodes that deliver a count (R100). -/
def deliversCount (w : List Nat) : Bool := [0x62, 0x81, 0xA0].contains (dOpcode w)

/-- What SR_OUT receives (R100). -/
def srValue (f : Flight) : Option Nat :=
  if deliversCount f.words then some (if f.cntPoison then 2 ^ 64 - 1 else f.count) else f.srOut

/-- The descriptor's work has completed: a SET of a tack completes once it is the oldest; stores and remote requests
have been acknowledged (R64). -/
def flightDone (s : State) (q : Nat) (f : Flight) : Bool :=
  (f.complete || (dOpcode f.words == 4 && decide (bits (f.params.getD 0 0) 3 0 < 2))) &&
  noAcc s (.flight q f.seq) && decide (f.remote = 0)

/-- STATUS of a completion record (Table 03.16). -/
def retireStatus (f : Flight) : Nat := if f.abandoned then 2 else if f.faults ≠ 0 then 1 else 0

/-- The completion record of a descriptor with NOTIFY (R59). -/
def notify (s : State) (q : Nat) (f : Flight) : State :=
  let lg := s.tfB 5 q 0 23 16
  if !dNotify f.words || lg = 0 then s
  else
    let x := s.q q
    let base := s.tf 5 q 1 + s.tfB 5 q 0 31 24 * 2 ^ 32
    let bs := leBytes 4 (retireStatus f * 2 ^ 24 + tagOf f.words) ++ leBytes 4 x.retired ++ leBytes 8 s.epc.count
    let a : Agent := { kind := .fetch q (tagOf f.words) f.chain, cls := 5, unit := 103 }
    let s := (tenWrite { s with once := f.wrote } a (s.qTen q) (base + 16 * x.cringWr) (allBytes bs) false).1
    s.modQ q fun x => { x with cringWr := (x.cringWr + 1) % 2 ^ lg }

/-- What a retiring descriptor delivers: the tack update of a SET, the value to SR_OUT (R42, R64, R79, R84, R85). -/
def deliverOut (s : State) (q : Nat) (f : Flight) : State :=
  let p0 := f.params.getD 0 0
  let s := if dOpcode f.words = 4 ∧ bits p0 3 0 < 2 ∧ f.abandoned = false then
      tackUpdate s q (bits p0 25 16) (bits p0 3 0 == 1) (bits (f.params.getD 1 0) 15 0)
    else s
  match dSrOut f.words, srValue f with
  | some r, some v => srWrite s s.now 17 q r v
  | _, _ => s

/-- The answer a chain's last descriptor brings (R55). -/
def endAnswer (s : State) (q : Nat) (f : Flight) : State :=
  if !f.ends then s
  else match (s.q q).owed.find? fun c => c.id == f.chain with
    | none => s
    | some c =>
      (retireAnswer s q c (if f.abandoned then 0x12 else if c.faults ≠ 0 then 0x11 else 0x10) (tagOf f.words)).modQ q fun x =>
        { x with owed := x.owed.filter fun y => y.id != c.id }

/-- DESCRIPTOR_RETIRE (R42, R55, R59, R64, R84, R100, R405): the oldest descriptor of the queue retires once its work has
completed. -/
def execDescriptorRetire (q : Fin 64) (s : State) : Out :=
  match (s.q q).flight with
  | [] => .next s
  | f :: rest =>
    if !s.runs || !flightDone s q f then .next s
    else
      let gone : Freed := { issued := f.issued, cc := s.now, need := f.need, entries := f.entries }
      let s := s.modQ q fun x => { x with flight := rest, retired := sat32 (x.retired + 1), lastTag := tagOf f.words
                                          freed := gone :: stillFreed s x }
      let s := notify (deliverOut s q f) q f
      let s := if dTrace f.words then traceTen s (tagOf f.words) 2 (s.qTen q) q (retireStatus f) else s
      .next (endAnswer s q f)

/-! ### The knot detector -/

/-- A wait on an internal tack without a timeout (R88). -/
def knotWait (s : State) (w : Waiting) : Bool := w.until_.isNone && !bit (s.tf 6 w.tack 0) 31

/-- A program held at such a wait (R88, R198). -/
def cblHeld (s : State) (k : Nat) : Bool :=
  (s.cbl k).running && (match (s.cbl k).twait with | some w => knotWait s w | none => false)

/-- The in-flight descriptors whose entries block these (R67). -/
def blockers (s : State) (t : Nat) (new : List (Bool × Span)) : List (Nat × Flight) :=
  let mask := freeMask s t
  (qsOf s t).flatMap fun r => if s.qTimed r then [] else
    ((s.q r).flight.filter fun f =>
      new.any fun e => f.entries.any fun h => (e.1 || h.1) && spansMeet mask e.2 h.2).map fun f => (r, f)

/-- The tag of what a queue is held at, if it is held (R88, R90). DESIGN CHOICE: a queue that also lacks free scoreboard
entries is blocked by more than the entries of held programs, and is not held (log entry 104). -/
def heldAt (s : State) (q : Nat) : Option Nat :=
  match waitingAt s q with
  | some (f, w) => if knotWait s w then some (tagOf f.words) else none
  | none =>
    match (s.q q).fetch with
    | f :: _ =>
      match f.phase, f.words with
      | .ready, some w =>
        let e := sbEntries q (s.q q) w (resolveP (s.q q) w)
        let bs := blockers s (s.qTen q) e.1
        let stands (b : Nat × Flight) : Bool := dOpcode b.2.words == 6 &&
          (List.range 16).all fun k => !((s.cbl k).running && (s.cbl k).queue == b.1 && (s.cbl k).seq == b.2.seq) || cblHeld s k
        if !s.qTimed q && !bs.isEmpty && bs.all stands && decide (heldCount s (s.qTen q) s.now + e.2 ≤ 512) then some (tagOf w) else none
      | _, _ => none
    | [] => none

/-- The tenant has something in flight (R89). -/
def inFlight (s : State) (t : Nat) : Bool :=
  let mine (q : Nat) : Bool := s.qTen q == t
  let busy (f : Flight) : Bool := undealt f || decide (f.remote ≠ 0) || (clsOf f.words != .control && !f.complete)
  (qsOf s t).any (fun q => (s.q q).flight.any busy || (s.q q).fetch.any fun f => match f.phase with
    | .asked => true
    | .loading _ => true
    | _ => false) ||
  s.vcs.any (fun e => e.2.tiles.any fun x => mine x.queue) ||
  s.awls.any (fun e => e.2.jobs.any fun j => mine j.queue) ||
  s.mem.acc.any (fun a => match a.who with
    | .flight q _ => mine q
    | .queue q => mine q
    | .cobbler k _ => (s.cbl k).tenant == t
    | _ => false) ||
  (List.range 16).any fun k => (s.cbl k).tenant == t && (((s.cbl k).running && !cblHeld s k) || !(s.cbl k).ops.isEmpty)

/-- The queue has pending work (R88): an unfinished chain, the one whose last WAIT it stands at among them, or a head. -/
def hasWork (s : State) (q : Nat) : Bool := qPending (s.q q) || (waitingAt s q).isSome

/-- The knot condition (R89). -/
def knotHolds (s : State) (t : Nat) : Bool :=
  let qs := (qsOf s t).filter (hasWork s)
  !qs.isEmpty && qs.all (fun q => (heldAt s q).isSome) && !inFlight s t

/-- A declared knot: its records, TEN_KNOT, abandonment (R90). -/
def declareKnot (s : State) (t : Nat) : State :=
  let held := (qsOf s t).filterMap fun q => if hasWork s q then (heldAt s q).map fun tag => (q, tag) else none
  let cbls := (List.range 16).filter fun k => cblHeld s k && (s.cbl k).tenant == t
  let s := held.foldl (fun s x =>
    let s := recordFault s { tag := x.2, code := 0x51, unit := 103, tenant := t, tv := true, queue := x.1, qv := true, level := 3 }
    match (waitingAt s x.1).map (·.1.chain), (s.q x.1).chain with
    | some i, _ => chainFault s x.1 i
    | none, some c => chainFault s x.1 c.id
    | none, none => s) s
  let s := cbls.foldl (fun s k => cblRecord s k 0x51 3 1) s
  abandonTenant (s.setBit 0x0704 t) t

/-- One tenant's sample (R89, R90). -/
def sampleKnot (s : State) (t : Nat) : State :=
  if !s.tenRun t || (s.ten t).abandoned then s
  else if !knotHolds s t then s.modTen t fun x => { x with knotOnce := false }
  else if (s.ten t).knotOnce then declareKnot s t
  else s.modTen t fun x => { x with knotOnce := true }

/-- KNOT_SAMPLE (R88 to R90): once in every cc that is a positive multiple of 256 cc since the open, in OPEN and DRAIN; a
deadline that passes in the same cc is handled first. -/
def execKnotSample (s : State) : Out :=
  let since := s.now - s.epc.openAt
  let late := !s.epc.deadlineHit && decide (s.epc.openAt + s.epc.deadline ≤ s.now)
  if !s.runs || !(decide (s.epc.state = .opened) || decide (s.epc.state = .drain)) || since % 256 != 0 || since == 0 || late ||
      s.cc.knot then .next s
  else .next ((List.range 32).foldl sampleKnot (s.setCc { s.cc with knot := true }))

end Sys2Proof.Machine
end

