-- ==== Sys2Proof/Machine/Cobbler.lean ====
section
/-! DEFINITION. The Cobbler cores (chapter 09): fields and legality of an instruction word (R187, R188), its issue
(R191, R192, R196), local, CBUF and HBM addresses (R193 to R195), and every instruction of Table 09.3. -/

namespace Sys2Proof.Machine

/-! ### Fields -/

def cOp (w : Nat) : Nat := bits w 31 26
def cRd (w : Nat) : Nat := bits w 25 22
def cRs1 (w : Nat) : Nat := bits w 21 18
def cRs2 (w : Nat) : Nat := bits w 17 14
def cFn (w : Nat) : Nat := bits w 13 0
/-- The 18-bit immediate of formats I, S and B, sign-extended, and of the logical operations, zero-extended. -/
def cImm (w : Nat) : Int := toSigned 18 (bits w 17 0)
def cImmU (w : Nat) : Nat := bits w 17 0
/-- The 22-bit immediate of format U. -/
def cImm22 (w : Nat) : Int := toSigned 22 (bits w 21 0)

/-- Which of RD, RS1, RS2 and which bits of FN a format R instruction uses (Table 09.3); none for another format. -/
def rUses (op : Nat) : Option (Bool × Bool × Bool × Nat) :=
  match op with
  | 0x2A => some (true, true, false, 0x3FFF) | 0x2B => some (true, true, false, 0x3FFF)
  | 0x2C => some (true, true, true, 0) | 0x2D => some (true, true, true, 0)
  | 0x2E => some (true, true, true, 0x3FFF) | 0x2F => some (true, true, true, 0x3FFF)
  | 0x30 => some (false, false, false, 0) | 0x3E => some (false, false, false, 0)
  | 0x39 => some (false, true, true, 1) | 0x3A => some (true, true, true, 0x3FFF)
  | 0x3B => some (true, true, false, 0xF) | 0x3C => some (true, true, true, 7)
  | 0x3D => some (true, true, true, 0x3F)
  | _ => if 1 ≤ op ∧ op ≤ 0x12 then some (true, true, true, 0) else none

/-- OP is one of Table 09.3 (R188). -/
def cDefined (op : Nat) : Bool :=
  !(op == 0 || op == 0x13 || (decide (0x1D ≤ op) && decide (op ≤ 0x1F)) || op == 0x3F)

/-- A shift by an immediate. -/
def cShiftImm (op : Nat) : Bool := decide (0x18 ≤ op) && decide (op ≤ 0x1A)

/-- A legal word: OP defined, unused fields and reserved FN bits 0 (R187, R188). -/
def cLegal (w : Nat) : Bool :=
  cDefined (cOp w) &&
  (match rUses (cOp w) with
   | some (d, a, b, m) => (d || cRd w == 0) && (a || cRs1 w == 0) && (b || cRs2 w == 0) && cFn w - (cFn w &&& m) == 0
   | none => !cShiftImm (cOp w) || bits w 17 5 == 0)

/-- The registers an instruction reads or writes (R191). -/
def cTouches (w : Nat) : List Nat :=
  match rUses (cOp w) with
  | some (d, a, b, _) => (if d then [cRd w] else []) ++ (if a then [cRs1 w] else []) ++ (if b then [cRs2 w] else [])
  | none => if cOp w = 0x1C ∨ cOp w = 0x37 then [cRd w] else [cRd w, cRs1 w]

/-! ### Registers and the PC -/

/-- The value of a register; c0 reads 0 (R186). -/
def cReg (s : State) (k i : Nat) : Nat := if i = 0 then 0 else (s.cbl k).regs.getD i 0

/-- A register written, modulo 2^32; writes to c0 are discarded (R186, R189). -/
def cSet (s : State) (k i v : Nat) : State :=
  if i = 0 then s else s.modCbl k fun c => { c with regs := c.regs.set i (v % 2 ^ 32) }

/-- A register may be read or written again from cc `at_` on (R191). -/
def cBusy (s : State) (k i at_ : Nat) : State := s.modCbl k fun c => { c with regAt := mset zeroNat c.regAt i at_ }

/-- The PC takes a value, and the instruction there may issue `wait` cc from now (R192): beyond the image the program
halts; a line neither held nor asked for is asked for in the next cc, to fill the slot that does not hold the line the PC
leaves. -/
def cGo (s : State) (k pc wait : Nat) : State :=
  let c := s.cbl k
  let s := s.setCbl k { c with pc := pc, issueAt := s.now + wait }
  if 128 * c.len ≤ pc then cblFault s k 0x33 pc
  else if c.lines.any fun l => l.no == pc / 128 then s
  else s.modCbl k fun y => { y with lines := y.lines ++ [{ no := pc / 128, src := c.pc / 128, at_ := s.now + 1 }] }

/-- The next instruction in order, `wait` cc from now. -/
def cNextIn (s : State) (k wait : Nat) : State := cGo s k (((s.cbl k).pc + 4) % 2 ^ 32) wait

/-- The next instruction in order, in the following cc. -/
def cNext (s : State) (k : Nat) : State := cNextIn s k 1

/-- A taken branch or jump (R190, R192). -/
def cJump (s : State) (k target : Nat) : State :=
  if target % 4 ≠ 0 then cblFault s k 0x31 target else cGo s k target 2

/-! ### Issue -/

/-- The word at the PC of a program that may issue: its line is held (R191, R192). -/
def cWord (s : State) (k : Nat) : Option Nat :=
  let c := s.cbl k
  if !s.runs || !c.running || c.twait.isSome then none
  else match c.lines.find? fun l => l.no == c.pc / 128 with
    | none => none
    | some l => match l.bytes with
      | none => none
      | some bs =>
        if l.err = .clean ∨ l.err = .ce then some (leNat ((bs.drop (c.pc % 128)).take 4)) else none

/-- The fetch buffer's words at the PC are read (R238, R246): a correctable error in them is corrected, an uncorrectable one
discards the line, which is asked for again; each is counted. -/
def cTouch (s : State) (k : Nat) : State :=
  let c := s.cbl k
  if !s.runs || !c.running || c.twait.isSome then s
  else match c.lines.find? fun l => l.no == c.pc / 128 && l.bytes.isSome with
    | none => s
    | some l =>
      match l.err with
      | .clean => s
      | .ce => (s.bump 0x04B8 1).modCbl k fun c =>
          { c with lines := c.lines.map fun y => if y = l then { y with err := .clean } else y }
      | _ =>
        let other := ((c.lines.find? fun y => y.no != l.no && y.bytes.isSome).map (·.no)).getD l.no
        (s.bump 0x04B8 1).modCbl k fun c =>
          { c with lines := (c.lines.filter fun y => y != l) ++ [{ no := l.no, src := other, at_ := s.now }] }

/-- The outstanding operations of the running program. -/
def cOut (s : State) (k : Nat) : List CblOp := (s.cbl k).ops.filter fun o => !o.dead

/-- The local bytes an instruction touches at issue: start and length (R196). -/
def cLocal (s : State) (k w : Nat) : Option (Nat × Nat) :=
  let op := cOp w
  let size : Option Nat := match op with
    | 0x20 => some 1 | 0x21 => some 1 | 0x25 => some 1 | 0x22 => some 2 | 0x23 => some 2 | 0x26 => some 2
    | 0x24 => some 4 | 0x27 => some 4 | _ => none
  match size with
  | some n => some (ofSigned 32 (cReg s k (cRs1 w) + cImm w), n)
  | none => if op = 0x2A ∨ op = 0x2B ∨ op = 0x2F then some (cReg s k (cRd w), 16 * (cFn w + 1)) else none

/-- DIV, DIVU, REM and REMU take the divider for 34 cc (R191). -/
def cDivides (op : Nat) : Bool := decide (0x0F ≤ op) && decide (op ≤ 0x12)

/-- Lat of an instruction that writes RD in a fixed count of cc (Table 09.3), LWC and TWAIT apart. -/
def cLat (op : Nat) : Option Nat :=
  if cDivides op then some 34
  else if op = 0x0D ∨ op = 0x0E then some 3
  else if op ≤ 0x1C ∨ op = 0x37 ∨ op = 0x38 then some 1
  else if op ≤ 0x24 then some 2
  else if op = 0x3B then some 3
  else if op = 0x3D then some 4
  else none

/-- The cc in which the instruction may issue has come (R191, R192). -/
def cDue (s : State) (k w : Nat) : Bool :=
  let c := s.cbl k
  decide (c.issueAt ≤ s.now) && ((cTouches w).all fun r => decide (mget zeroNat c.regAt r ≤ s.now)) &&
  (!cDivides (cOp w) || decide (c.divAt ≤ s.now))

/-- Nothing holds the instruction back (R191, R196, R197, R202). -/
def cClear (s : State) (k w : Nat) : Bool :=
  let out := cOut s k
  let op := cOp w
  cDue s k w && (out.all fun o => o.kind != 0 || !(cTouches w).contains o.dest) &&
  (match cLocal s k w with
   | none => true
   | some (a, n) => out.all fun o => o.kind != 2 || !(decide (a < o.dest + 16 * o.n) && decide (o.dest < a + n))) &&
  (!(decide (0x2C ≤ op) && decide (op ≤ 0x2F)) || decide (out.length < 16)) &&
  (!(op == 0x30 || op == 0x3E) || out.isEmpty)

/-- An instruction issues: the program has started (R201), the next line is asked for (R192), RD and the divider are busy
for its Lat (R191). -/
def cIssue (s : State) (k w : Nat) : State :=
  let c := s.cbl k
  let nx := c.pc / 128 + 1
  let s := if c.started then s
    else
      let s := s.modCbl k fun c => { c with started := true }
      if waitDone s c.queue c.seq then s else cblCount s c.queue c.seq
  let s := match cLat (cOp w) with
    | some n => cBusy s k (cRd w) (s.now + n)
    | none => s
  let s := if cDivides (cOp w) then s.modCbl k fun c => { c with divAt := s.now + 34 } else s
  if nx < c.len ∧ !(c.lines.any fun l => l.no == nx) then
    s.modCbl k fun c => { c with lines := c.lines ++ [{ no := nx, src := c.pc / 128, at_ := s.now }] }
  else s

/-- The instruction of opcode `op` at the PC of Cobbler `k` issues and has its effect `body`; a commanded FENCE halts the
program first (R202, Table 19.7). -/
def cStep (op k : Nat) (s : State) (body : State → Nat → State) : Out :=
  match cWord s k with
  | none => .next (cTouch s k)
  | some w =>
    if cOp w ≠ op ∨ cLegal w = false then .next s
    else if s.eff (64 + k) ≤ 1 then .next (cblFault s k 0x37 0)
    else if !cClear s k w then .next s
    else .next (body (cIssue (cTouch s k) k w) w)

/-! ### Arithmetic, branches, jumps -/

/-- A format R operation. -/
def cAluR (op k : Nat) (s : State) (f : Nat → Nat → Nat) : Out :=
  cStep op k s fun s w => cNext (cSet s k (cRd w) (f (cReg s k (cRs1 w)) (cReg s k (cRs2 w)))) k

/-- A format I operation on the register and the word's immediate. -/
def cAluI (op k : Nat) (s : State) (f : Nat → Nat → Nat) : Out :=
  cStep op k s fun s w => cNext (cSet s k (cRd w) (f (cReg s k (cRs1 w)) w)) k

/-- A format B branch. -/
def cBranch (op k : Nat) (s : State) (f : Nat → Nat → Bool) : Out :=
  cStep op k s fun s w =>
    if f (cReg s k (cRd w)) (cReg s k (cRs1 w)) then cJump s k (ofSigned 32 ((s.cbl k).pc + 4 * cImm w)) else cNext s k

/-- Two's complement value of a register. -/
def sx (n : Nat) : Int := toSigned 32 n

/-- The value shifted right arithmetically. -/
def sraW (x n : Nat) : Nat := ofSigned 32 (Int.fdiv (sx x) (2 ^ (n % 32) : Nat))

/-- DIV, DIVU, REM, REMU (R190). -/
def divS (x y : Nat) : Nat := if y = 0 then 0xFFFFFFFF else ofSigned 32 (Int.tdiv (sx x) (sx y))
def divU (x y : Nat) : Nat := if y = 0 then 0xFFFFFFFF else x / y
def remS (x y : Nat) : Nat := if y = 0 then x else ofSigned 32 (Int.tmod (sx x) (sx y))
def remU (x y : Nat) : Nat := if y = 0 then x else x % y

/-- CBL_ADD (R189). -/
def execCblAdd (k : Fin 16) (s : State) : Out := cAluR 0x01 k s fun x y => x + y

/-- CBL_SUB (R189). -/
def execCblSub (k : Fin 16) (s : State) : Out := cAluR 0x02 k s fun x y => ofSigned 32 ((x : Int) - y)

/-- CBL_AND (R189). -/
def execCblAnd (k : Fin 16) (s : State) : Out := cAluR 0x03 k s fun x y => x &&& y

/-- CBL_OR (R189). -/
def execCblOr (k : Fin 16) (s : State) : Out := cAluR 0x04 k s fun x y => x ||| y

/-- CBL_XOR (R189). -/
def execCblXor (k : Fin 16) (s : State) : Out := cAluR 0x05 k s fun x y => x ^^^ y

/-- CBL_SLL (R189). -/
def execCblSll (k : Fin 16) (s : State) : Out := cAluR 0x06 k s fun x y => x <<< (y % 32)

/-- CBL_SRL (R189). -/
def execCblSrl (k : Fin 16) (s : State) : Out := cAluR 0x07 k s fun x y => x >>> (y % 32)

/-- CBL_SRA (R189). -/
def execCblSra (k : Fin 16) (s : State) : Out := cAluR 0x08 k s fun x y => sraW x y

/-- CBL_SLT (R189). -/
def execCblSlt (k : Fin 16) (s : State) : Out := cAluR 0x09 k s fun x y => if sx x < sx y then 1 else 0

/-- CBL_SLTU (R189). -/
def execCblSltu (k : Fin 16) (s : State) : Out := cAluR 0x0A k s fun x y => if x < y then 1 else 0

/-- CBL_MIN (R189): signed. -/
def execCblMin (k : Fin 16) (s : State) : Out := cAluR 0x0B k s fun x y => if sx x < sx y then x else y

/-- CBL_MAX (R189): signed. -/
def execCblMax (k : Fin 16) (s : State) : Out := cAluR 0x0C k s fun x y => if sx x < sx y then y else x

/-- CBL_MUL (R189): the low 32 bits. -/
def execCblMul (k : Fin 16) (s : State) : Out := cAluR 0x0D k s fun x y => x * y

/-- CBL_MULH (R189): the high 32 bits, signed. -/
def execCblMulh (k : Fin 16) (s : State) : Out := cAluR 0x0E k s fun x y => ofSigned 32 (Int.fdiv (sx x * sx y) (2 ^ 32 : Nat))

/-- CBL_DIV (R189, R190). -/
def execCblDiv (k : Fin 16) (s : State) : Out := cAluR 0x0F k s fun x y => divS x y

/-- CBL_DIVU (R189, R190). -/
def execCblDivu (k : Fin 16) (s : State) : Out := cAluR 0x10 k s fun x y => divU x y

/-- CBL_REM (R189, R190). -/
def execCblRem (k : Fin 16) (s : State) : Out := cAluR 0x11 k s fun x y => remS x y

/-- CBL_REMU (R189, R190). -/
def execCblRemu (k : Fin 16) (s : State) : Out := cAluR 0x12 k s fun x y => remU x y

/-- CBL_ADDI (R189). -/
def execCblAddi (k : Fin 16) (s : State) : Out := cAluI 0x14 k s fun x w => ofSigned 32 (x + cImm w)

/-- CBL_ANDI (R189). -/
def execCblAndi (k : Fin 16) (s : State) : Out := cAluI 0x15 k s fun x w => x &&& cImmU w

/-- CBL_ORI (R189). -/
def execCblOri (k : Fin 16) (s : State) : Out := cAluI 0x16 k s fun x w => x ||| cImmU w

/-- CBL_XORI (R189). -/
def execCblXori (k : Fin 16) (s : State) : Out := cAluI 0x17 k s fun x w => x ^^^ cImmU w

/-- CBL_SLLI (R189). -/
def execCblSlli (k : Fin 16) (s : State) : Out := cAluI 0x18 k s fun x w => x <<< bits w 4 0

/-- CBL_SRLI (R189). -/
def execCblSrli (k : Fin 16) (s : State) : Out := cAluI 0x19 k s fun x w => x >>> bits w 4 0

/-- CBL_SRAI (R189). -/
def execCblSrai (k : Fin 16) (s : State) : Out := cAluI 0x1A k s fun x w => sraW x (bits w 4 0)

/-- CBL_SLTI (R189). -/
def execCblSlti (k : Fin 16) (s : State) : Out := cAluI 0x1B k s fun x w => if sx x < cImm w then 1 else 0

/-- CBL_LUI (R189). -/
def execCblLui (k : Fin 16) (s : State) : Out :=
  cStep 0x1C k s fun s w => cNext (cSet s k (cRd w) (ofSigned 32 (cImm22 w * 1024))) k

/-- CBL_BEQ (R189, R190). -/
def execCblBeq (k : Fin 16) (s : State) : Out := cBranch 0x31 k s fun x y => x == y

/-- CBL_BNE (R189, R190). -/
def execCblBne (k : Fin 16) (s : State) : Out := cBranch 0x32 k s fun x y => x != y

/-- CBL_BLT (R189, R190). -/
def execCblBlt (k : Fin 16) (s : State) : Out := cBranch 0x33 k s fun x y => decide (sx x < sx y)

/-- CBL_BGE (R189, R190). -/
def execCblBge (k : Fin 16) (s : State) : Out := cBranch 0x34 k s fun x y => decide (sx y ≤ sx x)

/-- CBL_BLTU (R189, R190). -/
def execCblBltu (k : Fin 16) (s : State) : Out := cBranch 0x35 k s fun x y => decide (x < y)

/-- CBL_BGEU (R189, R190). -/
def execCblBgeu (k : Fin 16) (s : State) : Out := cBranch 0x36 k s fun x y => decide (y ≤ x)

/-- CBL_JAL (R189, R190). -/
def execCblJal (k : Fin 16) (s : State) : Out :=
  cStep 0x37 k s fun s w =>
    let pc := (s.cbl k).pc
    cJump (cSet s k (cRd w) (pc + 4)) k (ofSigned 32 (pc + 4 * cImm22 w))

/-- CBL_JALR (R189, R190): the target is of RS1's old value. -/
def execCblJalr (k : Fin 16) (s : State) : Out :=
  cStep 0x38 k s fun s w =>
    let target := ofSigned 32 (cReg s k (cRs1 w) + cImm w)
    cJump (cSet s k (cRd w) ((s.cbl k).pc + 4)) k target

/-! ### Local memory -/

/-- Cobbler `k` as a requester, for its operation `n`. -/
def cAgent (k n : Nat) : Agent := { kind := .cob k n, cls := 4, unit := 64 + k }

/-- The fault of a local address (R193): beyond the memory, then misaligned. -/
def localBad (a align : Nat) : Option Nat :=
  if 0x10000 ≤ a then some 0x32 else if a % align ≠ 0 then some 0x31 else none

/-- The fault of the local range of a copy of `n` bytes (R193): any of it beyond the memory, then misaligned. -/
def copyBad (a n : Nat) : Option Nat := if 0x10000 < a + n then some 0x32 else localBad a 16

/-- A program whose access has written a record of its own halts with it (R202, R397). -/
def cHalted (before : State) (s : State) (k : Nat) : State :=
  if (s.cbl k).wrote != (before.cbl k).wrote then cblEnd s k else s

/-- The program goes on to its next instruction, `wait` cc from now, unless it has halted. -/
def cThenIn (before : State) (s : State) (k wait : Nat) : State :=
  let s := cHalted before s k
  if (s.cbl k).running then cNextIn s k wait else s

/-- The program goes on to its next instruction unless it has halted. -/
def cThen (before : State) (s : State) (k : Nat) : State := cThenIn before s k 1

/-- A load of `n` local bytes, sign-extended under `sgn` (R189, R193). -/
def cLoad (op n : Nat) (sgn : Bool) (k : Nat) (s : State) : Out :=
  cStep op k s fun s w =>
    let a := ofSigned 32 (cReg s k (cRs1 w) + cImm w)
    match localBad a n with
    | some c => cblFault s k c a
    | none =>
      let r := readSram s (cAgent k 0) (localAddr k a) n
      if r.2.1 then cblFault r.2.2 k 0x34 a
      else
        let v := leNat r.1
        cNext (cSet r.2.2 k (cRd w) (if sgn then ofSigned 32 (toSigned (8 * n) v) else v)) k

/-- A store of `n` local bytes (R189, R193). -/
def cStore (op n : Nat) (k : Nat) (s : State) : Out :=
  cStep op k s fun s w =>
    let a := ofSigned 32 (cReg s k (cRs1 w) + cImm w)
    match localBad a n with
    | some c => cblFault s k c a
    | none => cThen s (writeSram s (cAgent k 0) (localAddr k a) (allBytes (leBytes n (cReg s k (cRd w)))) false) k

/-- CBL_LB (R189, R193). -/
def execCblLb (k : Fin 16) (s : State) : Out := cLoad 0x20 1 true k s
/-- CBL_LBU (R189, R193). -/
def execCblLbu (k : Fin 16) (s : State) : Out := cLoad 0x21 1 false k s
/-- CBL_LH (R189, R193). -/
def execCblLh (k : Fin 16) (s : State) : Out := cLoad 0x22 2 true k s
/-- CBL_LHU (R189, R193). -/
def execCblLhu (k : Fin 16) (s : State) : Out := cLoad 0x23 2 false k s
/-- CBL_LW (R189, R193). -/
def execCblLw (k : Fin 16) (s : State) : Out := cLoad 0x24 4 false k s
/-- CBL_SB (R189, R193). -/
def execCblSb (k : Fin 16) (s : State) : Out := cStore 0x25 1 k s
/-- CBL_SH (R189, R193). -/
def execCblSh (k : Fin 16) (s : State) : Out := cStore 0x26 2 k s
/-- CBL_SW (R189, R193). -/
def execCblSw (k : Fin 16) (s : State) : Out := cStore 0x27 4 k s

/-! ### CBUF -/

/-- Member `m` of Cobbler `k`'s quad (§09.1). -/
def memberVc (k m : Nat) : Nat := 16 * (k / 4) + 2 * (k % 4) + [0, 1, 8, 9].getD m 0

/-- VC `v` is in the granted mask of a timed queue of a tenant other than `t` (R71, R194). -/
def grantedElse (s : State) (t v : Nat) : Bool :=
  s.queues.any fun e => s.qOn e.1 && s.qTimed e.1 && s.qTen e.1 != t && bit (e.2.granted.getD 0) v

/-- Hops from a Cobbler to a member of its quad (R123, R194). -/
def memberHops (m : Nat) : Nat := [0, 1, 1, 2].getD m 0

/-- A CBUF address (R194), with the `n` bytes of a copy (0 for LWC and SWC): its place, or the fault. -/
def cbufPlace (s : State) (k a n align : Nat) : Except Nat Nat :=
  let t := (s.cbl k).tenant
  let v := memberVc k (bits a 22 21)
  let o := bits a 20 0
  if a / 2 ^ 23 ≠ 0 ∨ bit (s.cmask t) v = false ∨ grantedElse s t v = true ∨ 2 ^ 21 < o + n then .error 0x32
  else if o % align ≠ 0 then .error 0x31
  else .ok (cbufAddr v o)

/-- CBL_LWC (R189, R194). -/
def execCblLwc (k : Fin 16) (s : State) : Out :=
  cStep 0x28 k s fun s w =>
    let a := ofSigned 32 (cReg s k (cRs1 w) + cImm w)
    match cbufPlace s k a 0 4 with
    | .error c => cblFault s k c a
    | .ok p =>
      let r := readSram s (cAgent k 0) p 4
      if r.2.1 then cblFault r.2.2 k 0x34 a
      else cNext (cBusy (cSet r.2.2 k (cRd w) (leNat r.1)) k (cRd w) (s.now + 4 + 4 * memberHops (bits a 22 21))) k

/-- CBL_SWC (R189, R194). -/
def execCblSwc (k : Fin 16) (s : State) : Out :=
  cStep 0x29 k s fun s w =>
    let a := ofSigned 32 (cReg s k (cRs1 w) + cImm w)
    match cbufPlace s k a 0 4 with
    | .error c => cblFault s k c a
    | .ok p => cThen s (writeSram s (cAgent k 0) p (allBytes (leBytes 4 (cReg s k (cRd w)))) false) k

/-- 16-byte words copied from `src` to `dst`, up to the first poisoned one: its number, if there is one (R194). -/
def copyWords (s : State) (k src dst n : Nat) : Option Nat × State :=
  (List.range n).foldl (fun (acc : Option Nat × State) i =>
    match acc.1 with
    | some j => (some j, acc.2)
    | none =>
      let r := readSram acc.2 (cAgent k 0) (src + 16 * i) 16
      if r.2.1 then (some i, r.2.2) else (none, writeSram r.2.2 (cAgent k 0) (dst + 16 * i) (allBytes r.1) false)) (none, s)

/-- CGET and CPUT: FN + 1 words between CBUF and local memory (R189, R193, R194); nothing further issues until the copy's
last access. -/
def cCopy (op : Nat) (get : Bool) (k : Nat) (s : State) : Out :=
  cStep op k s fun s w =>
    let n := cFn w + 1
    let a := cReg s k (cRs1 w)
    let l := cReg s k (cRd w)
    match cbufPlace s k a (16 * n) 16 with
    | .error c => cblFault s k c a
    | .ok p => match copyBad l (16 * n) with
      | some c => cblFault s k c l
      | none =>
        let r := if get then copyWords s k p (localAddr k l) n else copyWords s k (localAddr k l) p n
        match r.1 with
        | some i => cblFault r.2 k 0x34 ((if get then a else l) + 16 * i)
        | none =>
          let d := memberHops (bits a 22 21)
          cThenIn s r.2 k (if get then 3 + 4 * d + n else 1 + 2 * d + n)

/-- CBL_CGET (R194). -/
def execCblCget (k : Fin 16) (s : State) : Out := cCopy 0x2A true k s
/-- CBL_CPUT (R194). -/
def execCblCput (k : Fin 16) (s : State) : Out := cCopy 0x2B false k s

/-! ### HBM -/

/-- A tenant address of `n` bytes in one window of the holder (R189, R195), or the fault. -/
def hbmPlace (s : State) (k x y n align : Nat) : Except Nat Nat :=
  let a := y % 256 * 2 ^ 32 + x
  if y / 256 ≠ 0 ∨ (xlate s (s.cbl k).tenant a n).isNone then .error 0x32
  else if a % align ≠ 0 then .error 0x31
  else .ok a

/-- An operation becomes outstanding (R196). -/
def cAddOp (s : State) (k : Nat) (o : CblOp) : State :=
  s.modCbl k fun c => { c with ops := c.ops ++ [{ o with id := c.nextOp, pc := c.pc }], nextOp := c.nextOp + 1 }

/-- The bytes of a tenant address range read line by line, with the first poisoned 16-byte word (R196, R239). -/
def readHbmParts (s : State) (k id t a n : Nat) : List Byte × Option Nat × State :=
  (cut 64 a (List.replicate n none)).foldl (fun (acc : List Byte × Option Nat × State) c =>
    let lo := Nat.max a (64 * c.1)
    let hi := Nat.min (a + n) (64 * c.1 + 64)
    match tenRead acc.2.2 (cAgent k id) t lo (hi - lo) with
    | none => (acc.1 ++ List.replicate (hi - lo) 0, acc.2.1, acc.2.2)
    | some r => (acc.1 ++ r.1, (if acc.2.1.isNone && r.2.1 then some ((lo - a) / 16) else acc.2.1), r.2.2)) ([], none, s)

/-- LWH and HGET issue: the data is what HBM holds now; it reaches RD or local memory when the operation completes. -/
def cRead (op : Nat) (wide : Bool) (k : Nat) (s : State) : Out :=
  cStep op k s fun s w =>
    let n := if wide then 16 * (cFn w + 1) else 4
    let l := cReg s k (cRd w)
    match hbmPlace s k (cReg s k (cRs1 w)) (cReg s k (cRs2 w)) n (if wide then 16 else 4) with
    | .error c => cblFault s k c (cReg s k (cRs1 w))
    | .ok a =>
      match (if wide then copyBad l n else none) with
      | some c => cblFault s k c l
      | none =>
        let r := readHbmParts s k (s.cbl k).nextOp (s.cbl k).tenant a n
        cNext (cAddOp r.2.2 k { kind := if wide then 2 else 0, addr := a, n := if wide then cFn w + 1 else 4
                                dest := if wide then l else cRd w, data := r.1, bad := r.2.1 }) k

/-- SWH and HPUT issue: their data is taken now and written (R196, R304). -/
def cWrite (op : Nat) (wide : Bool) (k : Nat) (s : State) : Out :=
  cStep op k s fun s w =>
    let n := if wide then 16 * (cFn w + 1) else 4
    let l := cReg s k (cRd w)
    match hbmPlace s k (cReg s k (cRs1 w)) (cReg s k (cRs2 w)) n (if wide then 16 else 4) with
    | .error c => cblFault s k c (cReg s k (cRs1 w))
    | .ok a =>
      match (if wide then copyBad l n else none) with
      | some c => cblFault s k c l
      | none =>
        let id := (s.cbl k).nextOp
        let d : List Byte × Bool × State :=
          if wide then readSram s (cAgent k 0) (localAddr k l) n else (leBytes 4 (cReg s k (cRd w)), false, s)
        if d.2.1 then cblFault d.2.2 k 0x34 l
        else
          let s1 := cAddOp d.2.2 k { kind := if wide then 3 else 1, addr := a, n := n }
          cThenIn s (tenWrite s1 (cAgent k id) (s.cbl k).tenant a (allBytes d.1) false).1 k (if wide then cFn w + 1 else 1)

/-- CBL_LWH (R189, R195, R196). -/
def execCblLwh (k : Fin 16) (s : State) : Out := cRead 0x2C false k s
/-- CBL_SWH (R189, R195, R196). -/
def execCblSwh (k : Fin 16) (s : State) : Out := cWrite 0x2D false k s
/-- CBL_HGET (R189, R193, R195, R196). -/
def execCblHget (k : Fin 16) (s : State) : Out := cRead 0x2E true k s
/-- CBL_HPUT (R189, R193, R195, R196). -/
def execCblHput (k : Fin 16) (s : State) : Out := cWrite 0x2F true k s

/-- An operation completes with its data (R196): RD, or local memory up to the first poisoned word, which halts the
program. -/
def cComplete (s : State) (k : Nat) (o : CblOp) : State :=
  let s0 := s.modCbl k fun c => { c with ops := c.ops.erase o }
  if o.dead || o.kind == 1 || o.kind == 3 then s0
  else if o.kind = 0 then
    if o.bad.isSome then cblFaultAt s0 k 0x34 o.pc o.addr else cSet s0 k o.dest (leNat o.data)
  else
    let n := o.bad.getD o.n
    let s1 := if n = 0 then s0 else writeSram s0 (cAgent k 0) (localAddr k o.dest) (allBytes (o.data.take (16 * n))) false
    if o.bad.isSome then cblFaultAt s1 k 0x34 o.pc (o.addr + 16 * n) else cHalted s0 s1 k

/-- CBL_HBM_COMPLETE (R196, R202): operation `n` of Cobbler `k` completes, a write once HBM has acknowledged it. -/
def execCblHbmComplete (k : Fin 16) (n : Nat) (s : State) : Out :=
  match (s.cbl k).ops.find? fun o => o.id == n with
  | none => .next s
  | some o => if !s.live || !noAcc s (.cobbler k o.id) then .next s else .next (cComplete s k o)

/-- CBL_FENCE (R197): issues once nothing is outstanding. -/
def execCblFence (k : Fin 16) (s : State) : Out := cStep 0x30 k s fun s _ => cNext s k

/-! ### Tacks, scalar registers, SUBMIT, HALT -/

/-- TSET (R85, R198). -/
def cTset (bit0 : Nat) (k : Nat) (s : State) : Out :=
  match cWord s k with
  | some w =>
    if cOp w = 0x39 ∧ cFn w % 2 ≠ bit0 then .next s
    else cStep 0x39 k s fun s w =>
      let t := cReg s k (cRs1 w) % 1024
      if !s.ownsTack (s.cbl k).tenant t then cblEnd (cblRecord s k 0x05 1 t) k
      else cNext (tackUpdate s (64 + k) t (bit0 == 1) (cReg s k (cRs2 w) % 2 ^ 16)) k
  | none => .next s

/-- CBL_TSET_ADD (R198). -/
def execCblTsetAdd (k : Fin 16) (s : State) : Out := cTset 0 k s
/-- CBL_TSET_WRITE (R198). -/
def execCblTsetWrite (k : Fin 16) (s : State) : Out := cTset 1 k s

/-- CBL_TWAIT (R198): the program stands at its tack. -/
def execCblTwait (k : Fin 16) (s : State) : Out :=
  cStep 0x3A k s fun s w =>
    let t := cReg s k (cRs1 w) % 1024
    if !s.ownsTack (s.cbl k).tenant t then cblEnd (cblRecord s k 0x05 1 t) k
    else
      let lim := bits w 12 0
      let x : Waiting := { tack := t, thresh := cReg s k (cRs2 w) % 2 ^ 16, consume := bit w 13
                           until_ := if lim = 0 then none else some (s.now + 1024 * lim) }
      s.modCbl k fun c => { c with twait := some x, twaitRd := cRd w }

/-- The TWAIT is left: RD receives its result and the program goes on. -/
def cLeave (s : State) (k v : Nat) : State :=
  let r := (s.cbl k).twaitRd
  cNext (cBusy (cSet (s.modCbl k fun c => { c with twait := none }) k r v) k r (s.now + 3)) k

/-- CBL_TWAIT_SATISFIED (R86, R198): after the queue WAITs and the lower Cobblers of the cc have been evaluated. -/
def execCblTwaitSatisfied (k : Fin 16) (s : State) : Out :=
  match (s.cbl k).twait with
  | none => .next s
  | some w =>
    if s.runs && tackMeets s w && !takenBefore s w.tack 64 k then .next (cLeave (tackConsume s w) k 1) else .next s

/-- CBL_TWAIT_TIMEOUT (R198). -/
def execCblTwaitTimeout (k : Fin 16) (s : State) : Out :=
  match (s.cbl k).twait with
  | none => .next s
  | some w =>
    if s.runs && !tackMeets s w && (w.until_.any fun d => decide (d ≤ s.now)) then .next (cLeave s k 0) else .next s

/-- Something an instruction does in a later cc. -/
def cLater (s : State) (k : Nat) (l : CblLate) : State := s.modCbl k fun c => { c with late := c.late ++ [l] }

/-- CBL_SRRD (R199): half of a scalar register of a queue the holder owns, read in the next cc (`cblLateDue`). -/
def execCblSrrd (k : Fin 16) (s : State) : Out :=
  cStep 0x3B k s fun s w =>
    let q := cReg s k (cRs1 w) % 64
    if !s.ownsQ (s.cbl k).tenant q then cblFault s k 0x32 (cReg s k (cRs1 w))
    else
      cNext (cLater s k { due := s.now + 1, queue := q, arg := bits w 3 0, rd := cRd w }) k

/-- CBL_SRWR (R79, R199). -/
def execCblSrwr (k : Fin 16) (s : State) : Out :=
  cStep 0x3C k s fun s w =>
    let q := cReg s k (cRs1 w) % 64
    if !s.ownsQ (s.cbl k).tenant q then cblFault s k 0x32 (cReg s k (cRs1 w))
    else cNext (srWrite s (s.now + 2) (1 + k) q (bits w 2 0) (cReg s k (cRd w) * 2 ^ 32 + cReg s k (cRs2 w))) k

/-- The status of a Cobbler submit of head `a` to queue `q` for tenant `t` (Table 09.4). -/
def cblSubmitStatus (s : State) (t q a : Nat) : Nat :=
  if a % 128 ≠ 0 then 5
  else if s.epc.state ≠ .opened then 1
  else if !s.ownsQ t q then 4
  else if !s.qOn q then 3
  else if (s.ten t).abandoned then 1
  else if !fifoRoom (s.q q) {} then 2
  else 0

/-- CBL_SUBMIT (R28, R54, R200): the head reaches the queue engine 2 cc later (`cblLateDue`). -/
def execCblSubmit (k : Fin 16) (s : State) : Out :=
  cStep 0x3D k s fun s w =>
    let y := cReg s k (cRs2 w)
    let a := y % 256 * 2 ^ 32 + cReg s k (cRs1 w)
    if y / 256 ≠ 0 then cblFault s k 0x32 (cReg s k (cRs1 w))
    else
      cNext (cLater s k { due := s.now + 2, submit := true, queue := bits w 5 0, arg := a, tenant := (s.cbl k).tenant, rd := cRd w }) k

/-- What an earlier instruction does in this cc (R199, R200). -/
def cblLate (s : State) (k : Nat) (l : CblLate) : State :=
  if l.submit then
    let st := cblSubmitStatus s l.tenant l.queue l.arg
    cSet (if st = 0 then fifoAdd s l.queue { addr := l.arg, tenant := l.tenant } else s) k l.rd st
  else
    let v := (s.q l.queue).sr.getD (l.arg % 8) 0
    cSet s k l.rd (if bit l.arg 3 then bits v 63 32 else bits v 31 0)

/-- The same for each Cobbler in ascending number, as a cc begins: the scalar register writes of the last cc stand, and no
SUBMIT message of this one has been handled (R54, R79, R199, R200). -/
def cblLateDue (s : State) : State :=
  if !s.runs then s
  else (s.cbls.map (·.1)).foldl (fun s k =>
    let due := (s.cbl k).late.filter fun l => decide (l.due ≤ s.now)
    if due.isEmpty then s
    else due.foldl (fun s l => cblLate s k l)
      (s.modCbl k fun c => { c with late := c.late.filter fun l => !decide (l.due ≤ s.now) })) s

/-- CBL_HALT (R202): the program ends once nothing is outstanding. -/
def execCblHalt (k : Fin 16) (s : State) : Out := cStep 0x3E k s fun s _ => cblEnd s k

/-! ### The fetch buffer -/

/-- CBL_LINE_FILL (R57, R58, R192, R238): the oldest image line asked for returns, 12 cc after it was asked for at the
earliest, and fills the slot that does not hold the line it was asked from; an instruction that stood waiting for it issues
in the next cc at the earliest. A line with an uncorrectable error halts the program. DESIGN CHOICE: where the slot filled
held the line the PC has meanwhile moved to, that line is asked for again (log entry 105). -/
def execCblLineFill (k : Fin 16) (s : State) : Out :=
  let c := s.cbl k
  match c.lines.find? fun l => l.bytes.isNone with
  | none => .next s
  | some l =>
    if !s.runs || !c.running || decide (s.now < l.at_ + 12) then .next s
    else
      let r : List Byte × Bool × State := match xlate s c.tenant (c.prog + 128 * l.no) 128 with
        | none => (List.replicate 128 0, true, s)
        | some pa =>
          match dcacheRead s (pa / 128) with
          | (some bs, s) => (bs, false, s)
          | (none, s) =>
            let x := readPhys s (cAgent k 0) pa 128
            (x.1, x.2.1, if x.2.1 then x.2.2 else dcacheFill x.2.2 (cAgent k 0) (pa / 128))
      if r.2.1 then .next (cblFault r.2.2 k 0x34 (128 * l.no))
      else
        let lines := (c.lines.filter fun y => y != l && (y.bytes.isNone || y.no == l.src)) ++ [{ l with bytes := some r.1 }]
        let again : List CblLine :=
          if lines.any fun y => y.no == c.pc / 128 then [] else [{ no := c.pc / 128, src := l.no, at_ := s.now }]
        .next (r.2.2.modCbl k fun y =>
          { y with lines := lines ++ again, issueAt := if l.no = c.pc / 128 then max y.issueAt (s.now + 1) else y.issueAt })

/-- CBL_ILLEGAL (R187, R188): the word at the PC is no legal instruction; it names no register to wait for. -/
def execCblIllegal (k : Fin 16) (s : State) : Out :=
  match cWord s k with
  | none => .next (cTouch s k)
  | some w =>
    if cLegal w || decide (s.now < (s.cbl k).issueAt) then .next s
    else .next (cblFault (cTouch s k) k (if s.eff (64 + k) ≤ 1 then 0x37 else 0x30) 0)

end Sys2Proof.Machine
end

