-- ==== Sys2Proof/Machine/Regs.lean ====
section
/-! DEFINITION. The direct registers as the MSP reads and writes them (chapter 18, R1 to R6, R372, R380 to R393), and
the indirect tables through their window (R376 to R379, R394). -/

namespace Sys2Proof.Machine

/-- A 1 at bit `i` when `c` holds. -/
def flagAt (i : Nat) (c : Bool) : Nat := if c then 2 ^ i else 0

/-- Bits of the numbers below `n` for which `f` holds. -/
def flagsOf (n : Nat) (f : Nat → Bool) : Nat := ((List.range n).map fun i => flagAt i (f i)).sum

/-! ### What the computed fields read -/

/-- WLT_STATUS.STATE (Table 12.5). -/
def pstateCode : PState → Nat
  | .disabled => 0 | .down => 1 | .training => 2 | .align => 3
  | .hello => 4 | .up => 5 | .fenced => 6 | .quarantined => 7

/-- The status word of a port, less HELLO_FAIL (Table 18.8). -/
def portStatus (s : State) (p : Nat) : Nat :=
  let x := s.port p
  flagAt 31 (bit (s.reg (lkey p 0x0308 0x0454)) 31) + flagAt 16 x.retrain + x.lanes * 2 ^ 8 + laneCount x.lanes * 2 ^ 4 +
    pstateCode x.state

/-- TWN_STATUS (Table 18.9). -/
def twnStatus (s : State) : Nat :=
  flagAt 31 (bit (s.reg 0x0408) 31) + flagAt 20 s.twn.adopt + flagAt 19 s.twn.cfgErr + flagAt 18 (applyBusy s) +
    s.twn.inDir * 2 ^ 12 + s.twn.outDir * 2 ^ 8 + s.twn.pstate * 2 ^ 4 + twinSide s

/-- The status byte of a reference (Table 18.5). -/
def refStatus (x : RefSt) : Nat := flagAt 7 x.qual + flagAt 6 x.act + x.cause

/-- FLT_HEADw: word w of the oldest record, 0 when there is none (R392, R395). -/
def headWord (s : State) (w : Nat) : Nat :=
  match s.flt.fifo with
  | [] => 0
  | r :: _ => leNat (((faultBytes r).drop (4 * w)).take 4)

/-- STATE of a queue table entry (Table 03.17, R68, R86). -/
def queueState (s : State) (q : Nat) : Nat :=
  let x := s.q q
  if x.abandoned then 6
  else if x.stopped then 5
  else if (waitingAt s q).isSome then 3
  else match x.fetch with
    | f :: _ => match f.phase, f.words with
      | .ready, some w =>
        let e := sbEntries q x w (resolveP x w)
        if !s.qTimed q && !sbHolds s (s.qTen q) e.1 e.2 then 2 else 4
      | _, _ => 1
    | [] => if x.next.isSome && x.chain.isSome then 1 else if x.chain.isSome || !x.flight.isEmpty then 4 else 0

/-! ### Latched groups -/

/-- The registers of the latched group a first register opens, with their values in this cc (Table 18.3, R382). -/
def latchGroup (s : State) (a : Nat) : List (Nat × Nat) :=
  let wide (a v : Nat) : List (Nat × Nat) := [(a, v / 2 ^ 32), (a + 4, v % 2 ^ 32)]
  let time (a : Nat) (t : Nat × Nat × Nat) : List (Nat × Nat) :=
    [(a, t.1 / 2 ^ 32), (a + 4, t.1 % 2 ^ 32), (a + 8, t.2.1), (a + 12, t.2.2 / 2 ^ 32)]
  match a with
  | 0x0018 => wide a s.ccnt
  | 0x0208 => wide a s.epc.count
  | 0x0188 => time a (s.tod.sec, s.tod.ns, s.tod.frac)
  | 0x01B0 => time a s.tod.cap
  | 0x0430 => wide a s.twn.acked
  | 0x0438 => wide a s.twn.replicaEp
  | _ => []

/-- A register that a latched group's later words read. -/
def isLatched (a : Nat) : Bool := [0x001C, 0x020C, 0x018C, 0x0190, 0x0194, 0x01B4, 0x01B8, 0x01BC, 0x0434, 0x043C].contains a

/-- The latch taken when the first register of a group is fetched. -/
def latchAt (s : State) (a : Nat) : State :=
  { s with latch := (latchGroup s a).foldl (fun l e => mset zeroNat l e.1 e.2) s.latch }

/-! ### Fields -/

/-- The key of the stored word behind address `a`: the bank reaches the port WLT_PSEL names (R388). -/
def regKey (s : State) (a : Nat) : Nat := if 0x0304 ≤ a ∧ a ≤ 0x037F then bankKey (s.reg 0x0300) a else a

/-- RW bits of a register that has no command of its own (Tables 18.4 to 18.13). -/
def rwMask : Nat → Nat
  | 0x0010 => 0xFFFFFFFF | 0x0100 => 1 | 0x010C => 0x13 | 0x0110 => 0x13 | 0x0114 => 0x13 | 0x011C => 0xC0000000
  | 0x0120 => 0x7F | 0x0124 => 0xFFFF | 0x0128 => 0xFFFF
  | 0x0198 => 0xFFFF | 0x019C => 0xFFFFFFFF | 0x01A0 => 0x3FFFFFFF | 0x01A4 => 0xFFFF | 0x01C8 => 0x800000FF
  | 0x0210 => 0xFFFFFFFF | 0x0214 => 0xFFFFFFFF | 0x0218 => 0xF | 0x0230 => 0xFFFFFFFF | 0x0234 => 0xFFFFFFFF
  | 0x0300 => 7 | 0x030C => 0x1110F | 0x0310 => 0xFFFFFF | 0x0314 => 0xFFFFFF | 0x0318 => 0xFFFF | 0x031C => 0xFFFF00FF
  | 0x0320 => 0xFFFFFF | 0x0324 => 0xFFFF | 0x0328 => 0xFFFFFFFF | 0x032C => 0xC000003F
  | 0x0410 => 0xFFFFFFFF | 0x0420 => 0xFFFFFFFF | 0x0424 => 0xFFFFFFFF | 0x0428 => 0xFFFFFF | 0x042C => 0xFFFFFFFF
  | 0x0458 => 0x111FF | 0x045C => 0xC000003F | 0x0460 => 0xFFFF | 0x0464 => 0xFFFF00FF | 0x0468 => 0xFFFFFFFF
  | 0x0544 => 0x1FF | 0x0580 => 0x801F001F | 0x0584 => 0xFF | 0x0588 => 0xFFFFFFFF | 0x058C => 0xFFFFFFFF
  | 0x0600 => 0x1F | 0x0604 => 0xFFFF | 0x0608 => 0xFFFFFFFF | 0x060C => 0xFFFFFFFF | 0x0610 => 0xFFFFFFFF
  | 0x0614 => 0xFFFFFFFF | 0x0618 => 0xFFFFFFFF | 0x061C => 0xFFFFFFFF | 0x0620 => 0xFFFFFFFF | 0x0624 => 0xFFFFFFFF
  | 0x0780 => 1 | 0x0784 => 0xFFFFFFFF
  | _ => 0

/-- W1C bits of a register. -/
def w1cMask : Nat → Nat
  | 0x0004 => 0x102 | 0x0104 => 0x110 | 0x0184 => 0x18 | 0x0204 => 0xB00 | 0x0308 => 0x80000000 | 0x0408 => 0x80000000
  | 0x0454 => 0x80000000 | 0x04C0 => 0xC0000000 | 0x0500 => 0x80000000 | 0x0598 => 1 | 0x0704 => 0xFFFFFFFF
  | _ => 0

/-- A register that holds RC counters (R381). -/
def isRc (a : Nat) : Bool :=
  [0x012C, 0x0130, 0x01C4, 0x0220, 0x0244, 0x0330, 0x0334, 0x0338, 0x033C, 0x0340, 0x0344, 0x0444, 0x0448, 0x046C,
    0x0508, 0x0594, 0x0700, 0x07C0, 0x07C4, 0x07C8].contains a ||
  (decide (0x0490 ≤ a) && decide (a ≤ 0x04B8) && decide (a % 4 = 0)) ||
  (decide (0x0790 ≤ a) && decide (a ≤ 0x07B8) && decide (a % 4 = 0))

/-- Registers that read as stored, but for their write-only bits. -/
def readsStored (a : Nat) : Bool :=
  decide (rwMask a ≠ 0) || isRc a ||
    [0x000C, 0x0238, 0x023C, 0x0240, 0x0400, 0x040C, 0x0450, 0x0480, 0x04C0, 0x04C4, 0x04C8, 0x04CC, 0x0590, 0x0704, 0x0788,
      0x0304, 0x0628, 0x0200].contains a

/-! ### Reads -/

/-- A table access that was started in an earlier cc is in progress (R376). -/
def tabBusy (s : State) : Bool := s.msp.tabAt.any fun a => decide (a.due < s.now + 4)

/-- The value a register returns in this cc (R1, R6, R380 to R393); an RC register the value from before the events of
this cc (§00). -/
def regRead (s : State) (a : Nat) : Nat :=
  let st := if isRc a then s.rcBefore (regKey s a) else s.reg (regKey s a)
  if isLatched a then mget zeroNat s.latch a
  else match latchGroup s a with
    | e :: _ => e.2
    | [] => match a with
      | 0x0000 => 0x0C1A6402
      | 0x0004 => st + flagAt 0 s.power.bistFail
      | 0x0008 => s.power.straps
      | 0x0020 => flagsOf 32 fun i => disagree s i
      | 0x0024 => flagsOf 32 fun i => disagree s (32 + i)
      | 0x0028 => flagsOf 32 fun i => disagree s (64 + i)
      | 0x002C => flagsOf 9 fun i => disagree s (96 + i)
      | 0x0104 => st + flagAt 31 s.power.pllLock + flagAt 3 s.clk.holdover + flagAt 2 s.clk.switchEnd.isSome + s.clk.sel
      | 0x0108 => s.clk.m * 2 ^ 16 + st
      | 0x0118 => refStatus (s.ref 0) + refStatus (s.ref 1) * 2 ^ 8 + refStatus (s.ref 2) * 2 ^ 16
      | 0x011C => st + (s.ref (bits st 31 30 % 3)).offset
      | 0x0184 => st + s.tod.pend * 2 ^ 8 + flagAt 1 (s.tod.pend != 0) + flagAt 0 s.tod.valid
      | 0x01A8 => s.tod.incr / 2 ^ 32
      | 0x01AC => s.tod.incr % 2 ^ 32
      | 0x01C0 => s.tod.ppsCnt
      | 0x0204 => st + flagAt 10 s.epc.armed + stateCode s.epc.state
      | 0x021C => s.epc.cause
      | 0x0224 => s.epc.abandoned
      | 0x0228 => s.epc.overhead
      | 0x0308 => portStatus s (s.reg 0x0300)
      | 0x0380 => ((List.range 8).map fun p =>
          (flagAt 3 (bit (s.reg (bankKey p 0x0308)) 31) + pstateCode (s.port p).state) * 2 ^ (4 * p)).sum
      | 0x0408 => twnStatus s
      | 0x0414 => s.twn.run
      | 0x0418 => s.twn.replica
      | 0x041C => s.twn.pending
      | 0x0440 => min (2 ^ 32 - 1) (seedLeft s)
      | 0x0454 => portStatus s 8 + (s.port 8).helloFail * 2 ^ 24
      | 0x0484 => scrubPass s
      | 0x0488 => s.power.trainFail * 2 ^ 4 + s.power.trained
      | 0x0500 => (if s.cc.fltFull.isEmpty then st else 2 ^ 31) + s.flt.fifo.length
      | 0x0520 => headWord s 0
      | 0x0524 => headWord s 1
      | 0x0528 => headWord s 2
      | 0x052C => headWord s 3
      | 0x0530 => headWord s 4
      | 0x0534 => headWord s 5
      | 0x0538 => headWord s 6
      | 0x053C => headWord s 7
      | 0x0540 => alertStatus s
      | 0x0548 => alertSummary s
      | 0x0590 => s.trc.wr
      | 0x0598 => st + flagAt 31 s.trc.cfgErr
      | 0x062C => flagAt 31 (tabBusy s) + s.msp.tabErr
      | 0x0708 => flagsOf 32 fun t => (s.ten t).valid
      | 0x070C => flagsOf 32 fun t => (s.ten t).cfgErr
      | 0x0710 => flagsOf 32 fun t => (s.ten t).jexhausted
      | 0x0740 => (flagsOf 8 fun c => (s.str c).cfgErr) * 2 ^ 8 + flagsOf 8 fun c => (s.str c).frame.isSome
      | _ => if readsStored a then st else 0

/-- RC fields fall by the value that was sent (R372, R381). -/
def rcReduce (s : State) (key a v : Nat) : State :=
  if isRc a then
    (s.setReg key (s.reg key - v)).setCc
      { s.cc with rc := s.cc.rc.map fun e => if e.1 = key then (key, e.2 - v) else e }
  else s

/-- The address is a multiple of 4 (R367). -/
def wordAddr (a : Nat) : Bool := decide (a % 4 = 0)

/-- A frame whose header breaks R367 is refused, outcome ADDRESS (R371, R373). -/
def addrRefused (s : State) : State := { s with msp := { s.msp with frameErr := true, outcome := 4 } }

/-- One register read: its value is driven on MSP_SDO, a group's first register latches the group, and each RC field falls
by what was sent (R372, R382). Past 0x0FFC a word reads 0; an address that is no multiple of 4 is refused, and 0 is driven
(R6, R367, R371; log entry 106). -/
def readWord1 (s : State) (addr : Nat) : State :=
  if !s.mspOn then s
  else if !wordAddr addr then addrRefused { s with msp := { s.msp with sdo := beBytes 4 0 } }
  else
    let v := regRead s addr
    rcReduce { latchAt s addr with msp := { s.msp with sdo := beBytes 4 v } } (regKey s addr) addr v

/-- RC_READ (R372). -/
def execRcRead (addr : Nat) (s : State) : Out := .next (readWord1 s addr)

/-- LATCHED_GROUP_READ (R382). -/
def execLatchedGroupRead (addr : Nat) (s : State) : Out := .next (readWord1 s addr)

/-! ### Commands with a row of their own -/

/-- GLB_NODE_WRITE (R385). -/
def execGlbNodeWrite (w : Word) (s : State) : Out :=
  if !s.mspOn then .next s
  else if (List.range 9).all fun p => decide ((s.port p).state = .disabled) then
    .next { s with nextFx := s.nextFx ++ [.node (w.toNat % 1024)] }
  else .next (s.setBit 0x0004 8)

/-- FLT_POP (R392): the oldest record goes, before the records of this cc enter: none goes when those are all there are, and
the first that found the FIFO full takes the place made. -/
def execFltPop (s : State) : Out :=
  if !s.mspOn || decide (s.flt.fifo.length ≤ s.cc.fltIn) then .next s
  else match s.cc.fltFull with
    | [] => .next { s with flt := { s.flt with fifo := s.flt.fifo.drop 1 } }
    | r :: rest => .next { s with flt := { s.flt with fifo := s.flt.fifo.drop 1 ++ [r] }
                                  cc := { s.cc with fltIn := s.cc.fltIn + 1, fltFull := rest } }

/-! ### The table window -/

/-- TAB_CMD with its WMASK stored. -/
def tabCmd (s : State) (wmask : BitVec 8) : State := s.setReg 0x0628 (wmask.toNat * 2 ^ 8)

/-- A table access starts, with what the window holds in this cc (R376). None starts while one is under way (R379). -/
def tabStart (s : State) (write : Bool) (wmask : BitVec 8) : State :=
  if !s.mspOn || s.msp.tabAt.isSome then s
  else
    let a : TabAccess := { due := s.now + 4, write := write, wmask := wmask.toNat, sel := s.reg 0x0600, index := s.reg 0x0604
                           data := (List.range 8).map fun w => s.reg (0x0608 + 4 * w) }
    let s := tabCmd s wmask
    { s with msp := { s.msp with tabAt := some a } }

/-- TABLE_READ (R376, R377): the access is made in cc c + 4 (`tabPerform`). -/
def execTableRead (wmask : BitVec 8) (s : State) : Out := .next (tabStart s false wmask)

/-- TABLE_WRITE (R376, R378): the access is made in cc c + 4 (`tabPerform`, `tabStore`). -/
def execTableWrite (wmask : BitVec 8) (s : State) : Out := .next (tabStart s true wmask)

/-- TABLE_CMD_NONE (Table 18.12): WMASK is stored, nothing else happens. -/
def execTableCmdNone (wmask : BitVec 8) (_op3 : Bool) (s : State) : Out :=
  .next (if s.mspOn && s.msp.tabAt.isNone then tabCmd s wmask else s)

/-- Data word `w` of entry `i` of table `sel` as a READ returns it (R377). -/
def tabWord (s : State) (sel i w : Nat) : Nat :=
  let rw := s.tw sel i w &&& tabMask sel i w
  match sel, w with
  | 0x02, 0 => flagAt 31 (s.ten i).cfgErr + flagAt 30 (s.ten i).abandoned + flagAt 29 (s.ten i).jexhausted
  | 0x02, 1 => (s.ten i).jused
  | 0x02, 2 => (s.ten i).fringWr
  | 0x02, 3 => (s.ten i).faults
  | 0x03, 0 => rw + flagAt 29 (s.win i).cfgErr + (s.win i).gen
  | 0x05, 4 => (s.q i).cringWr
  | 0x05, 5 => (s.q i).retired
  | 0x05, 6 => queueState s i * 2 ^ 24 + (s.q i).lastTag
  | 0x05, 7 => (s.q i).refused * 2 ^ 16 + flagAt 15 (s.q i).cfgErr + inlineUsed (s.q i) * 2 ^ 8 + (s.q i).fifo.length
  | 0x06, 0 => rw + (s.tack i).value
  | 0x06, 1 => (s.tack i).updates * 2 ^ 16 + flagAt 2 (s.tack i).extRefused + flagAt 1 (s.tack i).saturated
  | 0x07, 3 => mget zeroNat s.ownFlt i * 2 ^ 16
  | 0x08, 3 => if i % 64 = 63 then rw + flagAt 31 (s.vc (i / 64)).evCfgErr else mget zeroNat s.routed i
  | 0x09, 6 => rw + (s.port i).helloFail * 2 ^ 4
  | 0x09, 7 => (s.port i).strikes * 2 ^ 24 + (s.port i).peerCaps * 2 ^ 16 + s.tw 9 i 7 % 2 ^ 16
  | 0x0A, 5 => (s.key i).session
  | 0x0A, 6 => (s.key i).tagFail
  | 0x0A, 7 => (s.key i).kcv
  | 0x0B, 3 => flagAt 31 (s.str i).cfgErr + flagAt 30 (s.str i).frame.isSome
  | 0x0B, 4 => (s.str i).written
  | 0x0B, 5 => (s.str i).dropFull
  | 0x0B, 6 => (s.str i).dropOther
  | 0x0B, 7 => (s.str i).wr
  | 0x0C, 0 => rw + flagAt 16 (rw != (s.unit i).force) + s.eff i * 2 ^ 12 + (s.unit i).obs * 2 ^ 8 + (s.unit i).force * 2 ^ 4
  | 0x0C, 1 => (s.unit i).changes * 2 ^ 16 + (s.unit i).cause
  | _, _ => rw

/-- The RC fields of an entry fall by what a READ returned, in the cc of the access (R377). -/
def tabRc (s : State) (sel i : Nat) : State :=
  match sel with
  | 0x07 => { s with ownFlt := mset zeroNat s.ownFlt i 0 }
  | 0x08 => if i % 64 = 63 then s else { s with routed := mset zeroNat s.routed i 0 }
  | 0x09 => s.setTw 9 i 7 0
  | 0x0A => s.modKey i fun k => { k with tagFail := 0 }
  | 0x0B => s.modStr i fun x => { x with written := 0, dropFull := 0, dropOther := 0 }
  | 0x0C => s.modUnit i fun u => { u with changes := 0 }
  | _ => s

/-- The entry as a READ loads it into TAB_DATA0 to TAB_DATA7 (R377). -/
def tabLoad (s : State) (sel i : Nat) : State :=
  let ws := (List.range 8).map fun w => if w < tabWords sel then tabWord s sel i w else 0
  tabRc ((List.range 8).foldl (fun s w => s.setReg (0x0608 + 4 * w) (ws.getD w 0)) s) sel i

/-- ERR of an access: 0 OK, 1 SELECT, 2 INDEX (R376). -/
def tabErrOf (a : TabAccess) : Nat := if tabCount a.sel = 0 then 1 else if tabCount a.sel ≤ a.index then 2 else 0

/-- A partner table write changes the declared identity (R283). -/
def redeclares (s : State) (a : TabAccess) : Bool :=
  (bit a.wmask 0 && ((s.tw 9 a.index 0 ^^^ a.data.getD 0 0) &&& 0xE00003FF) != 0) ||
  (bit a.wmask 1 && s.tw 9 a.index 1 != (a.data.getD 1 0 &&& 0xFFFFFFF0))

/-- The cc of the access: operands are checked, a READ loads the data words, a WRITE clears W1C bits, and a changed
declaration sends its port to DOWN (R283, R376 to R378). A bit set in this cc is not cleared (§00). -/
def tabPerform (s : State) (a : TabAccess) : State :=
  let s := { s with msp := { s.msp with tabErr := tabErrOf a } }
  if tabErrOf a ≠ 0 then s
  else if !a.write then tabLoad s a.sel a.index
  else if a.sel = 9 then
    if redeclares s a && linkState (s.port a.index).state then portTo s a.index .down else s
  else if a.sel = 6 && bit a.wmask 1 then
    let kept (b : Nat) : Bool := !bit (a.data.getD 1 0) b || s.cc.tackSets.contains (a.index, b)
    s.modTack a.index fun x => { x with extRefused := x.extRefused && kept 2, saturated := x.saturated && kept 1 }
  else s

/-- A KEY word is written: SESSION clears, KCV follows (Table 12.12, R441). -/
def keyWrite (s : State) (i w v : Nat) : State :=
  let k := { s.key i with key := (s.key i).key.set (w - 1) v, session := 0 }
  s.setKey i { k with kcv := keyKcv k }

/-- One data word of a WRITE is stored (R378); a commanded FENCE takes force (R401), and QTH acts at once (R283). -/
def tabPut (s : State) (sel i w v : Nat) : State :=
  let m := tabMask sel i w
  let s := if m = 0 then s else s.setTw sel i w ((s.tw sel i w - (s.tw sel i w &&& m)) + (v &&& m))
  if sel = 0x0A && decide (1 ≤ w) && decide (w ≤ 4) then keyWrite s i w v
  else if sel = 0x0C && w == 0 && v % 4 == 1 then
    let s := s.modUnit i fun u => { u with force := 1 }
    if 92 ≤ i ∧ i ≤ 100 then portForce s (i - 92) 1 else s
  else if sel = 9 && w == 0 then addStrikes s i 0
  else s

/-- The cc after the access: a WRITE's words stand, and BUSY ends (R376, R378, R401). -/
def tabStore (s : State) (a : TabAccess) : State :=
  let s := { s with msp := { s.msp with tabAt := none } }
  if !a.write || tabErrOf a ≠ 0 then s
  else (List.range (tabWords a.sel)).foldl (fun s w => if bit a.wmask w then tabPut s a.sel a.index w (a.data.getD w 0) else s) s

/-- The table window as a cc begins. -/
def tabTick (s : State) : State :=
  match s.msp.tabAt with
  | none => s
  | some a => if s.now = a.due then tabPerform s a else if a.due < s.now then tabStore s a else s

/-! ### Writes -/

/-- The next state a command answers. -/
def after (s : State) (o : Out) : State :=
  match o with
  | .next t => t
  | _ => s

/-- The W1C bits of a register set in this cc. -/
def setNow (s : State) (k : Nat) : Nat := s.cc.sets.foldl (fun m e => if e.1 = k then m ||| 2 ^ e.2 else m) 0

/-- A register without a command of its own: RW fields are stored, W1C bits written 1 are cleared, unless set in this cc
(R1, R5, §00). -/
def plainWrite (s : State) (a w : Nat) : State :=
  let k := regKey s a
  let old := s.reg k
  let c := old &&& w &&& w1cMask a
  let c := c - (c &&& setNow s k)
  s.setReg k (old - (old &&& rwMask a) - c + (w &&& rwMask a))

/-- PPS_OUT is low while TOD_PPSO.EN is 0 (R362). -/
def ppsoFollow (s : State) : State :=
  if bit (s.reg 0x01C8) 31 then s else { s with tod := { s.tod with out := false, riseAt := none } }

/-- EN, RETRAIN and RELEASE of a port's control register (Tables 18.8, 18.9). -/
def linkCtrl (s : State) (p : Fin 9) (w : Nat) : State :=
  let s := after s (if bit w 31 then execWltCtrlEnSet p s else execWltCtrlEnClear p s)
  if bit w 4 then after s (execWltCtrlRetrain p s) else s

/-- TOD_CTRL: CANCEL, then APPLY (R357). -/
def todCtrl (s : State) (w : Nat) : State :=
  let s := if bit w 4 then after s (execTodCancel s) else s
  match w % 4 with
  | 0 => after s (execTodApplyNone s)
  | 1 => after s (execTodApplyNow s)
  | 2 => after s (execTodApplyAtNextSecond s)
  | _ => after s (execTodApplyAtNextPps s)

/-- A committed MSP write word: the effect of every register, those with commands of their own included (R1 to R6, R370). -/
def regCommit (s : State) (a : Nat) (w : Word) : State :=
  let n := w.toNat
  match a with
  | 0x000C => after s (execGlbNodeWrite w s)
  | 0x0100 => clkWritten s (plainWrite s a n)
  | 0x010C => clkWritten s (plainWrite s a n)
  | 0x0110 => clkWritten s (plainWrite s a n)
  | 0x0114 => clkWritten s (plainWrite s a n)
  | 0x0108 => after s (execClkCclkMWrite w s)
  | 0x0180 => todCtrl s n
  | 0x01A8 => after s (execTodIncrHiWrite w s)
  | 0x01AC => after s (execTodIncrLoWrite w s)
  | 0x01C8 => ppsoFollow (plainWrite s a n)
  | 0x0200 => if bit n 1 then after s (execEpcCtrlBoundary (bit n 0) s) else s.setReg 0x0200 (n % 2)
  | 0x0238 => after s (execEpcSchedSecWrite true w s)
  | 0x023C => after s (execEpcSchedSecWrite false w s)
  | 0x0240 => after s (execEpcSchedNsWrite w s)
  | 0x0304 =>
    let p : Fin 8 := Fin.ofNat 8 (s.reg 0x0300)
    let s := linkCtrl s p.castSucc n
    if bit n 8 then after s (execWltCtrlRelease p s) else s
  | 0x0400 => after s (execTwnPeerNodeWrite true w s)
  | 0x0404 => if bit n 0 then after s (execTwnCmdAdopt s) else s
  | 0x040C => after s (execTwnPeerNodeWrite false w s)
  | 0x0450 => linkCtrl s 8 n
  | 0x0480 => after s (execMemScrubWrite w s)
  | 0x0504 => if bit n 0 then after s (execFltPop s) else s
  | 0x0628 =>
    let m := BitVec.ofNat 8 (n / 2 ^ 8)
    match n % 4 with
    | 1 => after s (execTableRead m s)
    | 2 => after s (execTableWrite m s)
    | _ => after s (execTableCmdNone m (n % 4 == 3) s)
  | _ => plainWrite s a n

/-- REGISTER_WRITE (R1 to R6). Past 0x0FFC a word has no effect; an address that is no multiple of 4 is refused (R6, R367;
log entry 106). -/
def execRegisterWrite (addr : Nat) (w : Word) (s : State) : Out :=
  if !s.mspOn then .next s
  else if !wordAddr addr then .next (addrRefused s)
  else if addr ≤ 0x0FFC then .next (regCommit s addr w)
  else .next s

end Sys2Proof.Machine
end

