-- ==== Sys2Proof/Machine/Msp.lean ====
section
/-! DEFINITION. The frames of the management serial port (§17.1 to §17.5). A frame is one command: `bits` counts the SCK
cycles between the edges of MSP_CS_N, and the bytes hold what the host drives on MSP_SDI (log entry 70). -/

namespace Sys2Proof.Machine

/-- One bit of CRC-8 (R369). -/
def crc8Bit (c : Nat) : Nat := if c < 128 then 2 * c else (2 * c) % 256 ^^^ 0x07

/-- CRC-8 of a byte more. -/
def crc8Byte (c : Nat) (b : Byte) : Nat := crc8Bit (crc8Bit (crc8Bit (crc8Bit (crc8Bit (crc8Bit (crc8Bit (crc8Bit (c ^^^ b.toNat))))))))

/-- CRC-8 with polynomial 0x07, initial value 0 (R369), continued from `c`. -/
def crc8 (c : Nat) (bs : List Byte) : Nat := bs.foldl crc8Byte c

/-- Outcomes of a frame (R373). -/
def outOk : Nat := 0
def outCrc : Nat := 1
def outCut : Nat := 2
def outCommand : Nat := 3
def outAddress : Nat := 4

/-- A frame ends with an outcome. -/
def frameEnds (s : State) (o : Nat) : State := { s with msp := { s.msp with outcome := o } }

/-- FRAME_ERR and WR_DISCARD set. -/
def frameErr (s : State) : State := { s with msp := { s.msp with frameErr := true } }
def wrDiscard (s : State) : State := { s with msp := { s.msp with wrDiscard := true } }

/-- The address of a header keeps R367. -/
def hdrAddrOk (a : Nat) : Bool := decide (a < 0x1000) && decide (a % 4 = 0)

/-- One more word committed, saturating (R373). -/
def countWord (s : State) : State := { s with msp := { s.msp with committed := min 0xFFFF (s.msp.committed + 1) } }

/-- The words of a WRITE frame from address `a` on: `bs` what the host still sends, `n` the SCK cycles left, `crc` the CRC
of all before. A change of M that a word starts ends the frame, whose CS_N is still low then (R365, R370, R373). -/
def writeWords : Nat → State → Nat → List Byte → Nat → Nat → State
  | 0, s, _, _, _, _ => frameEnds s outOk
  | k + 1, s, a, bs, n, crc =>
    if n = 0 then frameEnds s outOk
    else if n < 40 then frameEnds (wrDiscard s) outCut
    else
      let d := padTo 4 bs
      let c := crc8 crc d
      if ((bs.drop 4).headD 0).toNat ≠ c then frameEnds (wrDiscard s) outCrc
      else
        let s := countWord (if a ≤ 0x0FFC then regCommit s a (BitVec.ofNat 32 (beNat d)) else s)
        if !s.mspOn then frameEnds s outCut
        else writeWords k s (a + 4) (bs.drop 5) (n - 40) c

/-- A WRITE frame (R366, R367, R370). -/
def writeFrame (s : State) (bs : List Byte) (n : Nat) : State :=
  let s := { s with msp := { s.msp with committed := 0, sdo := [] } }
  let h := padTo 3 bs
  let a := beNat (h.drop 1)
  if n < 24 then frameEnds s outCut
  else if !hdrAddrOk a then frameEnds (frameErr s) outAddress
  else writeWords (n / 40 + 1) s a (bs.drop 3) (n - 24) (crc8 0 h)

/-- The status byte (Table 17.3). -/
def statusByte (s : State) (hdrErr : Bool) : Byte :=
  BitVec.ofNat 8 (flagAt 7 s.msp.alertLow + flagAt 6 hdrErr + flagAt 5 s.msp.wrDiscard + flagAt 4 s.msp.frameErr +
    flagAt 3 (tabBusy s))

/-- The value of a read word, with its latch (R367, R372, R382). -/
def fetchWord (s : State) (a : Nat) : Nat × State := if a ≤ 0x0FFC then (regRead s a, latchAt s a) else (0, s)

/-- The words of a READ frame from address `a` on: `n` the SCK cycles after the status byte still to come, `crc` the CRC of
all before; the bytes driven and the state. A word whose CRC byte is whole has its side effect; the next is fetched then
(R372). -/
def readWords : Nat → State → Nat → Nat → Nat → Bool → List Byte × State
  | 0, s, _, _, _, _ => ([], s)
  | k + 1, s, a, n, crc, bad =>
    let f := if bad then (0, s) else fetchWord s a
    let key := regKey s a
    let d := beBytes 4 f.1
    let c := crc8 crc d
    if n < 40 then ((d ++ [BitVec.ofNat 8 c]).take (n / 8), f.2)
    else
      let s := if bad then f.2 else rcReduce f.2 key a f.1
      let r := readWords k s (a + 4) (n - 40) c bad
      (d ++ BitVec.ofNat 8 c :: r.1, r.2)

/-- A READ frame (R366, R367, R371, R372, R373): header, header CRC, dummy byte, status byte, words. -/
def readFrame (s : State) (bs : List Byte) (n : Nat) : State :=
  let h := padTo 3 bs
  let a := beNat (h.drop 1)
  if n < 24 then frameEnds { s with msp := { s.msp with sdo := [] } } outCut
  else
    let badA := !hdrAddrOk a
    let badC := decide (32 ≤ n) && decide ((bs.getD 3 0).toNat ≠ crc8 0 h)
    let bad := badA || badC
    let s := if bad then frameErr s else s
    let out := if badA then outAddress else if badC then outCrc else if 48 ≤ n ∧ (n - 48) % 40 = 0 then outOk else outCut
    if n < 40 then frameEnds { s with msp := { s.msp with sdo := [] } } out
    else
      let sb := statusByte s bad
      let r := readWords (n / 40 + 1) s a (n - 48) (crc8 (crc8 0 h) [sb]) bad
      frameEnds { r.2 with msp := { r.2.msp with sdo := (sb :: r.1).take ((n - 40) / 8) } } out

/-- A STATUS frame (R371 to R373): command, header CRC, dummy byte, status byte, word with its CRC. -/
def statusFrame (s : State) (bs : List Byte) (n : Nat) : State :=
  let bad := decide (16 ≤ n) && decide ((bs.getD 1 0).toNat ≠ crc8 0 [0x05#8])
  let s := if bad then frameErr s else s
  let out := if bad then outCrc else if 72 ≤ n ∨ n = 32 then outOk else outCut
  if n < 24 then frameEnds { s with msp := { s.msp with sdo := [] } } out
  else
    let sb := statusByte s bad
    let d := beBytes 4 (if bad then 0 else s.msp.outcome * 2 ^ 16 + s.msp.committed)
    let bytes := sb :: d ++ BitVec.ofNat 8 (crc8 (crc8 0 [0x05#8, sb]) d) :: List.replicate ((n - 72) / 8) 0
    let s := if 72 ≤ n ∧ bad = false then { s with msp := { s.msp with wrDiscard := false, frameErr := false } } else s
    frameEnds { s with msp := { s.msp with sdo := bytes.take ((n - 24) / 8) } } out

/-- A frame as its command byte directs (Table 17.2, R365, R366, R368). -/
def mspFrame (s : State) (bs : List Byte) (n : Nat) : State :=
  if !s.mspOn then { s with msp := { s.msp with sdo := [] } }
  else if n < 8 then frameEnds { s with msp := { s.msp with sdo := [] } } outCut
  else match (bs.headD 0).toNat with
    | 0x02 => writeFrame s bs n
    | 0x03 => readFrame s bs n
    | 0x05 => statusFrame s bs n
    | _ => frameEnds (frameErr { s with msp := { s.msp with sdo := [] } }) outCommand

/-- MSP_WRITE (R365 to R370): the frame's whole bytes, and the bits of an incomplete one after them. -/
def execMspWrite (frame : List Byte) (extraBits : Nat) (s : State) : Out :=
  .next (mspFrame s frame (8 * frame.length + extraBits % 8))

/-- MSP_READ (R371, R372): the header the host sends, and the SCK cycles of the frame. -/
def execMspRead (frame : List Byte) (clocks : Nat) (s : State) : Out := .next (mspFrame s frame clocks)

/-- MSP_STATUS (R371 to R373): the header the host sends, and the SCK cycles of the frame. -/
def execMspStatus (frame : List Byte) (clocks : Nat) (s : State) : Out := .next (mspFrame s frame clocks)

end Sys2Proof.Machine
end

