-- ==== Sys2Proof/Machine/Fault.lean ====
section
/-! DEFINITION. The fault writer's ring copies (R303, R399), the trace writer (R407), and containment (R400). -/

namespace Sys2Proof.Machine

/-- The writers as requesters. -/
def writerAgent : Agent := { kind := .writer, cls := 5, unit := 103 }

/-- FAULT_RING_COPY (R303, R399): the oldest ring copy is issued, one in a cc, at FRING_WR, which advances modulo the ring. A tenant
whose ring is gone, or that is a replica (R301, R317), takes no copy. -/
def execFaultRingCopy (s : State) : Out :=
  match s.flt.ring with
  | [] => .next s
  | (t, r) :: rest =>
    if !s.linkOn || s.cc.ringed then .next s
    else
      let s := { s with flt := { s.flt with ring := rest } }
      let lg := s.tfB 1 t 3 31 27
      if lg = 0 || !s.tenRun t then .next s
      else
        let k := (s.ten t).fringWr
        let s := (tenWrite (s.setCc { s.cc with ringed := true }) writerAgent t (fringBase s t + 32 * k) (allBytes (faultBytes r)) false).1
        .next (s.modTen t fun x => { x with fringWr := (k + 1) % 2 ^ lg })

/-- The 16 bytes of a trace record (Table 19.8). -/
def traceBytes (r : Nat × Nat) : List Byte := leBytes 8 r.1 ++ leBytes 8 r.2

/-- TRACE_RECORD_WRITE (R407): the oldest held record is written at entry TRACE_WR of the ring, unjournaled; without a
valid ring it is dropped. -/
def execTraceRecordWrite (s : State) : Out :=
  match s.trc.held with
  | [] => .next s
  | r :: rest =>
    if !s.linkOn then .next s
    else
      let s := { s with trc := { s.trc with held := rest } }
      match s.trc.valid, xlate s (traceTenant s) (traceBase s + 16 * (s.trc.wr % traceSlots s)) 16 with
      | true, some pa =>
        let s := writePhys s writerAgent pa (allBytes (traceBytes r)) false
        .next { s with trc := { s.trc with wr := (s.trc.wr + 1) % 2 ^ 32 } }
      | _, _ => .next ((s.bump 0x0594 1).setBit 0x0598 0)

/-- A port without its EV traffic, but for a message of which part has been sent. -/
def noEv (x : PortSt) : PortSt :=
  let c := x.chan 3
  { x with batches := [] }.setChan 3 { c with tx := if c.txOff = 0 then [] else c.tx.take 1 }

/-- Events that wait to be sent are dropped under cause EGRESS (R400). -/
def dropBatches (s : State) : State :=
  (List.range 8).foldl (fun s p =>
    (evDrop s 7 (evWaiting (s.port p) - evWaiting (noEv (s.port p)))).modPort p noEv) s

/-- Containment starts in this cc (R400); none starts while it is in force. -/
def contain (s : State) (unit : Nat) : State :=
  if s.power.contained then s
  else
    let s := recordFault s { code := 0x7F, unit := unit, level := 5, detail := unit }
    let s := dropBatches (sendTdown s 1)
    let s := { s with power := { s.power with contained := true } }
    (List.range 105).foldl (fun s u => if u = 101 then s else setObs s u 0 5) s

/-- CONTAINMENT (R400): an uncorrectable error in the control state of a unit. -/
def execContainment (unit : Fin 105) (s : State) : Out :=
  .next (if s.linkOn then contain s unit.val else s)

end Sys2Proof.Machine
end

