-- ==== Sys2Proof/Machine/Power.lean ====
section
/-! DEFINITION. Resets, the cold and warm sequences (chapter 20), and the JTAG port (R436). -/

namespace Sys2Proof.Machine

/-- The Veper held in reset by PORST_N or its supply monitors (R4, R410, R420): everything at its reset value, HBM content
lost. The waiting commands, the model's own counts, the straps and the JTAG port stay. -/
def porstState (s : State) (supplyLow porstLow : Bool) : State :=
  { pending := s.pending, freeCtr := s.freeCtr, now := s.now, jtag := s.jtag
    power := { stage := .porst, since := s.now, pllLock := false, bistDone := false, trainEnd := 0, trained := 0, zeroed := 0
               straps := s.power.straps, supplyLow := supplyLow, porstLow := porstLow } }

/-- PORST_ASSERT (R420). -/
def execPorstAssert (s : State) : Out := .next (porstState s s.power.supplyLow true)

/-- SUPPLY_FAULT (R410): acts as PORST_N. -/
def execSupplyFault (s : State) : Out := .next (porstState s true s.power.porstLow)

/-- The release of the last hold on reset: the straps are sampled, the boot reference is selected, and the cold sequence
or the test mode starts (R351, R411, R412, R415). -/
def release (s : State) (straps : Nat) : State :=
  { s with power := { s.power with straps := straps, since := s.now, porstAt := s.now
                                   stage := if bit straps 3 then .test else .locking }
           clk := { s.clk with sel := bits straps 2 2, holdover := false } }

/-- PORST_RELEASE (R411, R412, R415, R420). While a supply is out of range the Veper stays in reset. -/
def execPorstRelease (straps : BitVec 4) (s : State) : Out :=
  if decide (s.power.stage ≠ .porst) || !s.power.porstLow then .next s
  else
    let s := { s with power := { s.power with porstLow := false, straps := straps.toNat } }
    .next (if s.power.supplyLow then s else release s straps.toNat)

/-- SUPPLY_RETURN (R410): the monitors release as PORST_N does. The straps are sampled as they last stood (log entry 80). -/
def execSupplyReturn (s : State) : Out :=
  if decide (s.power.stage ≠ .porst) || !s.power.supplyLow then .next s
  else
    let s := { s with power := { s.power with supplyLow := false } }
    .next (if s.power.porstLow then s else release s s.power.straps)

/-- PLL_LOCK (R354, R415): GLB_CCNT and TOD start. -/
def execPllLock (s : State) : Out :=
  .next (if s.power.stage = .locking then { s with power := { s.power with stage := .cold, since := s.now, pllLock := true } } else s)

/-- The units whose failed self-test leaves them OFF (R416): VCs, Cobblers, Awl units, controllers, the Lace hub. -/
def bistUnit (u : Nat) : Bool := decide (u < 92) || decide (u = 104)

/-- What a self-test found (R416). -/
def bistResult (s : State) (failed : List Nat) : State :=
  let s := failed.foldl (fun s u => if bistUnit u then setObs s u 0 1 else s) s
  { s with power := { s.power with bistDone := true, bistFail := !failed.isEmpty, bistFatal := failed.find? fun u => !bistUnit u } }

/-- BIST_COMPLETE (R415, R416): the units whose SRAM cannot be repaired. -/
def execBistComplete (failed : List Nat) (s : State) : Out :=
  match failed.find? fun u => decide (105 ≤ u) with
  | some u => .fault (.noSuchUnit u)
  | none => .next (if s.power.stage = .cold ∧ s.power.bistDone = false then bistResult s failed else s)

/-- HBM_TRAINING_COMPLETE (R415, R417). -/
def execHbmTrainingComplete (h : Fin 4) (ok : Bool) (s : State) : Out :=
  if decide (s.power.stage ≠ .cold) || bit s.power.trainEnd h.val then .next s
  else
    let b := 2 ^ h.val
    let s := { s with power := { s.power with trainEnd := s.power.trainEnd + b } }
    .next (if ok then { s with power := { s.power with trained := s.power.trained + b } }
           else setObs { s with power := { s.power with trainFail := s.power.trainFail + b } } (88 + h.val) 0 2)

/-- ZERO_FILL_COMPLETE (R415, R417). -/
def execZeroFillComplete (h : Fin 4) (s : State) : Out :=
  .next (if decide (s.power.stage = .cold) && bit s.power.trained h.val && !bit s.power.zeroed h.val then
    { s with power := { s.power with zeroed := s.power.zeroed + 2 ^ h.val } } else s)

/-- Stages 2 to 4 of the cold sequence have ended (R415). -/
def coldDone (s : State) : Bool :=
  s.power.stage == .cold && s.power.bistDone && s.power.trainEnd == 15 && s.power.zeroed == s.power.trained

/-- Ports stand DISABLED and observe OFF (R402, R418). -/
def portsOff (s : State) : State := (List.range 9).foldl (fun s p => setObs s (92 + p) 0 3) s

/-- Every scrubber starts from the first place of its walk (R245). -/
def scrubStart (s : State) : State :=
  let s := [0, 1, 2, 3].foldl (fun s h => s.setHbmScrub h { pos := 0, due := s.now + hbmDiv (s.reg 0x0480), passes := 0 }) s
  (List.range 80).foldl (fun s u => s.setSramScrub u { pos := 0, due := s.now + cbufDiv (s.reg 0x0480), passes := 0 }) s

/-- DEV_READY rises in this cc (R375, R416, R418). -/
def devReady (s : State) : State :=
  let s := scrubStart { s with power := { s.power with stage := .ready, since := s.now } }
  match s.power.bistFatal with
  | some u => contain s u
  | none => s

/-- DEV_READY of the cold sequence: the references' checks and counts start, whatever their EN (R343 to R345, R351, R415,
R418). -/
def coldReady (s : State) : State :=
  let s := devReady (portsOff s)
  clkEval ([0, 1, 2].foldl (fun s r => s.setRef r { s.ref r with okAt := s.now }) s)

/-- WARMRST_ASSERT (R413): recognised. Before DEV_READY has first risen it is ignored; during a warm sequence it stops
that sequence. -/
def execWarmrstAssert (s : State) : Out :=
  match s.power.stage with
  | .ready => .next (dropBatches (sendTdown
      { s with power := { s.power with stage := .warmHold, since := s.now, warmLow := true }
               msp := { s.msp with sdo := [] } } 2))
  | .warmHold => .next { s with power := { s.power with warmLow := true } }
  | .warmSeq => .next { s with power := { s.power with stage := .warmReset, since := s.now, warmLow := true } }
  | _ => .next s

/-- The registers of the CLK and TOD blocks are kept (Table 20.3). -/
def warmKeeps (k : Nat) : Bool := decide (0x0100 ≤ k) && decide (k < 0x0200)

/-- The state from the reset point on (R414, Table 20.3). -/
def warmState (s : State) : State :=
  let p := s.power
  let hc := (List.range 4).filterMap fun h =>
    if bit p.trainFail h then some (88 + h, ({ force := 3, obs := 0, changes := 0, cause := 2 } : UnitSt)) else none
  let cl := if s.clk.holdover then [(101, ({ force := 3, obs := 2, changes := 0, cause := 4 } : UnitSt))] else []
  let t : State :=
    { pending := s.pending, freeCtr := s.freeCtr, now := s.now, ccnt := s.ccnt, jtag := s.jtag
      power := { stage := if p.warmLow then .warmReset else .warmSeq, since := s.now, pllLock := p.pllLock, trainEnd := p.trainEnd
                 trained := p.trained, trainFail := p.trainFail, zeroed := p.zeroed, straps := p.straps, warmLow := p.warmLow
                 porstAt := p.porstAt }
      regs := mset regDefault (s.regs.filter fun e => warmKeeps e.1) 0x0004 2
      latch := s.latch.filter fun e => warmKeeps e.1 || e.1 == 0x001C || e.1 == 0x0018
      units := hc ++ cl
      mem := { hbm := s.mem.hbm, hbmErr := s.mem.hbmErr }
      clk := { s.clk with held := false, heldSched := false }
      tod := s.tod
      nextFx := s.nextFx.filter fun f => match f with
        | .incr _ => true
        | _ => false }
  portsOff t

/-- WARM_RESET_POINT (R413, R414). -/
def execWarmResetPoint (s : State) : Out :=
  if s.power.stage = .warmHold ∧ s.power.since + 3072 ≤ s.now then .next (warmState s) else .next s

/-- WARMRST_RELEASE (R413, R419): recognised; after the reset point the warm sequence starts. -/
def execWarmrstRelease (s : State) : Out :=
  match s.power.stage with
  | .warmHold => .next { s with power := { s.power with warmLow := false } }
  | .warmReset => .next { s with power := { s.power with stage := .warmSeq, since := s.now, warmLow := false } }
  | _ => .next s

/-- WARM_SEQUENCE_END (R416, R419): the self-test's result applies, and DEV_READY is high. -/
def execWarmSequenceEnd (failed : List Nat) (s : State) : Out :=
  match failed.find? fun u => decide (105 ≤ u) with
  | some u => .fault (.noSuchUnit u)
  | none => .next (if s.power.stage = .warmSeq then devReady (bistResult s failed) else s)

/-! ### JTAG -/

/-- The bits of IDCODE 0x264017A5, least significant first (R436). -/
def idcodeBits : List Bool := (List.range 32).map fun i => bit 0x264017A5 i

/-- The balls are driven by the boundary cells (R436). -/
def jtagDrives (s : State) : Bool := s.jtag.ir == 3 && !bit s.power.straps 3 && !s.ready

/-- JTAG_ACCESS (R436): `shift` is shifted through the register an instruction selects; TDO shows what was captured, then
what was shifted in. The boundary register's cells and their order are the BSDL's: free values (log entry 24). -/
def execJtagAccess (instr : Fin 4) (shift : List Bool) (s : State) : Out :=
  if s.power.supplyLow then .next s
  else match instr.val with
    | 0 => .next { s with jtag := { s.jtag with ir := 0, tdo := (false :: shift).take shift.length } }
    | 1 => .next { s with jtag := { s.jtag with ir := 1, tdo := (idcodeBits ++ shift).take shift.length } }
    | i => .next { s with
        freeCtr := s.freeCtr + shift.length
        jtag := { ir := i, cells := shift, tdo := (List.range shift.length).map fun k => Config.freeCell (s.freeCtr + k) } }

end Sys2Proof.Machine
end

