-- ==== Sys2Proof/Machine/Tick.lean ====
section
/-! DEFINITION. The passing of one CCLK cycle: what comes due, and what follows from the cc before (log entry 2). -/

namespace Sys2Proof.Machine

/-- One write of a scalar register (R79). -/
def srApply (s : State) (w : SrWr) : State := s.modQ w.queue fun x => { x with sr := x.sr.set w.reg w.value }

/-- The scalar register writes of the cc that has ended (R79). -/
def srApplyDue (s : State) : State :=
  let due := byRank SrWr.rank (s.srPend.filter fun w => decide (w.due < s.now))
  due.foldl srApply { s with srPend := s.srPend.filter fun w => !decide (w.due < s.now) }

/-- One update of a tack (R84). -/
def tackApply (s : State) (u : TackUpd) : State :=
  let v := (s.tack u.tack).value + u.value
  let s := s.modTack u.tack fun x => { x with value := if u.write then u.value else min 0xFFFF v
                                              updates := min 0xFFFF (x.updates + 1) }
  if !u.write && decide (0xFFFF < v) then s.tackBit u.tack 1 else s

/-- The tack updates of this cc in the order of R85. -/
def tackApplyDue (s : State) : State :=
  let due := byRank TackUpd.rank (s.tackUpd.filter fun u => decide (u.due ≤ s.now))
  due.foldl tackApply { s with tackUpd := s.tackUpd.filter fun u => !decide (u.due ≤ s.now) }

/-- What a command of the last cc set for this one (R5, R353, R383, R385). -/
def fxApply (s : State) (f : Fx) : State :=
  match f with
  | .node w => s.setReg 0x000C w
  | .incr v => { s with tod := { s.tod with incr := v } }
  | .sched sec ns => { s with epc := { s.epc with armed := true, instSec := sec, instNs := ns, schedHit := false } }

/-- A new cc begins: the counts of cc, and what was set for it. -/
def ccBegins (s : State) : State :=
  let s := { s with now := s.now + 1, ccnt := if s.power.pllLock then (s.ccnt + 1) % 2 ^ 64 else s.ccnt }
  s.nextFx.foldl fxApply { s with nextFx := [] }

/-- OPENING has completed before its schedule instant: the boundary waits (R37, R38). -/
def waitFollow (s : State) : State :=
  if s.live && decide (s.epc.state = .opening) && decide (s.epc.since + 48 ≤ s.now) && schedHeld s && !todReached s (instant s) then
    { s with epc := { s.epc with waiting := true } } else s

/-- The commit record is formed 48 cc into COMMIT (R34, R327). -/
def commitFollow (s : State) : State :=
  if s.live && decide (s.epc.state = .commit) && !s.epc.formed && decide (s.epc.since + 48 ≤ s.now) then formCommit s else s

/-- A commanded FENCE, or OFF, halts the program of its Cobbler before its next instruction (R202, Table 19.7). -/
def fenceHalt (s : State) : State :=
  if !s.runs then s
  else (s.cbls.map (·.1)).foldl (fun s k => if (s.cbl k).running && decide (s.eff (64 + k) ≤ 1) then cblFault s k 0x37 0 else s) s

/-- One CCLK cycle passes: the cc that ends loses what found the FIFO full and takes its scrub steps, and what it held of its own events is forgotten. What
is due in the new cc comes before the table window, so that a W1C bit set in this cc outlives a clear of it (§00). -/
def tick (s : State) : State :=
  let s := (alertFollow (scrubsDue (faultLost s))).setCc {}
  let s := cblLateDue (srApplyDue (ccBegins s))
  let s := tabTick (tackApplyDue s)
  let s := if s.power.pllLock then todAdvance s else s
  let s := clkEval (faultEnterDue s)
  let s := scrubHold (stallFollow s)
  let s := fenceHalt (waitFollow (commitFollow s))
  if coldDone s then coldReady s else s

/-- The cc that comes is a rollover cc (R352): TOD runs, no apply replaces its increment, and the increment passes
999,999,999 ns. -/
def rolloverNext (s : State) : Bool :=
  let s := ccBegins s
  let pps := match s.tod.ppsDue with
    | some e => decide (e ≤ s.now)
    | none => false
  s.power.pllLock && !applyReplaces s pps && rollsOver s

/-- TOD_ROLLOVER (R352): the cc passes in which TOD's seconds advance. -/
def execTodRollover (s : State) : Out := .next (if rolloverNext s then tick s else s)

end Sys2Proof.Machine
end

