-- ==== Sys2Proof/Machine/Dispatch.lean ====
section
/-! DEFINITION. One arm for each command: its effect on everything but the queue of waiting commands. -/

namespace Sys2Proof.Machine

/-- The effect of a command (spec/opcode_table.json, one arm per row). -/
def exec (i : Instr) (s : State) : Host.Outcome State Fault Refusal :=
  match i with
  | .registerWrite addr w => Sys2Proof.Machine.execRegisterWrite addr w s
  | .rcRead addr => Sys2Proof.Machine.execRcRead addr s
  | .latchedGroupRead addr => Sys2Proof.Machine.execLatchedGroupRead addr s
  | .mspWrite frame extraBits => Sys2Proof.Machine.execMspWrite frame extraBits s
  | .mspRead frame clocks => Sys2Proof.Machine.execMspRead frame clocks s
  | .mspStatus frame clocks => Sys2Proof.Machine.execMspStatus frame clocks s
  | .tableRead wmask => Sys2Proof.Machine.execTableRead wmask s
  | .tableWrite wmask => Sys2Proof.Machine.execTableWrite wmask s
  | .tableCmdNone wmask op3 => Sys2Proof.Machine.execTableCmdNone wmask op3 s
  | .epcCtrlBoundary run => Sys2Proof.Machine.execEpcCtrlBoundary run s
  | .glbNodeWrite w => Sys2Proof.Machine.execGlbNodeWrite w s
  | .clkCclkMWrite w => Sys2Proof.Machine.execClkCclkMWrite w s
  | .memScrubWrite w => Sys2Proof.Machine.execMemScrubWrite w s
  | .todIncrHiWrite w => Sys2Proof.Machine.execTodIncrHiWrite w s
  | .todIncrLoWrite w => Sys2Proof.Machine.execTodIncrLoWrite w s
  | .epcSchedSecWrite hi w => Sys2Proof.Machine.execEpcSchedSecWrite hi w s
  | .epcSchedNsWrite w => Sys2Proof.Machine.execEpcSchedNsWrite w s
  | .todApplyNone => Sys2Proof.Machine.execTodApplyNone s
  | .todApplyNow => Sys2Proof.Machine.execTodApplyNow s
  | .todApplyAtNextSecond => Sys2Proof.Machine.execTodApplyAtNextSecond s
  | .todApplyAtNextPps => Sys2Proof.Machine.execTodApplyAtNextPps s
  | .todCancel => Sys2Proof.Machine.execTodCancel s
  | .fltPop => Sys2Proof.Machine.execFltPop s
  | .wltCtrlEnSet p => Sys2Proof.Machine.execWltCtrlEnSet p s
  | .wltCtrlEnClear p => Sys2Proof.Machine.execWltCtrlEnClear p s
  | .wltCtrlRelease p => Sys2Proof.Machine.execWltCtrlRelease p s
  | .wltCtrlRetrain p => Sys2Proof.Machine.execWltCtrlRetrain p s
  | .twnPeerNodeWrite ctrl w => Sys2Proof.Machine.execTwnPeerNodeWrite ctrl w s
  | .twnCmdAdopt => Sys2Proof.Machine.execTwnCmdAdopt s
  | .periodExpiry => Sys2Proof.Machine.execPeriodExpiry s
  | .deadlineExpiry => Sys2Proof.Machine.execDeadlineExpiry s
  | .scheduleTrigger => Sys2Proof.Machine.execScheduleTrigger s
  | .knotSample => Sys2Proof.Machine.execKnotSample s
  | .drainComplete => Sys2Proof.Machine.execDrainComplete s
  | .flushComplete => Sys2Proof.Machine.execFlushComplete s
  | .commitEnd => Sys2Proof.Machine.execCommitEnd s
  | .clear => Sys2Proof.Machine.execClear s
  | .applyStaged => Sys2Proof.Machine.execApplyStaged s
  | .opening => Sys2Proof.Machine.execOpening s
  | .epochOpen => Sys2Proof.Machine.execEpochOpen s
  | .scheduleHoldRelease => Sys2Proof.Machine.execScheduleHoldRelease s
  | .submit p m => Sys2Proof.Machine.execSubmit p m s
  | .chainHeadTake q => Sys2Proof.Machine.execChainHeadTake q s
  | .descriptorFetch q => Sys2Proof.Machine.execDescriptorFetch q s
  | .descriptorReturn q => Sys2Proof.Machine.execDescriptorReturn q s
  | .lastRecordReturn q operand => Sys2Proof.Machine.execLastRecordReturn q operand s
  | .loop q => Sys2Proof.Machine.execLoop q s
  | .branch q => Sys2Proof.Machine.execBranch q s
  | .wait q => Sys2Proof.Machine.execWait q s
  | .waitSatisfied q => Sys2Proof.Machine.execWaitSatisfied q s
  | .waitTimeout q => Sys2Proof.Machine.execWaitTimeout q s
  | .tackAdd q => Sys2Proof.Machine.execTackAdd q s
  | .tackWrite q => Sys2Proof.Machine.execTackWrite q s
  | .cntWrite q => Sys2Proof.Machine.execCntWrite q s
  | .cntAdd q => Sys2Proof.Machine.execCntAdd q s
  | .srWrite q => Sys2Proof.Machine.execSrWrite q s
  | .cmpConfig q => Sys2Proof.Machine.execCmpConfig q s
  | .epochEnd q => Sys2Proof.Machine.execEpochEnd q s
  | .cobbler q => Sys2Proof.Machine.execCobbler q s
  | .srLoad q => Sys2Proof.Machine.execSrLoad q s
  | .srStore q => Sys2Proof.Machine.execSrStore q s
  | .add q => Sys2Proof.Machine.execAdd q s
  | .sub q => Sys2Proof.Machine.execSub q s
  | .mul q => Sys2Proof.Machine.execMul q s
  | .div q => Sys2Proof.Machine.execDiv q s
  | .max q => Sys2Proof.Machine.execMax q s
  | .min q => Sys2Proof.Machine.execMin q s
  | .fma q => Sys2Proof.Machine.execFma q s
  | .opAnd q => Sys2Proof.Machine.execOpAnd q s
  | .opOr q => Sys2Proof.Machine.execOpOr q s
  | .opXor q => Sys2Proof.Machine.execOpXor q s
  | .shl q => Sys2Proof.Machine.execShl q s
  | .shr q => Sys2Proof.Machine.execShr q s
  | .padd q => Sys2Proof.Machine.execPadd q s
  | .pmul q => Sys2Proof.Machine.execPmul q s
  | .select q => Sys2Proof.Machine.execSelect q s
  | .clamp q => Sys2Proof.Machine.execClamp q s
  | .abs q => Sys2Proof.Machine.execAbs q s
  | .neg q => Sys2Proof.Machine.execNeg q s
  | .opNot q => Sys2Proof.Machine.execOpNot q s
  | .relu q => Sys2Proof.Machine.execRelu q s
  | .lrelu q => Sys2Proof.Machine.execLrelu q s
  | .floor q => Sys2Proof.Machine.execFloor q s
  | .ceil q => Sys2Proof.Machine.execCeil q s
  | .rint q => Sys2Proof.Machine.execRint q s
  | .sign q => Sys2Proof.Machine.execSign q s
  | .exp q => Sys2Proof.Machine.execExp q s
  | .exp2 q => Sys2Proof.Machine.execExp2 q s
  | .log q => Sys2Proof.Machine.execLog q s
  | .log2 q => Sys2Proof.Machine.execLog2 q s
  | .recip q => Sys2Proof.Machine.execRecip q s
  | .rsqrt q => Sys2Proof.Machine.execRsqrt q s
  | .sqrt q => Sys2Proof.Machine.execSqrt q s
  | .tanh q => Sys2Proof.Machine.execTanh q s
  | .sigmoid q => Sys2Proof.Machine.execSigmoid q s
  | .gelu q => Sys2Proof.Machine.execGelu q s
  | .silu q => Sys2Proof.Machine.execSilu q s
  | .erf q => Sys2Proof.Machine.execErf q s
  | .sin q => Sys2Proof.Machine.execSin q s
  | .cos q => Sys2Proof.Machine.execCos q s
  | .softplus q => Sys2Proof.Machine.execSoftplus q s
  | .cmp q => Sys2Proof.Machine.execCmp q s
  | .rsum q => Sys2Proof.Machine.execRsum q s
  | .rcsum q => Sys2Proof.Machine.execRcsum q s
  | .rmax q => Sys2Proof.Machine.execRmax q s
  | .rmin q => Sys2Proof.Machine.execRmin q s
  | .rargmax q => Sys2Proof.Machine.execRargmax q s
  | .rargmin q => Sys2Proof.Machine.execRargmin q s
  | .rlse q => Sys2Proof.Machine.execRlse q s
  | .rsumsq q => Sys2Proof.Machine.execRsumsq q s
  | .rcount q => Sys2Proof.Machine.execRcount q s
  | .scansum q => Sys2Proof.Machine.execScansum q s
  | .scanmax q => Sys2Proof.Machine.execScanmax q s
  | .compact q => Sys2Proof.Machine.execCompact q s
  | .topk q => Sys2Proof.Machine.execTopk q s
  | .lnorm q => Sys2Proof.Machine.execLnorm q s
  | .rmsnorm q => Sys2Proof.Machine.execRmsnorm q s
  | .softmax q => Sys2Proof.Machine.execSoftmax q s
  | .gnorm q => Sys2Proof.Machine.execGnorm q s
  | .convert q => Sys2Proof.Machine.execConvert q s
  | .quantMx q => Sys2Proof.Machine.execQuantMx q s
  | .finish q => Sys2Proof.Machine.execFinish q s
  | .fill q => Sys2Proof.Machine.execFill q s
  | .iota q => Sys2Proof.Machine.execIota q s
  | .copy q => Sys2Proof.Machine.execCopy q s
  | .permute q => Sys2Proof.Machine.execPermute q s
  | .gather q => Sys2Proof.Machine.execGather q s
  | .scatter q => Sys2Proof.Machine.execScatter q s
  | .evEmit q => Sys2Proof.Machine.execEvEmit q s
  | .evCount q => Sys2Proof.Machine.execEvCount q s
  | .tileDeal q => Sys2Proof.Machine.execTileDeal q s
  | .tileExecute v => Sys2Proof.Machine.execTileExecute v s
  | .reductionCombine q => Sys2Proof.Machine.execReductionCombine q s
  | .contribution source home => Sys2Proof.Machine.execContribution source home s
  | .endMarker source home => Sys2Proof.Machine.execEndMarker source home s
  | .scatterWriteback home => Sys2Proof.Machine.execScatterWriteback home s
  | .tileResume source => Sys2Proof.Machine.execTileResume source s
  | .descriptorRetire q => Sys2Proof.Machine.execDescriptorRetire q s
  | .hbmAccessComplete h n => Sys2Proof.Machine.execHbmAccessComplete h n s
  | .hbmScrubStep h => Sys2Proof.Machine.execHbmScrubStep h s
  | .cbufScrubStep u => Sys2Proof.Machine.execCbufScrubStep u s
  | .cblAdd k => Sys2Proof.Machine.execCblAdd k s
  | .cblSub k => Sys2Proof.Machine.execCblSub k s
  | .cblAnd k => Sys2Proof.Machine.execCblAnd k s
  | .cblOr k => Sys2Proof.Machine.execCblOr k s
  | .cblXor k => Sys2Proof.Machine.execCblXor k s
  | .cblSll k => Sys2Proof.Machine.execCblSll k s
  | .cblSrl k => Sys2Proof.Machine.execCblSrl k s
  | .cblSra k => Sys2Proof.Machine.execCblSra k s
  | .cblSlt k => Sys2Proof.Machine.execCblSlt k s
  | .cblSltu k => Sys2Proof.Machine.execCblSltu k s
  | .cblMin k => Sys2Proof.Machine.execCblMin k s
  | .cblMax k => Sys2Proof.Machine.execCblMax k s
  | .cblMul k => Sys2Proof.Machine.execCblMul k s
  | .cblMulh k => Sys2Proof.Machine.execCblMulh k s
  | .cblDiv k => Sys2Proof.Machine.execCblDiv k s
  | .cblDivu k => Sys2Proof.Machine.execCblDivu k s
  | .cblRem k => Sys2Proof.Machine.execCblRem k s
  | .cblRemu k => Sys2Proof.Machine.execCblRemu k s
  | .cblAddi k => Sys2Proof.Machine.execCblAddi k s
  | .cblAndi k => Sys2Proof.Machine.execCblAndi k s
  | .cblOri k => Sys2Proof.Machine.execCblOri k s
  | .cblXori k => Sys2Proof.Machine.execCblXori k s
  | .cblSlli k => Sys2Proof.Machine.execCblSlli k s
  | .cblSrli k => Sys2Proof.Machine.execCblSrli k s
  | .cblSrai k => Sys2Proof.Machine.execCblSrai k s
  | .cblSlti k => Sys2Proof.Machine.execCblSlti k s
  | .cblLui k => Sys2Proof.Machine.execCblLui k s
  | .cblLb k => Sys2Proof.Machine.execCblLb k s
  | .cblLbu k => Sys2Proof.Machine.execCblLbu k s
  | .cblLh k => Sys2Proof.Machine.execCblLh k s
  | .cblLhu k => Sys2Proof.Machine.execCblLhu k s
  | .cblLw k => Sys2Proof.Machine.execCblLw k s
  | .cblSb k => Sys2Proof.Machine.execCblSb k s
  | .cblSh k => Sys2Proof.Machine.execCblSh k s
  | .cblSw k => Sys2Proof.Machine.execCblSw k s
  | .cblLwc k => Sys2Proof.Machine.execCblLwc k s
  | .cblSwc k => Sys2Proof.Machine.execCblSwc k s
  | .cblCget k => Sys2Proof.Machine.execCblCget k s
  | .cblCput k => Sys2Proof.Machine.execCblCput k s
  | .cblLwh k => Sys2Proof.Machine.execCblLwh k s
  | .cblSwh k => Sys2Proof.Machine.execCblSwh k s
  | .cblHget k => Sys2Proof.Machine.execCblHget k s
  | .cblHput k => Sys2Proof.Machine.execCblHput k s
  | .cblHbmComplete k n => Sys2Proof.Machine.execCblHbmComplete k n s
  | .cblFence k => Sys2Proof.Machine.execCblFence k s
  | .cblBeq k => Sys2Proof.Machine.execCblBeq k s
  | .cblBne k => Sys2Proof.Machine.execCblBne k s
  | .cblBlt k => Sys2Proof.Machine.execCblBlt k s
  | .cblBge k => Sys2Proof.Machine.execCblBge k s
  | .cblBltu k => Sys2Proof.Machine.execCblBltu k s
  | .cblBgeu k => Sys2Proof.Machine.execCblBgeu k s
  | .cblJal k => Sys2Proof.Machine.execCblJal k s
  | .cblJalr k => Sys2Proof.Machine.execCblJalr k s
  | .cblTsetAdd k => Sys2Proof.Machine.execCblTsetAdd k s
  | .cblTsetWrite k => Sys2Proof.Machine.execCblTsetWrite k s
  | .cblTwait k => Sys2Proof.Machine.execCblTwait k s
  | .cblTwaitSatisfied k => Sys2Proof.Machine.execCblTwaitSatisfied k s
  | .cblTwaitTimeout k => Sys2Proof.Machine.execCblTwaitTimeout k s
  | .cblSrrd k => Sys2Proof.Machine.execCblSrrd k s
  | .cblSrwr k => Sys2Proof.Machine.execCblSrwr k s
  | .cblSubmit k => Sys2Proof.Machine.execCblSubmit k s
  | .cblHalt k => Sys2Proof.Machine.execCblHalt k s
  | .cblLineFill k => Sys2Proof.Machine.execCblLineFill k s
  | .eventDeliver v => Sys2Proof.Machine.execEventDeliver v s
  | .deliveryEnd v => Sys2Proof.Machine.execDeliveryEnd v s
  | .stretchLimit => Sys2Proof.Machine.execStretchLimit s
  | .flitSlotTransmit p => Sys2Proof.Machine.execFlitSlotTransmit p s
  | .flitReceive p flit => Sys2Proof.Machine.execFlitReceive p flit s
  | .nakResend p => Sys2Proof.Machine.execNakResend p s
  | .replayTimeout p => Sys2Proof.Machine.execReplayTimeout p s
  | .downRetryExpiry p => Sys2Proof.Machine.execDownRetryExpiry p s
  | .laneLock p lane => Sys2Proof.Machine.execLaneLock p lane s
  | .trainTimeout p => Sys2Proof.Machine.execTrainTimeout p s
  | .alignTimeout p => Sys2Proof.Machine.execAlignTimeout p s
  | .laneBad p lane => Sys2Proof.Machine.execLaneBad p lane s
  | .laneSwitch p => Sys2Proof.Machine.execLaneSwitch p s
  | .align p f => Sys2Proof.Machine.execAlign p f s
  | .alignDone p f => Sys2Proof.Machine.execAlignDone p f s
  | .laneMap p f => Sys2Proof.Machine.execLaneMap p f s
  | .laneMapDone p f => Sys2Proof.Machine.execLaneMapDone p f s
  | .hello p m => Sys2Proof.Machine.execHello p m s
  | .helloResend p => Sys2Proof.Machine.execHelloResend p s
  | .helloTimeout p => Sys2Proof.Machine.execHelloTimeout p s
  | .heartbeat p m => Sys2Proof.Machine.execHeartbeat p m s
  | .heartbeatSend p => Sys2Proof.Machine.execHeartbeatSend p s
  | .heartbeatTimeout p => Sys2Proof.Machine.execHeartbeatTimeout p s
  | .read p m => Sys2Proof.Machine.execRead p m s
  | .write p m => Sys2Proof.Machine.execWrite p m s
  | .tackSet p m => Sys2Proof.Machine.execTackSet p m s
  | .epochCtrl p m => Sys2Proof.Machine.execEpochCtrl p m s
  | .readRsp p m => Sys2Proof.Machine.execReadRsp p m s
  | .writeAck p m => Sys2Proof.Machine.execWriteAck p m s
  | .eventBatch p m => Sys2Proof.Machine.execEventBatch p m s
  | .streamData p m => Sys2Proof.Machine.execStreamData p m s
  | .framePublish c => Sys2Proof.Machine.execFramePublish c s
  | .requestSend p => Sys2Proof.Machine.execRequestSend p s
  | .requestTimeout p txn => Sys2Proof.Machine.execRequestTimeout p txn s
  | .creditStallFence p => Sys2Proof.Machine.execCreditStallFence p s
  | .quotaRefill p => Sys2Proof.Machine.execQuotaRefill p s
  | .strikeLeak => Sys2Proof.Machine.execStrikeLeak s
  | .jrnl m => Sys2Proof.Machine.execJrnl m s
  | .commit m => Sys2Proof.Machine.execCommit m s
  | .commitAck m => Sys2Proof.Machine.execCommitAck m s
  | .commitTimeout => Sys2Proof.Machine.execCommitTimeout s
  | .tstate m => Sys2Proof.Machine.execTstate m s
  | .tdown m => Sys2Proof.Machine.execTdown m s
  | .replicaApply => Sys2Proof.Machine.execReplicaApply s
  | .seedWalk => Sys2Proof.Machine.execSeedWalk s
  | .refCheckFail r cause offset => Sys2Proof.Machine.execRefCheckFail r cause offset s
  | .refQualify r offset => Sys2Proof.Machine.execRefQualify r offset s
  | .revertHoldoffExpiry => Sys2Proof.Machine.execRevertHoldoffExpiry s
  | .refSwitchEnd => Sys2Proof.Machine.execRefSwitchEnd s
  | .freqChangeEnd => Sys2Proof.Machine.execFreqChangeEnd s
  | .todRollover => Sys2Proof.Machine.execTodRollover s
  | .ppsOutFall => Sys2Proof.Machine.execPpsOutFall s
  | .ppsEdge high => Sys2Proof.Machine.execPpsEdge high s
  | .faultRingCopy => Sys2Proof.Machine.execFaultRingCopy s
  | .traceRecordWrite => Sys2Proof.Machine.execTraceRecordWrite s
  | .containment unit => Sys2Proof.Machine.execContainment unit s
  | .supplyFault => Sys2Proof.Machine.execSupplyFault s
  | .porstAssert => Sys2Proof.Machine.execPorstAssert s
  | .porstRelease straps => Sys2Proof.Machine.execPorstRelease straps s
  | .pllLock => Sys2Proof.Machine.execPllLock s
  | .bistComplete failed => Sys2Proof.Machine.execBistComplete failed s
  | .hbmTrainingComplete h ok => Sys2Proof.Machine.execHbmTrainingComplete h ok s
  | .zeroFillComplete h => Sys2Proof.Machine.execZeroFillComplete h s
  | .warmrstAssert => Sys2Proof.Machine.execWarmrstAssert s
  | .warmResetPoint => Sys2Proof.Machine.execWarmResetPoint s
  | .warmrstRelease => Sys2Proof.Machine.execWarmrstRelease s
  | .warmSequenceEnd failed => Sys2Proof.Machine.execWarmSequenceEnd failed s
  | .cblIllegal k => Sys2Proof.Machine.execCblIllegal k s
  | .malformedMessage p m => Sys2Proof.Machine.execMalformedMessage p m s
  | .lateRsp p m => Sys2Proof.Machine.execLateRsp p m s
  | .supplyReturn => Sys2Proof.Machine.execSupplyReturn s
  | .jtagAccess instr shift => Sys2Proof.Machine.execJtagAccess instr shift s

end Sys2Proof.Machine
end

