-- ==== Sys2Proof/WellFormed.lean ====
section
/-! DEFINITION. Which commands are well formed: operands that name a register, a unit, a check or a message field stay in
the range the spec gives them. Operands typed `Fin` are in range by their type. -/

namespace Sys2Proof

/-- The address of a direct register word (R367, R380). -/
def regAddrOk (a : Nat) : Bool := decide (a % 4 = 0) && decide (a < 0x1000)

/-- The first register of a latched group (Table 18.3). -/
def groupFirst (a : Nat) : Bool := [0x0018, 0x0188, 0x01B0, 0x0208, 0x0430, 0x0438].contains a

/-- The units a self-test names (Table 18.14). -/
def unitsOk (us : List Nat) : Bool := us.all fun u => decide (u < 105)

/-- A cause of Table 18.5 that a check of Table 16.2 gives: ACTIVITY, COARSE, FINE, and LANE for REFT. -/
def causeOk (r cause : Nat) : Bool := [1, 2, 3].contains cause || (cause == 5 && r == 2)

/-- The fields of a message header stay in their widths (Table 12.13). -/
def Msg.fits (m : Msg) : Bool :=
  decide (m.type < 2 ^ 8) && decide (m.dst < 2 ^ 10) && decide (m.src < 2 ^ 10) && decide (m.tenant < 2 ^ 5) &&
  decide (m.tag < 2 ^ 24) && decide (m.txn < 2 ^ 16) && decide (m.status < 2 ^ 8) && decide (m.fault < 2 ^ 8) &&
  decide (m.rsvd < 2 ^ 15) && decide (m.len < 2 ^ 16) && decide (m.payload.length ≤ m.len)

/-- The fields of a link-control flit stay in their widths (Table 12.11). -/
def Lctrl.fits (f : Lctrl) : Bool :=
  decide (f.ltype < 2 ^ 8) && decide (f.lanes < 2 ^ 8) && decide (f.crMg < 2 ^ 8) && decide (f.crRs < 2 ^ 8) &&
  decide (f.crRq < 2 ^ 8) && decide (f.crEv < 2 ^ 8) && decide (f.session < 2 ^ 32) && decide (f.keyId < 2)

/-- A command is well formed. -/
def Instr.wellFormed : Instr → Bool
  | .registerWrite addr _ => regAddrOk addr
  | .rcRead addr => regAddrOk addr
  | .latchedGroupRead addr => groupFirst addr
  | .mspWrite _ extraBits => decide (extraBits < 8)
  | .submit _ m => m.fits
  | .flitReceive _ flit => decide (flit.length = 256)
  | .align _ f => f.fits
  | .alignDone _ f => f.fits
  | .laneMap _ f => f.fits
  | .laneMapDone _ f => f.fits
  | .hello _ m => m.fits
  | .heartbeat _ m => m.fits
  | .read _ m => m.fits
  | .write _ m => m.fits
  | .tackSet _ m => m.fits
  | .epochCtrl _ m => m.fits
  | .readRsp _ m => m.fits
  | .writeAck _ m => m.fits
  | .eventBatch _ m => m.fits
  | .streamData _ m => m.fits
  | .requestTimeout _ txn => decide (txn < 2 ^ 16)
  | .jrnl m => m.fits
  | .commit m => m.fits
  | .commitAck m => m.fits
  | .tstate m => m.fits
  | .tdown m => m.fits
  | .refCheckFail r cause _ => causeOk r.val cause
  | .bistComplete failed => unitsOk failed
  | .warmSequenceEnd failed => unitsOk failed
  | .malformedMessage _ m => m.fits
  | .lateRsp _ m => m.fits
  | .mspRead _ _ | .mspStatus _ _ | .tableRead _ | .tableWrite _ | .tableCmdNone _ _ | .epcCtrlBoundary _
  | .glbNodeWrite _ | .clkCclkMWrite _ | .memScrubWrite _ | .todIncrHiWrite _ | .todIncrLoWrite _
  | .epcSchedSecWrite _ _ | .epcSchedNsWrite _ | .todApplyNone | .todApplyNow | .todApplyAtNextSecond
  | .todApplyAtNextPps | .todCancel | .fltPop | .wltCtrlEnSet _ | .wltCtrlEnClear _ | .wltCtrlRelease _
  | .wltCtrlRetrain _ | .twnPeerNodeWrite _ _ | .twnCmdAdopt | .periodExpiry | .deadlineExpiry | .scheduleTrigger
  | .knotSample | .drainComplete | .flushComplete | .commitEnd | .clear | .applyStaged | .opening | .epochOpen
  | .scheduleHoldRelease | .chainHeadTake _ | .descriptorFetch _ | .descriptorReturn _ | .lastRecordReturn _ _
  | .loop _ | .branch _ | .wait _ | .waitSatisfied _ | .waitTimeout _ | .tackAdd _ | .tackWrite _ | .cntWrite _
  | .cntAdd _ | .srWrite _ | .cmpConfig _ | .epochEnd _ | .cobbler _ | .srLoad _ | .srStore _ | .add _ | .sub _
  | .mul _ | .div _ | .max _ | .min _ | .fma _ | .opAnd _ | .opOr _ | .opXor _ | .shl _ | .shr _ | .padd _ | .pmul _
  | .select _ | .clamp _ | .abs _ | .neg _ | .opNot _ | .relu _ | .lrelu _ | .floor _ | .ceil _ | .rint _ | .sign _
  | .exp _ | .exp2 _ | .log _ | .log2 _ | .recip _ | .rsqrt _ | .sqrt _ | .tanh _ | .sigmoid _ | .gelu _ | .silu _
  | .erf _ | .sin _ | .cos _ | .softplus _ | .cmp _ | .rsum _ | .rcsum _ | .rmax _ | .rmin _ | .rargmax _
  | .rargmin _ | .rlse _ | .rsumsq _ | .rcount _ | .scansum _ | .scanmax _ | .compact _ | .topk _ | .lnorm _
  | .rmsnorm _ | .softmax _ | .gnorm _ | .convert _ | .quantMx _ | .finish _ | .fill _ | .iota _ | .copy _
  | .permute _ | .gather _ | .scatter _ | .evEmit _ | .evCount _ | .tileDeal _ | .tileExecute _ | .reductionCombine _
  | .contribution _ _ | .endMarker _ _ | .scatterWriteback _ | .tileResume _ | .descriptorRetire _
  | .hbmAccessComplete _ _ | .hbmScrubStep _ | .cbufScrubStep _ | .cblAdd _ | .cblSub _ | .cblAnd _ | .cblOr _
  | .cblXor _ | .cblSll _ | .cblSrl _ | .cblSra _ | .cblSlt _ | .cblSltu _ | .cblMin _ | .cblMax _ | .cblMul _
  | .cblMulh _ | .cblDiv _ | .cblDivu _ | .cblRem _ | .cblRemu _ | .cblAddi _ | .cblAndi _ | .cblOri _ | .cblXori _
  | .cblSlli _ | .cblSrli _ | .cblSrai _ | .cblSlti _ | .cblLui _ | .cblLb _ | .cblLbu _ | .cblLh _ | .cblLhu _
  | .cblLw _ | .cblSb _ | .cblSh _ | .cblSw _ | .cblLwc _ | .cblSwc _ | .cblCget _ | .cblCput _ | .cblLwh _
  | .cblSwh _ | .cblHget _ | .cblHput _ | .cblHbmComplete _ _ | .cblFence _ | .cblBeq _ | .cblBne _ | .cblBlt _
  | .cblBge _ | .cblBltu _ | .cblBgeu _ | .cblJal _ | .cblJalr _ | .cblTsetAdd _ | .cblTsetWrite _ | .cblTwait _
  | .cblTwaitSatisfied _ | .cblTwaitTimeout _ | .cblSrrd _ | .cblSrwr _ | .cblSubmit _ | .cblHalt _ | .cblLineFill _
  | .eventDeliver _ | .deliveryEnd _ | .stretchLimit | .flitSlotTransmit _ | .nakResend _ | .replayTimeout _
  | .downRetryExpiry _ | .laneLock _ _ | .trainTimeout _ | .alignTimeout _ | .laneBad _ _ | .laneSwitch _
  | .helloResend _ | .helloTimeout _ | .heartbeatSend _ | .heartbeatTimeout _ | .framePublish _ | .requestSend _
  | .creditStallFence _ | .quotaRefill _ | .strikeLeak | .commitTimeout | .replicaApply | .seedWalk | .refQualify _ _
  | .revertHoldoffExpiry | .refSwitchEnd | .freqChangeEnd | .todRollover | .ppsOutFall | .ppsEdge _ | .faultRingCopy
  | .traceRecordWrite | .containment _ | .supplyFault | .porstAssert | .porstRelease _ | .pllLock
  | .hbmTrainingComplete _ _ | .zeroFillComplete _ | .warmrstAssert | .warmResetPoint | .warmrstRelease
  | .cblIllegal _ | .supplyReturn | .jtagAccess _ _ => true

end Sys2Proof
end

