-- ==== Sys2Proof/Safety.lean ====
section
/-! DEFINITION. What counts as a good state: the canonical form of the memories, and the ranges the spec gives values
that every command must keep. The words in which statements speak of registers and of what stays. -/

namespace Sys2Proof.Machine

/-- HBM, CBUF and Cobbler local memory are in canonical form: addresses strictly rising, no entry equal to what an
unlisted address reads as. -/
def Memory.wf (m : MemSt) : Bool := mwf zeroByte m.hbm && mwf zeroByte m.sram

/-- Every waiting command is well formed. -/
def queueOk (s : State) : Bool := s.pending.all Instr.wellFormed

/-- CCLK runs at a multiplier of R338, and a change under way leads to one. -/
def clockOk (s : State) : Bool :=
  decide (32 ≤ s.clk.m) && decide (s.clk.m ≤ 48) &&
  (match s.clk.change with
   | none => true
   | some (m, _) => decide (32 ≤ m) && decide (m ≤ 48))

/-- TOD is a time: nanoseconds below one second, a 48-bit fraction, 48-bit seconds (R352); INCR has its 52 bits (R353). -/
def todOk (s : State) : Bool :=
  decide (s.tod.ns < 10 ^ 9) && decide (s.tod.frac < 2 ^ 48) && decide (s.tod.sec < 2 ^ 48) && decide (s.tod.incr < 2 ^ 52) &&
  (match s.tod.hold with
   | none => true
   | some h => decide (h < 2 ^ 20)) &&
  s.nextFx.all fun f => match f with
    | .incr v => decide (v < 2 ^ 52)
    | _ => true

/-- Before the PLL locks, in reset and in the test mode, GLB_CCNT and TOD stand still; in reset something holds the Veper, and
outside it nothing does (R354, R410, R411, R415). -/
def powerOk (s : State) : Bool :=
  match s.power.stage with
  | .porst => !s.power.pllLock && (s.power.porstLow || s.power.supplyLow)
  | .test => !s.power.pllLock && !s.power.porstLow && !s.power.supplyLow
  | .locking => !s.power.pllLock && !s.power.porstLow && !s.power.supplyLow
  | _ => s.power.pllLock && !s.power.porstLow && !s.power.supplyLow

/-- A register's address whose write does more than store fields: it has a command of its own (chapter 18). -/
def commandReg (a : Nat) : Bool :=
  [0x000C, 0x0108, 0x0180, 0x01A8, 0x01AC, 0x0200, 0x0238, 0x023C, 0x0240, 0x0304, 0x0400, 0x0404, 0x040C, 0x0450, 0x0480,
    0x0504, 0x0628].contains a

/-- A register whose write, beside its fields, touches the clock selection or PPS_OUT (R344, R362). -/
def clockReg (a : Nat) : Bool := [0x0100, 0x010C, 0x0110, 0x0114, 0x01C8].contains a

/-- The queue a data opcode's command names and the OPCODE of Table 05.2 it issues; none for another command. -/
def dataOpcode : Instr → Option (Fin 64 × Nat)
  | .add q => some (q, 0x10) | .sub q => some (q, 0x11) | .mul q => some (q, 0x12)
  | .div q => some (q, 0x13) | .max q => some (q, 0x14) | .min q => some (q, 0x15)
  | .fma q => some (q, 0x16) | .opAnd q => some (q, 0x17) | .opOr q => some (q, 0x18)
  | .opXor q => some (q, 0x19) | .shl q => some (q, 0x1A) | .shr q => some (q, 0x1B)
  | .padd q => some (q, 0x1C) | .pmul q => some (q, 0x1D) | .select q => some (q, 0x1E)
  | .clamp q => some (q, 0x1F) | .abs q => some (q, 0x20) | .neg q => some (q, 0x21)
  | .opNot q => some (q, 0x22) | .relu q => some (q, 0x23) | .lrelu q => some (q, 0x24)
  | .floor q => some (q, 0x25) | .ceil q => some (q, 0x26) | .rint q => some (q, 0x27)
  | .sign q => some (q, 0x28) | .exp q => some (q, 0x30) | .exp2 q => some (q, 0x31)
  | .log q => some (q, 0x32) | .log2 q => some (q, 0x33) | .recip q => some (q, 0x34)
  | .rsqrt q => some (q, 0x35) | .sqrt q => some (q, 0x36) | .tanh q => some (q, 0x37)
  | .sigmoid q => some (q, 0x38) | .gelu q => some (q, 0x39) | .silu q => some (q, 0x3A)
  | .erf q => some (q, 0x3B) | .sin q => some (q, 0x3C) | .cos q => some (q, 0x3D)
  | .softplus q => some (q, 0x3E) | .cmp q => some (q, 0x40) | .rsum q => some (q, 0x50)
  | .rcsum q => some (q, 0x51) | .rmax q => some (q, 0x52) | .rmin q => some (q, 0x53)
  | .rargmax q => some (q, 0x54) | .rargmin q => some (q, 0x55) | .rlse q => some (q, 0x56)
  | .rsumsq q => some (q, 0x57) | .rcount q => some (q, 0x58) | .scansum q => some (q, 0x60)
  | .scanmax q => some (q, 0x61) | .compact q => some (q, 0x62) | .topk q => some (q, 0x68)
  | .lnorm q => some (q, 0x70) | .rmsnorm q => some (q, 0x71) | .softmax q => some (q, 0x72)
  | .gnorm q => some (q, 0x73) | .convert q => some (q, 0x80) | .quantMx q => some (q, 0x81)
  | .finish q => some (q, 0x82) | .fill q => some (q, 0x88) | .iota q => some (q, 0x89)
  | .copy q => some (q, 0x90) | .permute q => some (q, 0x91) | .gather q => some (q, 0x92)
  | .scatter q => some (q, 0x93) | .evEmit q => some (q, 0xA0) | .evCount q => some (q, 0xA1)
  | _ => none

/-- The work of the queue engine, the Clicker, the retire unit, the VCs, Cobblers and the event plane: what a change of M
and containment hold still (R339, R400). -/
def isWork (c : Instr) : Bool :=
  (dataOpcode c).isSome || match c with
  | .chainHeadTake _ | .descriptorFetch _ | .descriptorReturn _ | .lastRecordReturn _ _ | .loop _ | .branch _ | .wait _
  | .waitSatisfied _ | .waitTimeout _ | .tackAdd _ | .tackWrite _ | .cntWrite _ | .cntAdd _ | .srWrite _ | .cmpConfig _
  | .epochEnd _ | .cobbler _ | .srLoad _ | .srStore _ | .tileDeal _ | .tileExecute _ | .reductionCombine _ | .descriptorRetire _
  | .knotSample | .eventDeliver _ | .deliveryEnd _ | .cblAdd _ | .cblSub _ | .cblAnd _ | .cblOr _ | .cblXor _ | .cblSll _ | .cblSrl _
  | .cblSra _ | .cblSlt _ | .cblSltu _ | .cblMin _ | .cblMax _ | .cblMul _ | .cblMulh _ | .cblDiv _ | .cblDivu _ | .cblRem _
  | .cblRemu _ | .cblAddi _ | .cblAndi _ | .cblOri _ | .cblXori _ | .cblSlli _ | .cblSrli _ | .cblSrai _ | .cblSlti _ | .cblLui _
  | .cblLb _ | .cblLbu _ | .cblLh _ | .cblLhu _ | .cblLw _ | .cblSb _ | .cblSh _ | .cblSw _ | .cblLwc _ | .cblSwc _ | .cblCget _
  | .cblCput _ | .cblLwh _ | .cblSwh _ | .cblHget _ | .cblHput _ | .cblFence _ | .cblBeq _ | .cblBne _ | .cblBlt _ | .cblBge _
  | .cblBltu _ | .cblBgeu _ | .cblJal _ | .cblJalr _ | .cblTsetAdd _ | .cblTsetWrite _ | .cblTwait _ | .cblTwaitSatisfied _
  | .contribution _ _ | .endMarker _ _ | .scatterWriteback _ | .tileResume _ | .cblTwaitTimeout _ | .cblSrrd _ | .cblSrwr _ | .cblSubmit _ | .cblHalt _ | .cblIllegal _ => true
  | _ => false

/-! ### Cobbler instructions -/

/-- Every Cobbler holds sixteen 32-bit registers and a PC that is a multiple of 4 (R186, R187). -/
def cblOk (s : State) : Bool :=
  s.cbls.all fun e => e.2.regs.length == 16 && e.2.regs.all (fun r => decide (r < 2 ^ 32)) && e.2.pc % 4 == 0

/-- The legal word `w` of opcode `op` stands at the PC of Cobbler `k` and nothing holds it back. -/
def cblReady (s : State) (k op w : Nat) : Bool :=
  cWord s k == some w && cOp w == op && cLegal w && decide (2 ≤ s.eff (64 + k)) && cClear s k w

/-- A PC lies in the image of Cobbler `k`'s program, and the fetch buffer's words of the instruction that goes there
hold no error (R192, R238). -/
def cblPath (s : State) (k pc : Nat) : Bool :=
  decide (pc < 128 * (s.cbl k).len) &&
  ((s.cbl k).lines.find? fun l => l.no == (s.cbl k).pc / 128 && l.bytes.isSome).all fun l => l.err == .clean

/-- Cobbler `k` goes from `s` to `t` to the instruction at `pc`: no other Cobbler, no memory, tack or scalar register
changes, and while `pc` lies on its path nothing but its program and its descriptor's count of started programs does. -/
def cblStep (s t : State) (k pc : Nat) : Prop :=
  (t.cbl k).pc = pc ∧ (∀ j, j ≠ k → t.cbl j = s.cbl j) ∧ t.mem = s.mem ∧ t.tacks = s.tacks ∧ t.tackUpd = s.tackUpd ∧
  t.srPend = s.srPend ∧
  (cblPath s k pc = true → (t.cbl k).running = true ∧ t = { s with cbls := t.cbls, queues := t.queues, cc := t.cc })

/-- Of Cobbler `k`'s registers only `rd` changes, to `v`; c0 stays 0. -/
def cblWrote (s t : State) (k rd : Nat) (v : BitVec 32) : Prop :=
  ∀ i, i < 16 → cReg t k i = if i = rd ∧ i ≠ 0 then v.toNat else cReg s k i

/-- The program of Cobbler `k` ended with a fault of code `code` at PC `pc` and address `a` (R202). -/
def cblFaulted (s t : State) (k code pc a : Nat) : Prop :=
  (t.cbl k).running = false ∧ (t.cbl k).regs = (s.cbl k).regs ∧ t.mem.hbm = s.mem.hbm ∧ t.mem.sram = s.mem.sram ∧
  ∃ e, e ∈ t.flt.due ∧ e.2.code = code ∧ e.2.unit = 64 + k ∧ e.2.detail = a % 2 ^ 32 * 2 ^ 32 + pc % 2 ^ 16 ∧ e.2.level = 1

/-- Cobbler, opcode, bytes and sign extension of a load from local memory. -/
def localLoad : Instr → Option (Fin 16 × Nat × Nat × Bool)
  | .cblLb k => some (k, 0x20, 1, true)
  | .cblLbu k => some (k, 0x21, 1, false)
  | .cblLh k => some (k, 0x22, 2, true)
  | .cblLhu k => some (k, 0x23, 2, false)
  | .cblLw k => some (k, 0x24, 4, false)
  | _ => none

/-- Cobbler, opcode and bytes of a store to local memory. -/
def localStore : Instr → Option (Fin 16 × Nat × Nat)
  | .cblSb k => some (k, 0x25, 1)
  | .cblSh k => some (k, 0x26, 2)
  | .cblSw k => some (k, 0x27, 4)
  | _ => none

/-- A byte of CBUF or local memory as it is read: 0 in a word whose valid bit is clear (R233). -/
def State.sramByte (s : State) (a : Nat) : Byte := if s.wordValid (a / 16) then mget zeroByte s.mem.sram a else 0

/-- The words that hold [a, a + n) belong to units that are not OFF, their parity is right, they hold no error, and nothing has
written them in this cc. -/
def sramQuiet (s : State) (a n : Nat) : Prop :=
  ∀ w, a / 16 ≤ w → w * 16 < a + n →
    s.eff (sramUnit w) ≠ 0 ∧ mget (fun _ => false) s.mem.badPar (w / 32) = false ∧ (s.wordValid w = true → s.wordErr w = .clean) ∧
    ∀ p, p ∈ s.cc.sram → p.cell ≠ w

/-- The lines that hold [pa, pa + n) belong to controllers that are ON, hold no error, and nothing has written them in this cc. -/
def hbmQuiet (s : State) (pa n : Nat) : Prop :=
  ∀ l, pa / 64 ≤ l → l * 64 < pa + n → s.eff (88 + stackOf (l * 64)) = 3 ∧ s.lineErr l = .clean ∧
    ∀ p, p ∈ s.cc.hbm → p.cell ≠ l

/-- No descriptor of a queue's read-ahead has failed a check. -/
def noBad (l : List Fetch) : Bool := l.all fun f => match f.phase with
  | .bad _ _ _ => false
  | _ => true

/-! ### Values -/

/-- The finite value n / d. -/
def valueIs (x : Num) (n : Int) (d : Nat) : Prop := x.fin = true ∧ 0 < x.den ∧ x.sgn * d = n * x.den

/-- The floating formats of Table 06.3. -/
def formats : List Fmt := [fmtFP32, fmtBF16, fmtFP16, fmtE4M3, fmtE5M2, fmtE3M2, fmtE2M3, fmtE2M1]

end Sys2Proof.Machine
end

