-- ==== Sys2Proof/Certificates/Slice0/Obligations.lean ====
section
/-! DEFINITION. The statements for the provers. Each docstring names the rules of the spec it formalises. -/

open Sys2Proof Sys2Proof.Machine

/-! ### The step -/

/-- A step runs the command at the front of the queue on the state with the queue's rest. -/
def Obligations.StepRunsFrontCommand : Prop :=
  ∀ (s : State) (c : Instr) (cs : List Instr), s.pending = c :: cs → step s = exec c { s with pending := cs }

/-! ### Registers and the MSP (chapters 00, 17, 18) -/

/-- R1: REGISTER_WRITE stores the RW fields, clears the W1C bits written 1, but for those set in this cc, and keeps every other
bit of the register and every other register. Registers with a command of their own are apart; a write of a CLK register may
also move the clock selection, with its counts, and one of TOD_PPSO PPS_OUT. R1, R370: a write of a register that has a command
of its own is that command. R365: while DEV_READY is low or a change of M is under way, register commands and frames have no
effect (a frame drives nothing). R6, R367: past 0x0FFC a word written has no effect and a word read is 0; an address that is no
multiple of 4 is refused with FRAME_ERR and outcome ADDRESS, and 0 is driven (the register commands' form of these is log entry
106's). -/
def Obligations.RegisterWriteStoresFields : Prop :=
  (∀ (s : State) (a : Nat) (w : Word), regAddrOk a = true → s.mspOn = true → commandReg a = false →
     ∃ t, exec (.registerWrite a w) s = .next t ∧
       (∀ i, bit (t.reg (regKey s a)) i =
         if bit (rwMask a) i then bit w.toNat i
         else bit (s.reg (regKey s a)) i && !(bit (w1cMask a) i && bit w.toNat i && !s.cc.sets.contains (regKey s a, i))) ∧
       (∀ k, k ≠ regKey s a → k ∉ [0x0104, 0x012C, 0x0130] → t.reg k = s.reg k) ∧
       t = { s with regs := t.regs, cc := t.cc, clk := t.clk, tod := t.tod, units := t.units } ∧
       (clockReg a = false → (∀ k, k ≠ regKey s a → t.reg k = s.reg k) ∧ t = { s with regs := t.regs })) ∧
  (∀ (s : State) (w : Word), s.mspOn = true →
     exec (.registerWrite 0x000C w) s = exec (.glbNodeWrite w) s ∧
     exec (.registerWrite 0x0108 w) s = exec (.clkCclkMWrite w) s ∧
     exec (.registerWrite 0x01A8 w) s = exec (.todIncrHiWrite w) s ∧
     exec (.registerWrite 0x01AC w) s = exec (.todIncrLoWrite w) s ∧
     exec (.registerWrite 0x0238 w) s = exec (.epcSchedSecWrite true w) s ∧
     exec (.registerWrite 0x023C w) s = exec (.epcSchedSecWrite false w) s ∧
     exec (.registerWrite 0x0240 w) s = exec (.epcSchedNsWrite w) s ∧
     exec (.registerWrite 0x0400 w) s = exec (.twnPeerNodeWrite true w) s ∧
     exec (.registerWrite 0x040C w) s = exec (.twnPeerNodeWrite false w) s ∧
     exec (.registerWrite 0x0480 w) s = exec (.memScrubWrite w) s ∧
     (bit w.toNat 1 = true → exec (.registerWrite 0x0200 w) s = exec (.epcCtrlBoundary (bit w.toNat 0)) s) ∧
     (bit w.toNat 0 = true → exec (.registerWrite 0x0404 w) s = exec .twnCmdAdopt s) ∧
     (bit w.toNat 0 = true → exec (.registerWrite 0x0504 w) s = exec .fltPop s) ∧
     (w.toNat % 4 = 1 → exec (.registerWrite 0x0628 w) s = exec (.tableRead (BitVec.ofNat 8 (w.toNat / 256))) s) ∧
     (w.toNat % 4 = 2 → exec (.registerWrite 0x0628 w) s = exec (.tableWrite (BitVec.ofNat 8 (w.toNat / 256))) s)) ∧
  (∀ (s : State), s.mspOn = false →
     (∀ a w, exec (.registerWrite a w) s = .next s ∧ exec (.rcRead a) s = .next s ∧ exec (.latchedGroupRead a) s = .next s) ∧
     (∀ f n, exec (.mspWrite f n) s = .next { s with msp := { s.msp with sdo := [] } } ∧
       exec (.mspRead f n) s = .next { s with msp := { s.msp with sdo := [] } } ∧
       exec (.mspStatus f n) s = .next { s with msp := { s.msp with sdo := [] } }) ∧
     (∀ w, exec (.glbNodeWrite w) s = .next s ∧ exec (.clkCclkMWrite w) s = .next s ∧ exec (.memScrubWrite w) s = .next s ∧
       exec (.todIncrHiWrite w) s = .next s ∧ exec (.todIncrLoWrite w) s = .next s ∧ exec (.epcSchedNsWrite w) s = .next s) ∧
     (∀ b, exec (.epcCtrlBoundary b) s = .next s) ∧ exec .fltPop s = .next s ∧ exec .twnCmdAdopt s = .next s) ∧
  (∀ (s : State) (a : Nat) (w : Word), s.mspOn = true →
     (a % 4 = 0 → 0x0FFC < a → exec (.registerWrite a w) s = .next s ∧
       exec (.rcRead a) s = .next { s with msp := { s.msp with sdo := [0#8, 0#8, 0#8, 0#8] } }) ∧
     (a % 4 ≠ 0 → exec (.registerWrite a w) s = .next { s with msp := { s.msp with frameErr := true, outcome := 4 } } ∧
       exec (.rcRead a) s = .next { s with msp := { s.msp with sdo := [0#8, 0#8, 0#8, 0#8], frameErr := true, outcome := 4 } } ∧
       exec (.latchedGroupRead a) s = exec (.rcRead a) s))

/-- R1, R372, R381: a register read drives its value, high byte first, and changes nothing else, but that a group's first register
latches its group and an RC register falls by the value delivered. That value is the one from before the events of this cc:
they remain counted for the next read, and a second read in this cc delivers 0. -/
def Obligations.RcReadDeliversAndReduces : Prop :=
  ∀ (s : State) (a : Nat), regAddrOk a = true → s.mspOn = true →
    (isRc a = false → latchGroup s a = [] → exec (.rcRead a) s = .next { s with msp := { s.msp with sdo := beBytes 4 (regRead s a) } }) ∧
    exec (.rcRead a) s = exec (.latchedGroupRead a) s ∧
    (isRc a = true →
      ∃ t, exec (.rcRead a) s = .next t ∧ t.msp = { s.msp with sdo := beBytes 4 (s.rcBefore (regKey s a)) } ∧
        t.reg (regKey s a) = s.reg (regKey s a) - s.rcBefore (regKey s a) ∧ regRead t a = 0 ∧
        (∀ n, (t.bump (regKey s a) n).rcBefore (regKey s a) = 0) ∧ (∀ k, k ≠ regKey s a → t.reg k = s.reg k ∧ t.rcBefore k = s.rcBefore k) ∧
        t = { s with regs := t.regs, cc := { s.cc with rc := t.cc.rc }, msp := t.msp }) ∧
    (∀ n, isRc a = true → (∀ e ∈ s.cc.rc, e.1 ≠ regKey s a) → s.reg (regKey s a) + n < 2 ^ 32 →
      ∃ t, exec (.rcRead a) (s.bump (regKey s a) n) = .next t ∧ t.msp.sdo = beBytes 4 (s.reg (regKey s a)) ∧ t.reg (regKey s a) = n)

/-- R382: a read of a group's first register returns its part of the value of that cc and latches the whole value, which the other
registers of the group return until the next latching read, whatever the value has become by then. PORST_N leaves nothing
latched, and until a latching read the other registers read 0. -/
def Obligations.LatchedGroupReadHoldsTheValue : Prop :=
  (∀ (s : State), s.mspOn = true →
    (∃ t, exec (.latchedGroupRead 0x0018) s = .next t ∧ t.msp.sdo = beBytes 4 (s.ccnt / 2 ^ 32) ∧
      ∀ n, regRead { t with ccnt := n } 0x001C = s.ccnt % 2 ^ 32) ∧
    (∃ t, exec (.latchedGroupRead 0x0208) s = .next t ∧ t.msp.sdo = beBytes 4 (s.epc.count / 2 ^ 32) ∧
      ∀ e, regRead { t with epc := e } 0x020C = s.epc.count % 2 ^ 32) ∧
    (∃ t, exec (.latchedGroupRead 0x0188) s = .next t ∧ t.msp.sdo = beBytes 4 (s.tod.sec / 2 ^ 32) ∧
      ∀ x, regRead { t with tod := x } 0x018C = s.tod.sec % 2 ^ 32 ∧ regRead { t with tod := x } 0x0190 = s.tod.ns ∧
        regRead { t with tod := x } 0x0194 = s.tod.frac / 2 ^ 32) ∧
    (∃ t, exec (.latchedGroupRead 0x01B0) s = .next t ∧ t.msp.sdo = beBytes 4 (s.tod.cap.1 / 2 ^ 32) ∧
      ∀ x, regRead { t with tod := x } 0x01B4 = s.tod.cap.1 % 2 ^ 32 ∧ regRead { t with tod := x } 0x01B8 = s.tod.cap.2.1 ∧
        regRead { t with tod := x } 0x01BC = s.tod.cap.2.2 / 2 ^ 32) ∧
    (∃ t, exec (.latchedGroupRead 0x0430) s = .next t ∧ t.msp.sdo = beBytes 4 (s.twn.acked / 2 ^ 32) ∧
      ∀ x, regRead { t with twn := x } 0x0434 = s.twn.acked % 2 ^ 32) ∧
    (∃ t, exec (.latchedGroupRead 0x0438) s = .next t ∧ t.msp.sdo = beBytes 4 (s.twn.replicaEp / 2 ^ 32) ∧
      ∀ x, regRead { t with twn := x } 0x043C = s.twn.replicaEp % 2 ^ 32)) ∧
  (∀ (s t : State), (exec .porstAssert s = .next t ∨ exec .supplyFault s = .next t) → t.latch = []) ∧
  (∀ (s : State) (a : Nat), s.latch = [] →
    a ∈ [0x001C, 0x020C, 0x018C, 0x0190, 0x0194, 0x01B4, 0x01B8, 0x01BC, 0x0434, 0x043C] → regRead s a = 0)

/-- R366, R367, R369, R370, R373: a WRITE frame of one word whose CRC bytes are right commits that word as REGISTER_WRITE does, and
ends OK with a count of 1; R365: one whose word starts a change of M ends CUT, with that count. R370, R373: a WRITE frame whose
first word's CRC byte is wrong commits nothing, whatever follows: WR_DISCARD sets, the outcome is CRC with a count of 0, and
nothing else of the Veper changes. R371, R372, R373: a READ frame of
one word drives the status byte, the word and its CRC, has the word's read effects and its latch, and ends OK; a STATUS frame
drives the last outcome and the count of committed words, then clears WR_DISCARD and FRAME_ERR. -/
def Obligations.MspFramesCommitAndDrive : Prop :=
  (∀ (s : State) (a : Nat) (w : Word), regAddrOk a = true → s.mspOn = true →
     ∃ u, exec (.registerWrite a w) { s with msp := { s.msp with committed := 0, sdo := [] } } = .next u ∧
       exec (.mspWrite ([0x02#8] ++ beBytes 2 a ++ beBytes 4 w.toNat ++
           [BitVec.ofNat 8 (crc8 0 ([0x02#8] ++ beBytes 2 a ++ beBytes 4 w.toNat))]) 0) s
         = .next { u with msp := { u.msp with outcome := if u.mspOn then 0 else 2, committed := 1 } }) ∧
  (∀ (s : State) (a : Nat) (d : List Byte) (c : Byte) (more : List Byte) (extra : Nat),
     regAddrOk a = true → s.mspOn = true → d.length = 4 →
     c.toNat ≠ crc8 0 ([0x02#8] ++ beBytes 2 a ++ d) →
     exec (.mspWrite ([0x02#8] ++ beBytes 2 a ++ d ++ [c] ++ more) extra) s
       = .next { s with msp := { s.msp with committed := 0, sdo := [], wrDiscard := true, outcome := 1 } }) ∧
  (∀ (s : State), s.mspOn = true →
     (∀ a, regAddrOk a = true →
       ∃ t, exec (.mspRead ([0x03#8] ++ beBytes 2 a ++ [BitVec.ofNat 8 (crc8 0 ([0x03#8] ++ beBytes 2 a))]) 88) s = .next t ∧
         (t.msp.sdo.drop 1).take 4 = beBytes 4 (regRead s a) ∧ t.msp.sdo.length = 6 ∧ t.msp.outcome = 0 ∧
         (isRc a = true → regRead t a = 0 ∧ t.reg (regKey s a) = s.reg (regKey s a) - regRead s a) ∧ (isRc a = false → t.regs = s.regs) ∧
         t = { s with regs := t.regs, cc := t.cc, latch := t.latch, msp := { s.msp with sdo := t.msp.sdo, outcome := 0 } }) ∧
     (∃ t, exec (.mspStatus [0x05#8, BitVec.ofNat 8 (crc8 0 [0x05#8])] 72) s = .next t ∧
       (t.msp.sdo.drop 1).take 4 = beBytes 4 (s.msp.outcome * 2 ^ 16 + s.msp.committed) ∧
       t = { s with msp := { s.msp with sdo := t.msp.sdo, outcome := 0, wrDiscard := false, frameErr := false } }))

/-- R376, R379: TAB_CMD READ or WRITE starts an access with what the window holds in this cc, made in cc c + 4;
TAB_STATUS.BUSY reads 1 from cc c + 1 on; TAB_CMD with OP NONE starts none. R378: the words of a WRITE stand from cc c + 5 on: a data word named
by WMASK has its RW bits stored and its other bits kept, a word not named is untouched, and so is every other entry; BUSY has
ended. (The key table, a commanded FENCE and a partner's QTH do more than store.) -/
def Obligations.TableWindowAccesses : Prop :=
  (∀ (s : State) (m : BitVec 8), s.mspOn = true → s.msp.tabAt = none →
     (∃ t, exec (.tableRead m) s = .next t ∧
       t.msp.tabAt = some { due := s.now + 4, write := false, wmask := m.toNat, sel := s.reg 0x0600, index := s.reg 0x0604
                            data := (List.range 8).map fun i => s.reg (0x0608 + 4 * i) } ∧
       (s.msp.tabErr < 4 → bit (regRead t 0x062C) 31 = false ∧
         ∀ c, s.now < c → c ≤ s.now + 4 → bit (regRead { t with now := c } 0x062C) 31 = true) ∧
       t = { s with regs := t.regs, cc := t.cc, msp := { s.msp with tabAt := t.msp.tabAt } } ∧ ∀ k, k ≠ 0x0628 → t.reg k = s.reg k) ∧
     (∃ t, exec (.tableWrite m) s = .next t ∧
       t.msp.tabAt = some { due := s.now + 4, write := true, wmask := m.toNat, sel := s.reg 0x0600, index := s.reg 0x0604
                            data := (List.range 8).map fun i => s.reg (0x0608 + 4 * i) } ∧
       (s.msp.tabErr < 4 → bit (regRead t 0x062C) 31 = false ∧
         ∀ c, s.now < c → c ≤ s.now + 4 → bit (regRead { t with now := c } 0x062C) 31 = true) ∧
       t = { s with regs := t.regs, cc := t.cc, msp := { s.msp with tabAt := t.msp.tabAt } } ∧ ∀ k, k ≠ 0x0628 → t.reg k = s.reg k) ∧
     (∀ b, ∃ t, exec (.tableCmdNone m b) s = .next t ∧ t = { s with regs := t.regs, cc := t.cc } ∧
       t.reg 0x0628 = m.toNat * 256 ∧ ∀ k, k ≠ 0x0628 → t.reg k = s.reg k)) ∧
  (∀ (s : State) (a : TabAccess) (w : Nat), a.write = true → tabErrOf a = 0 → a.sel ≠ 0x0A → a.sel ≠ 0x0C →
     (a.sel = 9 → bit a.wmask 0 = false) → w < tabWords a.sel →
     (tabStore s a).msp.tabAt = none ∧
     (∀ i, bit ((tabStore s a).tw a.sel a.index w) i =
       if bit a.wmask w && bit (tabMask a.sel a.index w) i then bit (a.data.getD w 0) i else bit (s.tw a.sel a.index w) i) ∧
     (∀ sel i v, i < 2 ^ 14 → v < 8 → a.index < 2 ^ 14 → (sel, i) ≠ (a.sel, a.index) → (tabStore s a).tw sel i v = s.tw sel i v) ∧
     tabStore s a = { s with tab := (tabStore s a).tab, msp := (tabStore s a).msp })

/-- R385: while every port is DISABLED a write of GLB_NODE puts its ten bits in force in the next cc; otherwise it is discarded,
NODE is kept and GLB_STATUS.NODE_REFUSED sets. -/
def Obligations.GlbNodeWriteNeedsDisabledPorts : Prop :=
  ∀ (s : State) (w : Word), s.mspOn = true →
    ∃ t, exec (.glbNodeWrite w) s = .next t ∧
      ((∀ p, p < 9 → (s.port p).state = .disabled) →
        t = { s with nextFx := t.nextFx } ∧ (ccBegins t).reg 0x000C = w.toNat % 1024) ∧
      ((∃ p, p < 9 ∧ (s.port p).state ≠ .disabled) →
        t = { s with regs := t.regs, cc := t.cc } ∧ bit (t.reg 0x0004) 8 = true ∧
        (∀ i, i ≠ 8 → bit (t.reg 0x0004) i = bit (s.reg 0x0004) i) ∧ ∀ k, k ≠ 0x0004 → t.reg k = s.reg k)

/-- R315, R337, R390: a write of TWN_PEER_NODE or TWN_CTRL stores its fields (MODE only with TWIN_EN high); one that changes the
declared twin sends a trained TP to DOWN; ADOPT is held in ISOLATED and PEER_FAILED and has no effect in any other pair state. -/
def Obligations.TwinCommandRegisters : Prop :=
  ∀ (s : State), s.mspOn = true →
    (∀ w : Word, ∃ t, exec (.twnPeerNodeWrite false w) s = .next t ∧ t.reg 0x040C = w.toNat % 2 ^ 10 ∧
      (linkState (s.port 8).state = true → s.reg 0x040C ≠ w.toNat % 2 ^ 10 → (t.port 8).state = .down) ∧
      ((linkState (s.port 8).state = false ∨ s.reg 0x040C = w.toNat % 2 ^ 10) → t = { s with regs := t.regs, cc := t.cc } ∧ ∀ k, k ≠ 0x040C → t.reg k = s.reg k)) ∧
    (∀ w : Word, ∃ t, exec (.twnPeerNodeWrite true w) s = .next t ∧ bit (t.reg 0x0400) 0 = bit w.toNat 0 ∧ bit (t.reg 0x0400) 8 = bit w.toNat 8 ∧
      bits (t.reg 0x0400) 17 16 = (if twinEn s then bits w.toNat 17 16 else bits (s.reg 0x0400) 17 16) ∧
      (linkState (s.port 8).state = true → bit (s.reg 0x0400) 0 ≠ bit w.toNat 0 → (t.port 8).state = .down) ∧
      ((linkState (s.port 8).state = false ∨ bit (s.reg 0x0400) 0 = bit w.toNat 0) →
        t = { s with regs := t.regs, cc := t.cc } ∧ ∀ k, k ≠ 0x0400 → t.reg k = s.reg k)) ∧
    ((s.twn.pstate = 3 ∨ s.twn.pstate = 4) → exec .twnCmdAdopt s = .next { s with twn := { s.twn with adopt := true } }) ∧
    (s.twn.pstate ≠ 3 → s.twn.pstate ≠ 4 → exec .twnCmdAdopt s = .next s)

/-! ### Clocks and time (chapter 16) -/

/-- R338, R386: M is taken only in IDLE and from 32 to 48, where a new M starts a change of 100 µs; any other write leaves M and
sets FREQ_REFUSED. R339, R340: at its end a change of M puts M in force, loads the nominal INCR, empties the hold and clears
VALID; a trigger held by the change starts the boundary, and without one nothing else changes. -/
def Obligations.CclkMultiplierChanges : Prop :=
  (∀ (s : State) (w : Word), s.mspOn = true →
     ∃ t, exec (.clkCclkMWrite w) s = .next t ∧
       (s.epc.state = .idle → 32 ≤ w.toNat % 64 → w.toNat % 64 ≤ 48 →
         t.reg 0x0108 = w.toNat % 64 ∧ (∀ k, k ≠ 0x0108 → t.reg k = s.reg k) ∧
         (w.toNat % 64 ≠ s.clk.m → t.frozen = true ∧ t.clk.change = some (w.toNat % 64, s.now + s.usCc 100)) ∧
         (w.toNat % 64 = s.clk.m → t.clk = s.clk) ∧ t = { s with regs := t.regs, cc := t.cc, clk := t.clk }) ∧
       ((s.epc.state ≠ .idle ∨ w.toNat % 64 < 32 ∨ 48 < w.toNat % 64) →
         t = { s with regs := t.regs, cc := t.cc } ∧ bit (t.reg 0x0104) 4 = true ∧ ∀ k, k ≠ 0x0104 → t.reg k = s.reg k)) ∧
  (∀ (s : State) (m e : Nat), s.clkOn = true → s.clk.change = some (m, e) → e ≤ s.now →
     ∃ t, exec .freqChangeEnd s = .next t ∧ t.clk.m = m ∧ t.frozen = false ∧ t.tod.incr = nominalIncr m ∧
       t.tod.hold = none ∧ t.tod.valid = false ∧ t.tod.sec = s.tod.sec ∧ t.tod.ns = s.tod.ns ∧ t.tod.frac = s.tod.frac ∧
       t = { s with clk := t.clk, tod := t.tod, epc := t.epc } ∧
       (s.clk.held = false → t.epc = s.epc) ∧ (s.clk.held = true → s.live = true → t.epc.state = .clear ∧ t.epc.fromIdle = true))

/-- R353: a write of TOD_INCR_HI is held and a later one replaces it; a write of TOD_INCR_LO forms, with the held part, the INCR of
the next cc, and empties the hold; with nothing held the high part is that of the INCR in force. The load at the end of a change
of M empties the hold too. R383: the seconds parts are held as written, 0 since PORST_N until then; a write of EPC_SCHED_NS
makes the instant of the held seconds and its nanoseconds, at most 999,999,999, the schedule instant of the next cc, and
SCHED_ARMED sets. The three registers read as last written. -/
def Obligations.HeldWritesApplyTogether : Prop :=
  ((∀ (s : State) (hi hi2 lo : Word), s.mspOn = true →
     (∃ t, exec (.todIncrHiWrite hi) s = .next t ∧ t = { s with tod := { s.tod with hold := some (hi.toNat % 2 ^ 20) } } ∧
       exec (.todIncrHiWrite hi2) t = .next { s with tod := { s.tod with hold := some (hi2.toNat % 2 ^ 20) } }) ∧
     (∃ u, exec (.todIncrLoWrite lo) s = .next u ∧ u = { s with tod := { s.tod with hold := none }, nextFx := u.nextFx } ∧
       (∀ h, s.tod.hold = some h → (ccBegins u).tod.incr = h * 2 ^ 32 + lo.toNat) ∧
       (s.tod.hold = none → (ccBegins u).tod.incr = s.tod.incr / 2 ^ 32 * 2 ^ 32 + lo.toNat))) ∧
   (∀ (s : State) (m e : Nat), s.clkOn = true → s.clk.change = some (m, e) → e ≤ s.now →
     ∃ t, exec .freqChangeEnd s = .next t ∧ t.tod.hold = none)) ∧
  ((∀ (s : State) (hi lo ns : Word), s.mspOn = true →
     (∃ t u, exec (.epcSchedSecWrite true hi) s = .next t ∧ exec (.epcSchedSecWrite false lo) s = .next u ∧
       t = { s with regs := t.regs, cc := t.cc } ∧ t.reg 0x0238 = hi.toNat % 2 ^ 16 ∧ (∀ k, k ≠ 0x0238 → t.reg k = s.reg k) ∧
       regRead t 0x0238 = hi.toNat % 2 ^ 16 ∧
       u = { s with regs := u.regs } ∧ u.reg 0x023C = lo.toNat ∧ (∀ k, k ≠ 0x023C → u.reg k = s.reg k) ∧ regRead u 0x023C = lo.toNat) ∧
     (∃ v, exec (.epcSchedNsWrite ns) s = .next v ∧ v = { s with regs := v.regs, nextFx := v.nextFx } ∧
       (∀ k, k ≠ 0x0240 → v.reg k = s.reg k) ∧ regRead v 0x0240 = ns.toNat % 2 ^ 30 ∧
       (ccBegins v).epc.armed = true ∧ (ccBegins v).epc.instSec = s.reg 0x0238 * 2 ^ 32 + s.reg 0x023C ∧
       (ccBegins v).epc.instNs = min (ns.toNat % 2 ^ 30) 999999999)) ∧
   (∀ (s t : State), (exec .porstAssert s = .next t ∨ exec .supplyFault s = .next t) → t.reg 0x0238 = 0 ∧ t.reg 0x023C = 0))

/-- R356, R357: a write of APPLY makes its mode the pending one, replacing another; CANCEL clears it; NONE has no effect. In the
apply cc (NOW: the cc after the write; AT_NEXT_SECOND: the next rollover cc; AT_NEXT_PPS: the next counted edge's event) TOD
takes the TOD_SET values held in it, with NS at most 999,999,999, VALID sets and nothing is pending. -/
def Obligations.TodAppliesTheSetTime : Prop :=
  (∀ (s : State), s.mspOn = true →
    (∃ t, exec .todApplyNow s = .next t ∧ t.tod.nowAt = s.now + 1 ∧ t = { s with tod := { s.tod with pend := 1, nowAt := t.tod.nowAt } }) ∧
    (∃ t, exec .todApplyAtNextSecond s = .next t ∧ t = { s with tod := { s.tod with pend := 2, nowAt := t.tod.nowAt } }) ∧
    (∃ t, exec .todApplyAtNextPps s = .next t ∧ t = { s with tod := { s.tod with pend := 3, nowAt := t.tod.nowAt } }) ∧
    (∃ t, exec .todCancel s = .next t ∧ t = { s with tod := { s.tod with pend := 0, nowAt := t.tod.nowAt } }) ∧
    exec .todApplyNone s = .next s) ∧
  (∀ (s : State),
    (s.tod.pend = 1 ∧ s.tod.nowAt ≤ s.now ∨ s.tod.pend = 2 ∧ rollsOver s = true ∨ s.tod.pend = 3 ∧ ∃ e, s.tod.ppsDue = some e ∧ e ≤ s.now) →
    (todAdvance s).tod.sec = s.regB 0x0198 15 0 * 2 ^ 32 + s.regB 0x019C 31 0 ∧
    (todAdvance s).tod.ns = min 999999999 (s.regB 0x01A0 29 0) ∧
    (todAdvance s).tod.frac = s.regB 0x01A4 15 0 * 2 ^ 32 ∧ (todAdvance s).tod.pend = 0 ∧ (todAdvance s).tod.valid = true)

/-- R352: in a cc with no apply pending the fraction takes INCR, its carry goes to the nanoseconds, and at 1,000,000,000 ns the
seconds advance by one, modulo 2^48. TOD_INCR_HI and TOD_INCR_LO hold INCR bits 51 to 32 and 31 to 0; INCR is 0xAAAA_AAAA_AAAB
at reset, the nominal value of 1.500 GHz, and 0x1_0000_0000_0000 is that of 1.000 GHz. R352: TOD_ROLLOVER, in a cc whose
increment passes the second: the cc passes, the seconds advance by one and the nanoseconds stay below one second. -/
def Obligations.TodAdvancesByItsIncrement : Prop :=
  ((∀ (s : State), todOk s = true →
     let f := s.tod.frac + s.tod.incr; let ns := s.tod.ns + f / 2 ^ 48
     todStep s = { s with tod := { s.tod with frac := f % 2 ^ 48
                                              ns := if 10 ^ 9 ≤ ns then ns - 10 ^ 9 else ns
                                              sec := if 10 ^ 9 ≤ ns then (s.tod.sec + 1) % 2 ^ 48 else s.tod.sec } }) ∧
   (∀ (s : State), s.pending = [] → s.power.pllLock = true → s.tod.pend = 0 → s.nextFx = [] →
     ∃ t, step s = .next t ∧ t.tod.sec = (todStep s).tod.sec ∧ t.tod.ns = (todStep s).tod.ns ∧ t.tod.frac = (todStep s).tod.frac) ∧
   (∀ (s : State), regRead s 0x01A8 = s.tod.incr / 2 ^ 32 ∧ regRead s 0x01AC = s.tod.incr % 2 ^ 32) ∧
   State.reset.tod.incr = 0xAAAAAAAAAAAB ∧ nominalIncr 48 = 0xAAAAAAAAAAAB ∧ nominalIncr 32 = 0x1000000000000) ∧
  (∀ (s : State), todOk s = true → rolloverNext s = true → s.tod.pend ≠ 2 →
     ∃ t, exec .todRollover s = .next t ∧ t.now = s.now + 1 ∧ t.tod.sec = (s.tod.sec + 1) % 2 ^ 48 ∧ t.tod.ns < 10 ^ 9)

/-- R359: a rising edge that stays high for 16 cc, 2^29 cc or more after the last counted one, is counted: its event is due 16 cc
later with the TOD of its own cc. A shorter pulse is ignored; an edge within 2^29 cc of the last counted one is ignored and
counted in TOD_PPS_EARLY. PPS_OUT falls once its width has passed. -/
def Obligations.PpsEdgesAreFiltered : Prop :=
  (∀ (s : State) (high : Nat), s.clkOn = true →
     (high < 16 → exec (.ppsEdge high) s = .next s) ∧
     (16 ≤ high → (∀ p, s.tod.lastPps = some p → p + 2 ^ 29 ≤ s.now) →
       ∃ t, exec (.ppsEdge high) s = .next t ∧ t.tod.ppsDue = some (s.now + 16) ∧
         t.tod.ppsCap = (s.tod.sec, s.tod.ns, s.tod.frac) ∧ t.tod.lastPps = some s.now ∧
         t = { s with tod := { s.tod with lastPps := t.tod.lastPps, ppsDue := t.tod.ppsDue, ppsCap := t.tod.ppsCap } }) ∧
     (16 ≤ high → (∃ p, s.tod.lastPps = some p ∧ s.now < p + 2 ^ 29) →
       ∃ t, exec (.ppsEdge high) s = .next t ∧ t = { s with regs := t.regs, cc := t.cc } ∧
         t.reg 0x01C4 = min (s.reg 0x01C4 + 1) (2 ^ 32 - 1) ∧ ∀ k, k ≠ 0x01C4 → t.reg k = s.reg k)) ∧
  (∀ (s : State), s.clkOn = true → s.tod.out = true → s.tod.fallAt ≤ s.now →
     ∃ t, exec .ppsOutFall s = .next t ∧ t = { s with tod := { s.tod with out := false } })

/-- R341, R343, R345: a failed check disqualifies its reference in that cc and records the cause; R342: a window within FINE_PPM
fails nothing, and leaves its offset in CLK_REF_OFFSET. R343, R344: a reference that has passed every check for CLK_QUAL_TIME
becomes qualified, and a candidate where EN enables it; in holdover with no other candidate the switch to it starts at once.
R344, R346: the revertive hold-off of a better candidate starts the switch to it: SEL names it, it lasts 2 ms, CLK_SWITCH_CNT
counts it, CLK_STATUS.EVENT sets; a switch ends when its 2 ms are over. -/
def Obligations.ReferencesQualifyAndSwitch : Prop :=
  (∀ (s : State) (r : Fin 3) (cause : Nat) (o : BitVec 16), s.clkOn = true →
     (cause = 1 ∨ cause = 2 ∨ cause = 3 ∧ finePpm s < offsetMag o ∨ cause = 5 ∧ r.val = 2) →
     ∃ t, exec (.refCheckFail r cause o) s = .next t ∧ (t.ref r.val).qual = false ∧ (t.ref r.val).cause = cause ∧
       isCand t r.val = false ∧ (∀ k, k ≠ 0x0104 → k ≠ 0x012C → k ≠ 0x0130 → t.reg k = s.reg k) ∧
       t = { s with clk := t.clk, regs := t.regs, cc := t.cc, units := t.units }) ∧
  (∀ (s : State) (r : Fin 3) (o : BitVec 16), windowPasses s r.val o = true →
     exec (.refCheckFail r 3 o) s = .next (s.setRef r.val { s.ref r.val with offset := offsetKept o })) ∧
  (∀ (s : State) (r : Fin 3) (o : BitVec 16), windowPasses s r.val o = true → (s.ref r.val).qual = false →
     (s.ref r.val).okAt + qualCc s ≤ s.now →
     ∃ t, exec (.refQualify r o) s = .next t ∧ (t.ref r.val).qual = true ∧ isCand t r.val = refEn s r.val ∧ (t.ref r.val).offset = offsetKept o ∧
       (refEn s r.val = true → s.clk.switchEnd = none → s.clk.holdover = true → (∀ x, x < 3 → x ≠ r.val → isCand s x = false) →
         t.clk.sel = r.val ∧ t.clk.switchEnd = some (s.now + s.usCc 2000) ∧ t.clk.holdover = false) ∧
       t = { s with clk := t.clk, regs := t.regs, cc := t.cc, units := t.units }) ∧
  (∀ (s : State), s.clkOn = true →
     (∀ r, bit (s.reg 0x0100) 0 = true → s.clk.switchEnd = none → s.clk.holdover = false →
       bestRef s ((List.range 3).filter (holdoffOver s)) = some r →
       ∃ t, exec .revertHoldoffExpiry s = .next t ∧ t.clk.sel = r ∧ t.clk.switchEnd = some (s.now + s.usCc 2000) ∧
         t.reg 0x012C = min (s.reg 0x012C + 1) (2 ^ 32 - 1) ∧ bit (t.reg 0x0104) 8 = true ∧
         t = { s with clk := t.clk, regs := t.regs, cc := t.cc, units := t.units }) ∧
     (∀ e, s.clk.switchEnd = some e → e ≤ s.now →
       ∃ t, exec .refSwitchEnd s = .next t ∧ t.clk.lastEnd = s.now ∧
         (s.clk.holdover = false → isCand s s.clk.sel = true → (s.clk.sel = 2 → reftActive s = true) →
           t.clk.switchEnd = none ∧ t.clk.sel = s.clk.sel) ∧
         t = { s with clk := t.clk, regs := t.regs, cc := t.cc, units := t.units }))

/-! ### Epochs (chapter 02) -/

/-- R20, R23, R25: the MSP trigger writes RUN; it opens from IDLE with RUN at 1, closes in OPEN, and is only counted in
EPC_TRIG_MERGED in IDLE with RUN at 0 and during a close begun in an earlier cc. R23, R26, R37: in OPEN the period, with its
trigger enabled, and the schedule instant less its lead start the close, with their EPC_CAUSE bits; the schedule trigger holds
the boundary for its instant. R31, R23: a deadline that passes in OPEN starts the close with EPC_CAUSE bit 5; one that passes in
DRAIN before drain is complete adds that bit and stays in DRAIN; one that passes as drain is complete changes nothing but that
it has passed. -/
def Obligations.BoundaryTriggersAndDeadline : Prop :=
  (∀ (s : State) (run : Bool), s.mspOn = true → s.live = true → s.epc.since ≠ s.now →
     ∃ t, exec (.epcCtrlBoundary run) s = .next t ∧ t.reg 0x0200 = (if run then 1 else 0) ∧
       (s.epc.state = .idle → run = true → t.epc.state = .clear ∧ t.epc.fromIdle = true ∧ t.epc.since = s.now ∧ t.epc.cause = 1) ∧
       (s.epc.state = .opened → t.epc.state = .drain ∧ t.epc.since = s.now ∧ t.epc.closeAt = s.now ∧ t.epc.cause = 1) ∧
       ((s.epc.state = .idle ∧ run = false ∨ s.epc.state ≠ .idle ∧ s.epc.state ≠ .opened) →
         t.epc = s.epc ∧ t.reg 0x0220 = min (s.reg 0x0220 + 1) (2 ^ 32 - 1) ∧ t = { s with regs := t.regs, cc := t.cc })) ∧
  (∀ (s : State), s.live = true → s.epc.state = .opened →
     (s.epc.periodHit = false → s.epc.count ≠ 0 → s.epc.openAt + s.epc.period ≤ s.now → bit (s.reg 0x0218) 1 = true →
       ∃ t, exec .periodExpiry s = .next t ∧ t.epc.state = .drain ∧ t.epc.cause = 2 ^ 2 ∧ t.epc.since = s.now ∧ t.epc.periodHit = true ∧
         t = { s with epc := t.epc, trc := t.trc, regs := t.regs, cc := t.cc }) ∧
     (bit (s.reg 0x0218) 2 = true → s.epc.armed = true → s.epc.schedHit = false → todReached s (instant s - s.reg 0x0234) = true →
       ∃ t, exec .scheduleTrigger s = .next t ∧ t.epc.state = .drain ∧ t.epc.cause = 2 ^ 3 ∧ t.epc.since = s.now ∧ t.epc.held = true ∧
         t.epc.schedHit = true ∧ t = { s with epc := t.epc, trc := t.trc, regs := t.regs, cc := t.cc })) ∧
  (∀ (s : State), s.live = true → s.epc.deadlineHit = false → s.epc.openAt + s.epc.deadline ≤ s.now →
     (s.epc.state = .opened →
       ∃ t, exec .deadlineExpiry s = .next t ∧ t.epc.state = .drain ∧ t.epc.since = s.now ∧ bit t.epc.cause 5 = true ∧ t.epc.deadlineHit = true) ∧
     (s.epc.state = .drain → s.epc.since ≠ s.now → drained { s with epc := { s.epc with deadlineHit := true } } = false →
       ∃ t, exec .deadlineExpiry s = .next t ∧ t.epc.state = .drain ∧ t.epc.cause = s.epc.cause ||| 32 ∧ t.epc.deadlineHit = true) ∧
     (s.epc.state = .drain → s.epc.since ≠ s.now → drained { s with epc := { s.epc with deadlineHit := true } } = true →
       exec .deadlineExpiry s = .next { s with epc := { s.epc with deadlineHit := true } }))

/-- R88, R89: a sample remembers, for each tenant that runs, whether its knot condition holds; while no tenant's condition held at
the sample before, nothing else changes. A sample cc has one sample. -/
def Obligations.KnotSampleRemembersTheCondition : Prop :=
  ∀ (s : State), s.runs = true → (s.epc.state = .opened ∨ s.epc.state = .drain) →
    (s.now - s.epc.openAt) % 256 = 0 → s.epc.openAt < s.now → (s.epc.deadlineHit = true ∨ s.now < s.epc.openAt + s.epc.deadline) →
    (∀ k, k < 32 → (s.ten k).knotOnce = false) → s.cc.knot = false →
    ∃ t, exec .knotSample s = .next t ∧ t = { s with tens := t.tens, cc := { s.cc with knot := true } } ∧ exec .knotSample t = .next t ∧
      ∀ k, k < 32 → s.tenRun k = true → (s.ten k).abandoned = false →
        t.ten k = { s.ten k with knotOnce := knotHolds s k }

/-- R29, R34, R35: DRAIN ends in FLUSH once drain is complete, FLUSH in COMMIT once every write of the epoch has been acknowledged
and every record flushed, COMMIT in CLEAR once the record is formed and no acknowledgement is awaited. R20, R21, R26, R38:
OPENING is entered from CLEAR when RUN was read as 1 and IDLE otherwise; the open takes the next epoch number, restarts both
counts in this cc, with values below 4,096 acting as 4,096, and clears the counts of the epoch. -/
def Obligations.CloseSequenceAdvancesAndOpens : Prop :=
  (∀ (s : State), s.live = true →
     (s.epc.state = .drain → drained s = true →
       ∃ t, exec .drainComplete s = .next t ∧ t.epc.state = .flush ∧ t.epc.since = s.now ∧ t.epc.drainAt = s.now ∧ t.epc.count = s.epc.count) ∧
     (s.epc.state = .flush → s.epc.since + 16 ≤ s.now → s.mem.acc.any flushes = false → s.flt.ring = [] → s.trc.held = [] →
       ∃ t, exec .flushComplete s = .next t ∧ t.epc.state = .commit ∧ t.epc.since = s.now ∧ t = { s with epc := t.epc }) ∧
     (s.epc.state = .commit → s.epc.formed = true → s.twn.commitAt = none →
       ∃ t, exec .commitEnd s = .next t ∧ t.epc.state = .clear ∧ t.epc.since = s.now ∧ t = { s with epc := t.epc })) ∧
  (∀ (s : State), s.live = true →
     (s.epc.state = .clear → s.epc.applied = true → s.epc.since + 128 ≤ s.now →
       ∃ t, exec .opening s = .next t ∧ t.epc.since = s.now ∧ (s.epc.runRead = true → t.epc.state = .opening) ∧
         (s.epc.runRead = false → t.epc.state = .idle ∧ t = { s with epc := t.epc })) ∧
     (s.epc.state = .opening → s.epc.since + 48 ≤ s.now → (schedHeld s = false ∨ todReached s (instant s) = true) →
       ∃ t, exec .epochOpen s = .next t ∧ t.epc.state = .opened ∧ t.epc.openAt = s.now ∧
         t.epc.count = (if s.epc.count = 2 ^ 40 - 1 then 1 else s.epc.count + 1) ∧
         t.epc.period = max 4096 (s.reg 0x0210) ∧ t.epc.deadline = max 4096 (s.reg 0x0214)) ∧
     (s.epc.state = .opening → s.epc.waiting = true → todReached s (instant s) = true →
       ∃ t, exec .scheduleHoldRelease s = .next t ∧ t.epc.state = .opened ∧ t.epc.openAt = s.now ∧
         t.epc.count = (if s.epc.count = 2 ^ 40 - 1 then 1 else s.epc.count + 1)))

/-- R36: CLEAR clears the transit state of Table 02.6 (queue contents, scoreboards, tacks, CNT, CMP, SR, loop stacks, Cobbler
registers and program counters) and keeps every memory, table, register, port and count. R5, R39: the apply stage puts every
staged table word and register in force, as last written. R234: in a region that the residency then in force does not name,
every word's valid bit is clear. -/
def Obligations.ClearAndApplyStage : Prop :=
  (∀ (s : State), s.live = true → s.epc.state = .clear → s.epc.cleared = false →
     ∃ t, exec .clear s = .next t ∧ t.epc.cleared = true ∧
       (∀ q, (t.q q).fifo = [] ∧ (t.q q).chain = none ∧ (t.q q).fetch = [] ∧ (t.q q).flight = [] ∧ (t.q q).loops = [] ∧
         (t.q q).cnt = List.replicate 8 0 ∧ (t.q q).sr = List.replicate 8 0 ∧ (t.q q).cmp = List.replicate 4 {} ∧
         (t.q q).retired = (s.q q).retired ∧ (t.q q).valid = (s.q q).valid) ∧
       (∀ k, (t.tack k).value = 0 ∧ (t.tack k).updates = (s.tack k).updates) ∧
       (∀ k, (t.cbl k).running = false ∧ (t.cbl k).pc = 0 ∧ (t.cbl k).regs = List.replicate 16 0 ∧ (t.cbl k).holder = (s.cbl k).holder) ∧
       t = { s with epc := t.epc, queues := t.queues, tacks := t.tacks, cbls := t.cbls, srPend := [] }) ∧
  (∀ (s : State), s.live = true → s.epc.state = .clear → s.epc.cleared = true → s.epc.applied = false → s.epc.since + 96 ≤ s.now →
     ∃ t, exec .applyStaged s = .next t ∧ t.epc.applied = true ∧
       (∀ sel i w, t.tf sel i w = s.tw sel i w) ∧ (∀ k, k ∈ stagedRegs → t.regF' k = s.reg k) ∧ t.mem.sram = s.mem.sram ∧
       ∀ v r w, v < 64 → r < 64 → resident t v r = false → cbufAddr v (r * 32768) / 16 ≤ w → w < cbufAddr v (r * 32768) / 16 + 2048 →
         t.wordValid w = false)

/-! ### Resets and the test port (chapter 20, R436) -/

/-- R4, R410, R420: PORST_N low, or a supply out of range, takes effect in any state: everything but the queue, the model's own
counts, the straps last sampled and the JTAG port is at its reset value, HBM's content included, DEV_READY is low, and the
sequence starts anew. R411, R412, R415: the last release samples the straps and starts the cold sequence, or the test mode when
TEST_EN was high; a release while the other hold remains leaves the Veper in reset. (Which straps SUPPLY_RETURN finds is log
entry 80's.) -/
def Obligations.PorstResetsAndReleaseStarts : Prop :=
  (∀ (s : State),
     (∃ t, exec .porstAssert s = .next t ∧ t.power.stage = .porst ∧ t.power.porstLow = true ∧ t.ready = false ∧ t.power.contained = false ∧
       t = { pending := s.pending, freeCtr := s.freeCtr, now := s.now, jtag := s.jtag, power := t.power } ∧
       t.power.straps = s.power.straps ∧ t.power.trained = 0 ∧ t.power.pllLock = false) ∧
     (∃ t, exec .supplyFault s = .next t ∧ t.power.stage = .porst ∧ t.power.supplyLow = true ∧ t.ready = false ∧
       t.power.porstLow = s.power.porstLow ∧
       t = { pending := s.pending, freeCtr := s.freeCtr, now := s.now, jtag := s.jtag, power := t.power })) ∧
  (∀ (s : State), s.power.stage = .porst →
     (∀ straps : BitVec 4, s.power.porstLow = true →
       ∃ t, exec (.porstRelease straps) s = .next t ∧ t.power.straps = straps.toNat ∧ t.power.porstLow = false ∧
         (s.power.supplyLow = true → t.power.stage = .porst) ∧
         (s.power.supplyLow = false → t.power.stage = (if bit straps.toNat 3 then .test else .locking)) ∧
         t = { s with power := t.power, clk := t.clk }) ∧
     (s.power.supplyLow = true →
       ∃ t, exec .supplyReturn s = .next t ∧ t.power.supplyLow = false ∧ t.power.straps = s.power.straps ∧
         (s.power.porstLow = true → t.power.stage = .porst) ∧
         (s.power.porstLow = false → t.power.stage = (if bit s.power.straps 3 then .test else .locking)) ∧
         t = { s with power := t.power, clk := t.clk }))

/-- R415, R416, R417: the stages of the cold sequence: the PLL locks; the self-test's failures leave their units OFF with cause BIST
and set BIST_FAIL; a stack trains, or leaves its controller OFF with cause TRAINING; a trained stack is zero-filled. R413, R414,
R419: WARMRST_N takes DEV_READY down; 3,072 cc later the reset point keeps HBM and its error states, the clocks and TOD, and
returns the rest; the warm sequence runs from the release and ends with DEV_READY high. A self-test result that names no unit of
the Veper stops (the self-test forms none; Table 18.14). -/
def Obligations.ColdAndWarmSequences : Prop :=
  (∀ (s : State),
     (s.power.stage = .locking →
       ∃ t, exec .pllLock s = .next t ∧ t.power.stage = .cold ∧ t.power.pllLock = true ∧ t = { s with power := t.power }) ∧
     (∀ us, unitsOk us = true → s.power.stage = .cold → s.power.bistDone = false →
       ∃ t, exec (.bistComplete us) s = .next t ∧ t.power.bistDone = true ∧ t.power.bistFail = !us.isEmpty ∧
         (∀ u, u ∈ us → bistUnit u = true → (t.unit u).obs = 0) ∧ (∀ u, u ∉ us → t.unit u = s.unit u) ∧
         t = { s with power := t.power, units := t.units }) ∧
     (∀ h : Fin 4, s.power.stage = .cold → bit s.power.trainEnd h.val = false →
       (∃ t, exec (.hbmTrainingComplete h true) s = .next t ∧ t.power.trainEnd = s.power.trainEnd + 2 ^ h.val ∧
         t.power.trained = s.power.trained + 2 ^ h.val ∧ t = { s with power := t.power }) ∧
       (∃ t, exec (.hbmTrainingComplete h false) s = .next t ∧ t.power.trainEnd = s.power.trainEnd + 2 ^ h.val ∧
         t.power.trainFail = s.power.trainFail + 2 ^ h.val ∧ (t.unit (88 + h.val)).obs = 0 ∧ t.power.trained = s.power.trained ∧
         t = { s with power := t.power, units := t.units })) ∧
     (∀ h : Fin 4, s.power.stage = .cold → bit s.power.trained h.val = true → bit s.power.zeroed h.val = false →
       ∃ t, exec (.zeroFillComplete h) s = .next t ∧ t.power.zeroed = s.power.zeroed + 2 ^ h.val ∧ t = { s with power := t.power })) ∧
  (∀ (s : State),
     (s.power.stage = .ready →
       ∃ t, exec .warmrstAssert s = .next t ∧ t.power.stage = .warmHold ∧ t.ready = false ∧ t.mem = s.mem ∧ t.tod = s.tod ∧ t.clk = s.clk) ∧
     (s.power.stage = .warmHold → s.power.since + 3072 ≤ s.now →
       ∃ t, exec .warmResetPoint s = .next t ∧ t.power.stage = (if s.power.warmLow then .warmReset else .warmSeq) ∧
         t.mem = { hbm := s.mem.hbm, hbmErr := s.mem.hbmErr } ∧ t.tod = s.tod ∧ t.ccnt = s.ccnt ∧ t.clk.m = s.clk.m ∧ t.clk.sel = s.clk.sel ∧
         t.epc = {} ∧ t.tab = [] ∧ t.queues = [] ∧ t.cbls = [] ∧ t.ports = [] ∧ t.keys = [] ∧ t.flt = {} ∧ t.pending = s.pending) ∧
     (s.power.stage = .warmReset →
       ∃ t, exec .warmrstRelease s = .next t ∧ t.power.stage = .warmSeq ∧ t = { s with power := t.power }) ∧
     (s.power.stage = .warmSeq →
       ∃ t, exec (.warmSequenceEnd []) s = .next t ∧ t.power.stage = .ready ∧ t.ready = true ∧ t.mem.hbm = s.mem.hbm ∧ t.mem.hbmErr = s.mem.hbmErr ∧
         t.tod = s.tod ∧ t.clk = s.clk)) ∧
  (∀ (s : State) (u : Nat), 105 ≤ u →
     exec (.bistComplete [u]) s = .fault (.noSuchUnit u) ∧ exec (.warmSequenceEnd [u]) s = .fault (.noSuchUnit u))

/-- R412: a release with TEST_EN high enters the test mode. There DEV_READY is low, and of all commands only PORST_N's, the
supplies' and JTAG's change anything, a frame driving nothing, so the MSP, every Welt port and TP stay idle until PORST_N; JTAG
leaves the mode as it is. -/
def Obligations.TestModeIsReachedByJtagOnly : Prop :=
  (∀ (s : State) (straps : BitVec 4), s.power.stage = .porst → s.power.porstLow = true → s.power.supplyLow = false → bit straps.toNat 3 = true →
    ∃ t, exec (.porstRelease straps) s = .next t ∧ t.power.stage = .test ∧ t.power.pllLock = s.power.pllLock) ∧
  (∀ (s t : State) (c : Instr), s.power.stage = .test → s.power.pllLock = false →
    s.ready = false ∧
    ((∀ b x, c ≠ .jtagAccess b x) → c ≠ .porstAssert → c ≠ .supplyFault → exec c s = .next t →
      t = s ∨ t = { s with msp := { s.msp with sdo := [] } }) ∧
    (∀ b x, exec (.jtagAccess b x) s = .next t → t.power = s.power ∧ t.ports = s.ports) ∧
    ∃ u, exec .porstAssert s = .next u ∧ u.power.stage = .porst)

/-- R436: BYPASS and IDCODE shift as IEEE 1149.1 has it, IDCODE delivering 0x264017A5 from its least significant bit, in any stage,
before DEV_READY too; SAMPLE/PRELOAD and EXTEST load the boundary cells. Nothing else changes. -/
def Obligations.JtagShiftsItsRegisters : Prop :=
  ∀ (s : State) (xs : List Bool), s.power.supplyLow = false →
    (∃ t, exec (.jtagAccess 0 xs) s = .next t ∧ t.jtag.ir = 0 ∧ t.jtag.tdo = (false :: xs).take xs.length ∧ t = { s with jtag := t.jtag }) ∧
    (∃ t, exec (.jtagAccess 1 xs) s = .next t ∧ t.jtag.ir = 1 ∧ t.jtag.tdo.length = xs.length ∧
      (∀ i, i < 32 → i < xs.length → t.jtag.tdo.getD i false = bit 0x264017A5 i) ∧ t = { s with jtag := t.jtag }) ∧
    (∀ i : Fin 4, 2 ≤ i.val →
      ∃ t, exec (.jtagAccess i xs) s = .next t ∧ t.jtag.ir = i.val ∧ t.jtag.cells = xs ∧ t.jtag.tdo.length = xs.length ∧
        t = { s with jtag := t.jtag, freeCtr := t.freeCtr })

/-! ### Memory and its scrubbers (chapter 11) -/

/-- R239, R242: an accepted HBM access completes and leaves the controller's list; the rewrite it owes is made only while the line
still holds the error that was read. Every byte of memory reads as before. R243, R245: a due scrub step of an HBM controller
that is ON corrects a correctable error, marks a natural uncorrectable one poisoned, leaves every other line and every stored
byte, and moves on to the next place of the walk. R244, R245: a due scrub step of a CBUF or a Cobbler's local memory is asked for
in its cc and made as the cc ends, if nothing else touched its bank in it: it leaves every stored byte and moves on to the next
word; a word in error is corrected, or marked poisoned, where its group's parity is right and its valid bit set. R391: a write of
MEM_SCRUB stores its fields; a scrubber whose EN it sets again is due 2^DIV cc later, at its old place. -/
def Obligations.HbmAccessesAndScrubs : Prop :=
  (∀ (s : State) (h : Fin 4) (n : Nat) (a : Acc) (rest : List Acc), s.linkOn = true → takeAcc h.val n [] s.mem.acc = some (a, rest) →
     ∃ t, exec (.hbmAccessComplete h n) s = .next t ∧ t.mem.acc = rest ∧ t.mem.hbm = s.mem.hbm ∧ t.mem.sram = s.mem.sram ∧
       (∀ l, l ≠ a.line → t.lineErr l = s.lineErr l) ∧
       (a.fix = some .clean → t.lineErr a.line = if s.lineErr a.line = .ce then .clean else s.lineErr a.line) ∧
       (a.fix = some .poison → t.lineErr a.line = if s.lineErr a.line = .ue then .poison else s.lineErr a.line) ∧
       t = { s with mem := { s.mem with acc := rest, hbmErr := t.mem.hbmErr } }) ∧
  (∀ (s : State) (h : Fin 4), s.linkOn = true → bit (s.reg 0x0480) 31 = true → s.isOn (88 + h.val) = true →
     (s.hbmScrubAt h.val).due ≤ s.now →
     (∀ x, x ∈ s.mem.acc → x.line ≠ walkLine h.val (s.hbmScrubAt h.val).pos ∨ x.fix = none) →
     ∃ t, exec (.hbmScrubStep h) s = .next t ∧
       (t.lineErr (walkLine h.val (s.hbmScrubAt h.val).pos) =
         match s.lineErr (walkLine h.val (s.hbmScrubAt h.val).pos) with
         | .ce => .clean
         | .ue => .poison
         | e => e) ∧
       (∀ l, l ≠ walkLine h.val (s.hbmScrubAt h.val).pos → t.lineErr l = s.lineErr l) ∧
       t.mem.hbm = s.mem.hbm ∧ t.mem.sram = s.mem.sram ∧
       (t.hbmScrubAt h.val).pos = ((s.hbmScrubAt h.val).pos + 1) % hbmWalk ∧
       (t.hbmScrubAt h.val).due = (s.hbmScrubAt h.val).due + hbmDiv (s.reg 0x0480)) ∧
  (∀ (s : State) (u : Fin 80), s.linkOn = true → bit (s.reg 0x0480) 15 = true → (s.sramScrubAt u.val).due ≤ s.now →
     s.cc.scrub.contains u.val = false →
     exec (.cbufScrubStep u) s = .next { s with cc := { s.cc with scrub := s.cc.scrub ++ [u.val] } }) ∧
  (∀ (s : State), tick s = tick ((scrubsDue (faultLost s)).setCc {})) ∧
  (∀ (s : State) (u : Fin 80), s.cc.touched.contains (bankOf (sramFirst u.val + (s.sramScrubAt u.val).pos)) = true → scrubSram s u = s) ∧
  (∀ (s : State) (u : Fin 80), s.cc.touched.contains (bankOf (sramFirst u.val + (s.sramScrubAt u.val).pos)) = false →
     s.eff u.val ≠ 0 → mget (fun _ => false) s.mem.badPar ((sramFirst u.val + (s.sramScrubAt u.val).pos) / 32) = false →
     ∃ t, scrubSram s u = t ∧ t.mem.sram = s.mem.sram ∧ t.mem.hbm = s.mem.hbm ∧
       t.wordErr (sramFirst u.val + (s.sramScrubAt u.val).pos) =
         (if s.wordValid (sramFirst u.val + (s.sramScrubAt u.val).pos) then
           (match s.wordErr (sramFirst u.val + (s.sramScrubAt u.val).pos) with
            | .ce => .clean
            | .ue => .poison
            | e => e)
          else s.wordErr (sramFirst u.val + (s.sramScrubAt u.val).pos)) ∧
       (∀ w, w ≠ sramFirst u.val + (s.sramScrubAt u.val).pos → t.wordErr w = s.wordErr w ∧ t.wordValid w = s.wordValid w) ∧
       (t.sramScrubAt u.val).due = (s.sramScrubAt u.val).due + cbufDiv (s.reg 0x0480)) ∧
  (∀ (s : State) (w : Word), s.mspOn = true →
     ∃ t, exec (.memScrubWrite w) s = .next t ∧ t.reg 0x0480 = w.toNat &&& 0x9F009F00 ∧ (∀ k, k ≠ 0x0480 → t.reg k = s.reg k) ∧
       (∀ h, h < 4 → (t.hbmScrubAt h).pos = (s.hbmScrubAt h).pos ∧
         (bit w.toNat 31 = true → bit (s.reg 0x0480) 31 = false → (t.hbmScrubAt h).due = s.now + hbmDiv (w.toNat &&& 0x9F009F00)) ∧
         ((bit w.toNat 31 = false ∨ bit (s.reg 0x0480) 31 = true) → t.hbmScrubAt h = s.hbmScrubAt h)) ∧
       t = { s with regs := t.regs, cc := t.cc, mem := { s.mem with hbmScrub := t.mem.hbmScrub, sramScrub := t.mem.sramScrub } })

/-- R239, R240, R241: what an ON controller stores through the store path is what is read: a clean write of a whole line reads back
clean in a later cc, and every byte of every other line is unchanged. R242: in its own cc a requester that comes behind the
writer in the order of the cc reads it, and one that comes before it finds the line as it was. R240: a partial write of a line
merges its bytes into the stored ones; on a line with a natural uncorrectable error or the poison marker the line stays
poisoned, with the bytes merged into its raw data. -/
def Obligations.LinesReadAndMerge : Prop :=
  (∀ (s : State) (a b : Agent) (l : Nat) (d : List Byte), s.eff (88 + stackOf (l * 64)) = 3 → d.length = 64 →
     ccBehind s.cc.hbm l (hbmRank a) = false →
     (readLine ((writeLine s a l (allBytes d) false).setCc {}) b l).1 = d ∧
     (readLine ((writeLine s a l (allBytes d) false).setCc {}) b l).2.1 = false ∧
     (hbmRank a ≤ hbmRank b → (readLine (writeLine s a l (allBytes d) false) b l).1 = d ∧
       (readLine (writeLine s a l (allBytes d) false) b l).2.1 = false) ∧
     (hbmRank b < hbmRank a → (∀ p, p ∈ s.cc.hbm → p.cell ≠ l) → s.errSeen l = .clean →
       (readLine (writeLine s a l (allBytes d) false) b l).1 = s.lineRaw l ∧
       (readLine (writeLine s a l (allBytes d) false) b l).2.1 = false) ∧
     (∀ k, k ≠ l → (writeLine s a l (allBytes d) false).lineRaw k = s.lineRaw k ∧
       (writeLine s a l (allBytes d) false).lineErr k = s.lineErr k) ∧
     (writeLine s a l (allBytes d) false).mem.sram = s.mem.sram) ∧
  (∀ (s : State) (a : Agent) (l : Nat) (new : List (Option Byte)), s.eff (88 + stackOf (l * 64)) = 3 → new.length = 64 → isFull new = false →
     ccBehind s.cc.hbm l (hbmRank a) = false → (∀ x, x ∈ s.mem.acc → x.line ≠ l ∨ x.fix = none) →
     (writeLine s a l new false).lineRaw l = overlay (s.lineRaw l) new ∧
     ((s.lineErr l = .clean ∨ s.lineErr l = .ce) → (writeLine s a l new false).lineErr l = .clean) ∧
     ((s.lineErr l = .ue ∨ s.lineErr l = .poison) → (writeLine s a l new false).lineErr l = .poison))

/-! ### Faults, traces, containment (chapter 19) -/

/-- R395, R398: a record carries GLB_CCNT and EPC_COUNT of its cc, is due in the FIFO 4 cc later, behind every record of an earlier
or the same cc that R398 puts before it, and counts in its tenant's FAULTS. R392: a POP removes the oldest record and nothing
else; without a record of an earlier cc it has no effect, and a record of its own cc that found the FIFO full then enters. FLT_STATUS.COUNT falls with it. R303, R399: the oldest ring copy is issued, one in a cc, and
FRING_WR of its tenant's ring advances modulo the ring; its 32 bytes go to the entry FRING_WR named, and no other byte of memory
changes (an entry in one line of an unprotected window). A copy of a tenant that runs no more, or has no ring, is dropped. R407:
the oldest held trace record is written at entry TRACE_WR of the ring, no other byte of memory changes, and TRACE_WR advances;
without a valid ring it is dropped. -/
def Obligations.FaultRecordsKeepTheirOrder : Prop :=
  (∀ (s : State) (r : FaultRec),
     s.flt.due.Pairwise (fun a b => faultBefore a b = true) →
     (recordFault s r).flt.due.Pairwise (fun a b => faultBefore a b = true) ∧
     (s.now + 4, { r with time := s.ccnt, epoch := s.epc.count }) ∈ (recordFault s r).flt.due ∧
     (∀ e, e ∈ s.flt.due → e ∈ (recordFault s r).flt.due) ∧ (recordFault s r).flt.due.length = s.flt.due.length + 1 ∧
     (r.tv = true → ((recordFault s r).ten r.tenant).faults = min ((s.ten r.tenant).faults + 1) (2 ^ 32 - 1)) ∧
     (recordFault s r).mem = s.mem) ∧
  (∀ (s : State), s.mspOn = true →
     (s.flt.fifo.length ≤ s.cc.fltIn → exec .fltPop s = .next s) ∧
     (∀ r rs x xs, s.flt.fifo = r :: rs → s.cc.fltIn < s.flt.fifo.length → s.cc.fltFull = x :: xs →
       ∃ t, exec .fltPop s = .next t ∧ t.flt = { s.flt with fifo := rs ++ [x] } ∧ t.cc.fltFull = xs) ∧
     (∀ r rs, s.flt.fifo = r :: rs → s.cc.fltIn < s.flt.fifo.length → s.cc.fltFull = [] →
       ∃ t, exec .fltPop s = .next t ∧ t = { s with flt := { s.flt with fifo := rs } } ∧ regRead t 0x0500 + 1 = regRead s 0x0500)) ∧
  (∀ (s : State) (t : Nat) (r : FaultRec) (rest : List (Nat × FaultRec)), s.linkOn = true → s.flt.ring = (t, r) :: rest → s.cc.ringed = false →
     ((s.tenRun t = false ∨ s.tfB 1 t 3 31 27 = 0) → exec .faultRingCopy s = .next { s with flt := { s.flt with ring := rest } }) ∧
     (s.tenRun t = true → s.tfB 1 t 3 31 27 ≠ 0 →
       ∃ u, exec .faultRingCopy s = .next u ∧ exec .faultRingCopy u = .next u ∧ u.flt.ring = rest ∧ u.flt.fifo = s.flt.fifo ∧
         (u.ten t).fringWr = ((s.ten t).fringWr + 1) % 2 ^ s.tfB 1 t 3 31 27 ∧
         ∀ w pa, findWin s t (fringBase s t + 32 * (s.ten t).fringWr) 32 = some w →
           paOf s t w (fringBase s t + 32 * (s.ten t).fringWr) = pa → winProt s t w = false → pa % 32 = 0 →
           s.eff (88 + stackOf (pa / 64 * 64)) = 3 → ccBehind s.cc.hbm (pa / 64) (hbmRank writerAgent) = false →
           bytesAt u.mem.hbm pa 32 = faultBytes r ∧ u.mem.sram = s.mem.sram ∧
           ∀ k, (k < pa ∨ pa + 32 ≤ k) → mget zeroByte u.mem.hbm k = mget zeroByte s.mem.hbm k)) ∧
  (∀ (s : State) (r : Nat × Nat) (rest : List (Nat × Nat)), s.linkOn = true → s.trc.held = r :: rest →
     (s.trc.valid = false → ∃ t, exec .traceRecordWrite s = .next t ∧ t.trc = { s.trc with held := rest } ∧ t.mem = s.mem) ∧
     (∀ pa, s.trc.valid = true → xlate s (traceTenant s) (traceBase s + 16 * (s.trc.wr % traceSlots s)) 16 = some pa → pa % 16 = 0 →
       s.eff (88 + stackOf (pa / 64 * 64)) = 3 → ccBehind s.cc.hbm (pa / 64) (hbmRank writerAgent) = false →
       ∃ t, exec .traceRecordWrite s = .next t ∧ t.trc = { s.trc with held := rest, wr := (s.trc.wr + 1) % 2 ^ 32 } ∧
         bytesAt t.mem.hbm pa 16 = traceBytes r ∧ t.mem.sram = s.mem.sram ∧
         ∀ k, (k < pa ∨ pa + 16 ≤ k) → mget zeroByte t.mem.hbm k = mget zeroByte s.mem.hbm k))

/-- R400: containment starts in this cc and once: every unit but the CLKU is observed OFF with cause CONTAIN (a unit that was OFF
stays so), work and requests stop, and the epoch stays in its state. R339, R400: while a change of M is under way or containment
is in force, no command of the queue engine, the Clicker, the retire unit, a VC, a Cobbler or the event plane has any effect. -/
def Obligations.ContainmentAndChangesHoldWork : Prop :=
  (∀ (s : State) (u : Fin 105), s.linkOn = true → s.power.contained = false →
     ∃ t, exec (.containment u) s = .next t ∧ t.power.contained = true ∧ t.live = false ∧ t.halted = true ∧ t.epc = s.epc ∧
       (∀ v, v < 105 → v ≠ 101 → (t.unit v).obs = 0) ∧ t.unit 101 = s.unit 101 ∧ t.mem = s.mem ∧
       (∃ e, e ∈ t.flt.due ∧ e.2.code = 0x7F ∧ e.2.unit = u.val ∧ e.2.level = 5 ∧ e.2.tag = 0xFFFFFF) ∧
       exec (.containment u) t = .next t) ∧
  (∀ (s : State) (c : Instr), isWork c = true → (s.frozen = true ∨ s.power.contained = true ∨ s.ready = false) → exec c s = .next s)

/-! ### Queues and descriptors (chapters 03, 04) -/

/-- R53, R54, R264: a SUBMIT next in its channel that breaks no rule of Table 03.13 joins the end of its queue's chain-head FIFO, with nothing answered when
RSP asks for nothing, and its queue keeps what it had. R45, R71: an idle queue takes the oldest head of its FIFO: a chain's
first address is fetched next, an inline descriptor is checked at once: it is ready, or loads its records, or faults and stops
its queue; a timed queue without its mask faults TIMED_REFUSED and
stops. -/
def Obligations.ChainHeadsQueueAndStart : Prop :=
  (∀ (s : State) (p : Fin 8) (m : Msg), let q := bits (mword m 0) 5 0; let t := bits (mword m 0) 36 32; let c := submitChain m p (s.port p).links
     s.live = true → (s.port p).state = .up → rxNext s p 2 m = true → submitLate s p q = false →
     egressRoom s p (submitHeads c.rsp) 0 = true → submitFits s p m = true →
     s.epc.state = .opened → bit (s.tw 9 p 4) t = true → s.ownsQ t q = true → (s.port p).qrate = 0 →
     (bits (mword m 1) 39 0 = 0 ∨ bits (mword m 1) 39 0 = s.epc.count) → s.qOn q = true → (s.ten t).abandoned = false →
     fifoRoom (s.q q) c = true → (s.q q).stopped = false →
     ∃ u, exec (.submit p m) s = .next u ∧
       (u.q q).fifo = (s.q q).fifo ++ [{ c with id := (s.q q).nextChain }] ∧
       u.q q = { s.q q with fifo := (u.q q).fifo, nextChain := (s.q q).nextChain + 1 } ∧
       (∀ r, r ≠ q → u.q r = s.q r) ∧ u.mem = s.mem ∧ u.epc = s.epc ∧ u.tacks = s.tacks ∧ u.regs = s.regs) ∧
  (∀ (s : State) (q : Fin 64) (c : Chain) (rest : List Chain), (s.q q).fifo = c :: rest → qLive s q = true → (s.q q).chain = none →
     waitingAt s q = none →
     ∃ t, exec (.chainHeadTake q) s = .next t ∧ t.mem = s.mem ∧ t.epc = s.epc ∧
       (s.qTimed q = false ∨ (s.q q).granted.isSome = true → c.inline = none →
         (t.q q).fifo = rest ∧ (t.q q).chain = some c ∧ (t.q q).next = some (c.addr, 0xFFFFFD) ∧ (t.q q).base = s.now ∧
         t = { s with queues := t.queues }) ∧
       (∀ w, s.qTimed q = false ∨ (s.q q).granted.isSome = true → c.inline = some w →
         (t.q q).stopped = true ∨
         (t.q q).fifo = rest ∧ (t.q q).chain = some c ∧ (t.q q).fetch.length = 1 ∧ ((t.q q).fetch.headD {}).words = some w ∧
           ((t.q q).fetch.headD {}).phase ≠ .asked) ∧
       (s.qTimed q = true → (s.q q).granted = none → (t.q q).stopped = true ∧ (t.q q).chain = none))

/-- R46, R47, R57, R74: a fetch starts at the next address, one in a cc, at most four ahead of the descriptor that issues; a DCACHE
hit holds the line's words, and a miss awaits them; an address that is no multiple of 128 or lies in no window of the tenant is a
bad descriptor (DESC_ADDR). R47: the oldest descriptor asked for returns, 12 cc after it was asked for at the earliest: 128 bytes
without an uncorrectable error give its sixteen words, and when they pass their checks a control descriptor is ready, and one
with operands awaits the records not cached; a poisoned line makes it
bad (DESC_POISON). A bad descriptor stops its queue. R152, R153: the record of an operand still loading is read from its line of
the tenant's Last table and leaves the list of those awaited; a record that passes Table 07.7 enters the record cache. -/
def Obligations.DescriptorsAreFetchedAndChecked : Prop :=
  (∀ (s : State) (q : Fin 64) (a tag : Nat) (c : Chain), (s.q q).next = some (a, tag) → (s.q q).chain = some c → qLive s q = true →
     (s.q q).fetch.length < 5 → (s.q q).nextAt ≤ s.now → fetchedNow s q = false → noBad (s.q q).fetch = true →
     ∃ t, exec (.descriptorFetch q) s = .next t ∧
       (∀ pa, a % 128 = 0 → xlate s (s.qTen q) a 128 = some pa → dcacheHolds s (pa / 128) = false →
         (t.q q).fetch = (s.q q).fetch ++ [{ addr := a, predTag := tag, chain := c.id, at_ := s.now }] ∧ (t.q q).next = none ∧
         t = { s with queues := t.queues }) ∧
       (∀ pa, a % 128 = 0 → xlate s (s.qTen q) a 128 = some pa → dcacheHolds s (pa / 128) = true → dcacheErr s (pa / 128) = .clean →
         (∀ p, p ∈ s.cc.hbm → p.cell / 2 ≠ pa / 128) →
         ∀ w, w = descWords (s.lineRaw (2 * (pa / 128)) ++ s.lineRaw (2 * (pa / 128) + 1)) →
           (t.q q).fetch = (s.q q).fetch ++ [{ addr := a, predTag := tag, chain := c.id, at_ := s.now, words := some w }] ∧
           (t.q q).next = (dKnownNext w).map (fun n => (n, tagOf w)) ∧ t = { s with queues := t.queues, mem := { s.mem with dcache := t.mem.dcache } }) ∧
       ((a % 128 ≠ 0 ∨ xlate s (s.qTen q) a 128 = none) →
         (t.q q).stopped = true ∧ ∃ e, e ∈ t.flt.due ∧ e.2.code = 0x01 ∧ e.2.tag = tag ∧ e.2.queue = q.val ∧ e.2.detail = a)) ∧
  (∀ (s : State) (q : Fin 64) (f : Fetch) (rest : List Fetch), (s.q q).fetch = f :: rest → f.phase = .asked → noBad rest = true →
     f.at_ + 12 ≤ s.now → qLive s q = true →
     (∀ w, (f.words = some w ∨ f.words = none ∧ ∃ pa, xlate s (s.qTen q) f.addr 128 = some pa ∧ pa % 128 = 0 ∧ hbmQuiet s pa 128 ∧
         w = descWords (s.lineRaw (pa / 64) ++ s.lineRaw (pa / 64 + 1))) →
       ∃ t, exec (.descriptorReturn q) s = .next t ∧ t.mem.hbm = s.mem.hbm ∧ t.mem.sram = s.mem.sram ∧
         (fieldsOk s (s.qTen q) w = false → (t.q q).stopped = true ∧ ∃ e, e ∈ t.flt.due ∧ e.2.code = 0x03) ∧
         (fieldsOk s (s.qTen q) w = true → isCtl (dOpcode w) = true → tackOk s (s.qTen q) (dOpcode w) (dParams w) (dPsrEn w) = true →
           order7 s q w [none, none, none, none, none] = none →
           ((t.q q).fetch.headD {}).words = some w ∧ ((t.q q).fetch.headD {}).phase = .ready) ∧
         (fieldsOk s (s.qTen q) w = true → isCtl (dOpcode w) = false → operands w ≠ [] →
           (∀ o, o ∈ operands w → cachedRec s (s.qTen q) (dIndex w o) = none ∧ dIndex w o < s.lastSize (s.qTen q)) →
           ((t.q q).fetch.headD {}).words = some w ∧ ((t.q q).fetch.headD {}).phase = .loading (operands w))) ∧
     (∀ pa, f.words = none → xlate s (s.qTen q) f.addr 128 = some pa → pa % 128 = 0 →
       s.eff (88 + stackOf (pa / 64 * 64)) = 3 → s.eff (88 + stackOf ((pa / 64 + 1) * 64)) = 3 →
       (∀ p, p ∈ s.cc.hbm → p.cell ≠ pa / 64 ∧ p.cell ≠ pa / 64 + 1) →
       (s.lineErr (pa / 64) = .poison ∨ s.lineErr (pa / 64 + 1) = .poison) →
       ∃ t, exec (.descriptorReturn q) s = .next t ∧ t.mem.hbm = s.mem.hbm ∧ (t.q q).stopped = true ∧
         ∃ e, e ∈ t.flt.due ∧ e.2.code = 0x02 ∧ e.2.tag = f.predTag ∧ e.2.queue = q.val ∧ e.2.detail = f.addr)) ∧
  (∀ (s : State) (q : Fin 64) (o : Fin 5) (f : Fetch) (rest : List Fetch) (ms : List Nat) (pa : Nat),
     (s.q q).fetch = f :: rest → f.phase = .loading ms → ms.contains o.val = true → (ms.filter (· != o.val)) ≠ [] → qLive s q = true →
     xlate s (s.qTen q) (s.lastBase (s.qTen q) + 64 * dIndex (f.words.getD []) o.val) 64 = some pa → pa % 64 = 0 →
     hbmQuiet s pa 64 → f.recs.length = 5 →
     ∃ t, exec (.lastRecordReturn q o) s = .next t ∧ t.mem.hbm = s.mem.hbm ∧
       ((t.q q).fetch.headD {}).phase = .loading (ms.filter (· != o.val)) ∧
       recOf ((t.q q).fetch.headD {}).recs o.val = recWords (s.lineRaw (pa / 64)) ∧
       (recCheck s (s.qTen q) false (recWords (s.lineRaw (pa / 64))) = none →
         cachedRec t (s.qTen q) (dIndex (f.words.getD []) o.val) = some (recWords (s.lineRaw (pa / 64)))))

/-- R63, R67, R74, R91, R100: a data descriptor at the front of its queue issues: it is in flight with its words and the parameters
of this cc, cut into its tiles with none dealt, and gone from the front; memory, tacks, VC queues and every other queue's
flights stay. The command of any other opcode leaves it waiting. R96, R223, R397: a descriptor that fails a check made at issue
has no effect but its fault record: its queue stops, and nothing joins the flights. R121: SR_LOAD and SR_STORE issue like a data
descriptor and, when none of their operands is remote, do their work in the same cc: the descriptor is complete, SR_LOAD with
the value it delivers. -/
def Obligations.DataDescriptorsIssue : Prop :=
  (∀ (s : State) (c : Instr) (q : Fin 64) (op : Nat) (fr : Front), dataOpcode c = some (q, op) → frontOf s q = some fr →
     (dOpcode fr.w = op → issueBad s q fr = none →
       ∃ t f, exec c s = .next t ∧ (t.q q).flight.length = (s.q q).flight.length + 1 ∧ (t.q q).flight.getLast? = some f ∧
         f.words = fr.w ∧ f.params = fr.ps ∧ f.recs = fr.f.recs ∧ f.issued = s.now ∧ f.tiles = tileCount fr.w fr.f.recs fr.ps ∧ f.dealt = 0 ∧
         (t.q q).nextSeq = (s.q q).nextSeq + 1 ∧
         t.mem = s.mem ∧ t.tacks = s.tacks ∧ t.vcs = s.vcs ∧ t.epc = s.epc ∧ t.cbls = s.cbls ∧ ∀ r, r ≠ q.val → (t.q r).flight = (s.q r).flight) ∧
     (dOpcode fr.w ≠ op → exec c s = .next s)) ∧
  (∀ (s : State) (c : Instr) (q : Fin 64) (op code detail : Nat) (fr : Front), dataOpcode c = some (q, op) → frontOf s q = some fr →
     dOpcode fr.w = op → issueBad s q fr = some (code, detail) →
     ∃ t, exec c s = .next t ∧ (t.q q).stopped = true ∧ (t.q q).fetch = [] ∧ (t.q q).flight = (s.q q).flight ∧ t.mem = s.mem ∧ t.tacks = s.tacks ∧
       ∃ e, e ∈ t.flt.due ∧ e.2.code = code ∧ e.2.detail = detail ∧ e.2.tag = tagOf fr.w ∧ e.2.queue = q.val ∧ e.2.level = 2) ∧
  (∀ (s : State) (q : Fin 64) (fr : Front), frontOf s q = some fr → issueBad s q fr = none →
     (dOpcode fr.w = 0x08 → srOpen s 0x08 q = none → (∀ f, srOpen (issueIt s q fr id) 0x08 q = some f → srNeeds (issueIt s q fr id) q f = []) →
       ∃ t f, exec (.srLoad q) s = .next t ∧ (t.q q).flight.getLast? = some f ∧ f.words = fr.w ∧ f.complete = true ∧ f.srOut.isSome = true ∧
         t.mem.hbm = s.mem.hbm ∧ t.tacks = s.tacks) ∧
     (dOpcode fr.w = 0x09 → srOpen s 0x09 q = none → (∀ f, srOpen (issueIt s q fr id) 0x09 q = some f → srNeeds (issueIt s q fr id) q f = []) →
       ∃ t f, exec (.srStore q) s = .next t ∧ (t.q q).flight.getLast? = some f ∧ f.words = fr.w ∧ f.complete = true ∧ t.tacks = s.tacks))

/-- R63, R65, R67, R68, R69: a descriptor that may issue in this cc meets no held entry of its tenant (a read no held write, a write
no held entry), its entries fit the tenant's 512, fewer than eight of its queue are in flight, and a BARRIER finds none. -/
def Obligations.IssueWaitsForTheScoreboard : Prop :=
  ∀ (s : State) (q : Nat) (fr : Front), frontOf s q = some fr → s.qTimed q = false →
    let e := sbEntries q (s.q q) fr.w fr.ps
    (s.q q).flight.length < 8 ∧ (dBarrier fr.w = true → (s.q q).flight = []) ∧
    heldCount s (s.qTen q) s.now + e.2 ≤ 512 ∧
    (∀ r f, r < 64 → s.qTen r = s.qTen q → s.qOn r = true → s.qTimed r = false → f ∈ (s.q r).flight →
      ∀ h ∈ f.entries, ∀ x ∈ e.1, (x.1 = true ∨ h.1 = true) → spansMeet (freeMask s (s.qTen q)) x.2 h.2 = false)

/-- R81, R82: a LOOP with a count above 0 pushes its entry, starts its index at 0 and goes on at its body; with a count of 0 it goes
on at its NEXT; with four loops open a count above 0 faults LOOP_DEPTH and stops its queue. R82: a LOOP that is the last of a
body decides that body's loop as it issues: the loop goes round again, or is left, and where that leads is where the new loop is
left to. R78, R83: a BRANCH compares and goes on at its target or at its NEXT, or ends the chain where its END bit of that outcome
says so, or LAST outside every loop. R45: an EPOCH_END ends its chain and the
queue issues nothing more in the epoch. -/
def Obligations.LoopsBranchesAndEnds : Prop :=
  (∀ (s : State) (q : Fin 64) (fr : Front), frontOf s q = some fr → dOpcode fr.w = 0x01 → issueBad s q fr = none →
     let n := loopCount (s.q q) (fr.ps.getD 1 0); let idx := bits (fr.ps.getD 1 0) 15 8; let body := bits (fr.ps.getD 0 0) 39 0
     ∃ t, exec (.loop q) s = .next t ∧ t.mem = s.mem ∧ t.tacks = s.tacks ∧
       ((s.q q).loops.length < 4 → n ≠ 0 →
         (t.q q).next = some (body, tagOf fr.w) ∧
         (dLast fr.w = false →
           (t.q q).loops = { left := n, body := body, idx := idx, next := some (Machine.dNext fr.w) } :: (s.q q).loops ∧
           (t.q q).cnt = (if idx ≤ 7 then (s.q q).cnt.set idx 0 else (s.q q).cnt)) ∧
         (dLast fr.w = true → (s.q q).loops = [] → (t.q q).loops = [{ left := n, body := body, idx := idx, next := none }]) ∧
         (∀ o os, dLast fr.w = true → (s.q q).loops = o :: os →
           (1 < o.left → (t.q q).loops = { left := n, body := body, idx := idx, next := some o.body } ::
             { o with left := o.left - 1, iter := o.iter + 1 } :: os) ∧
           (o.left ≤ 1 → (t.q q).loops = { left := n, body := body, idx := idx, next := o.next } :: os))) ∧
       (n = 0 → dLast fr.w = false →
         (t.q q).loops = (s.q q).loops ∧ (t.q q).next = some (Machine.dNext fr.w, tagOf fr.w) ∧ (t.q q).cnt = (s.q q).cnt) ∧
       (n ≠ 0 → 4 ≤ (s.q q).loops.length → (t.q q).stopped = true ∧ (t.q q).flight = (s.q q).flight ∧ ∃ e, e ∈ t.flt.due ∧ e.2.code = 0x06)) ∧
  (∀ (s : State) (q : Fin 64) (fr : Front), frontOf s q = some fr → dOpcode fr.w = 0x02 → issueBad s q fr = none →
     let p1 := fr.ps.getD 1 0; let taken := cmpHolds (s.q q) (bits p1 1 0) == bit p1 8
     ∃ t, exec (.branch q) s = .next t ∧ t.mem = s.mem ∧ t.tacks = s.tacks ∧ (t.q q).cmp = (s.q q).cmp ∧
       (taken = true → bit p1 9 = false → dLast fr.w = false → (t.q q).next = some (bits (fr.ps.getD 0 0) 39 0, tagOf fr.w)) ∧
       (taken = false → bit p1 10 = false → dLast fr.w = false → (t.q q).next = some (Machine.dNext fr.w, tagOf fr.w)) ∧
       ((taken = true ∧ bit p1 9 = true ∨ taken = false ∧ bit p1 10 = true ∨ dLast fr.w = true ∧ (s.q q).loops = []) →
         (t.q q).chain = none ∧ (t.q q).next = none ∧ (t.q q).loops = [] ∧ (t.q q).owed = (s.q q).owed ++ (s.q q).chain.toList)) ∧
  (∀ (s : State) (q : Fin 64) (fr : Front), frontOf s q = some fr → dOpcode fr.w = 0x05 → issueBad s q fr = none →
     ∃ t, exec (.epochEnd q) s = .next t ∧ (t.q q).ended = true ∧ (t.q q).chain = none ∧ (t.q q).fetch = [] ∧ (t.q q).next = none ∧
       (t.q q).owed = (s.q q).owed ++ (s.q q).chain.toList ∧ (t.q q).flight.length = (s.q q).flight.length + 1 ∧
       qLive t q = false ∧ t.mem = s.mem ∧ t.tacks = s.tacks)

/-- R45, R86, R87: a WAIT issues and stands, and with LAST outside every loop its chain ends as it issues; it is satisfied once its
tack has reached THRESH and no queue below takes the units first, which a CONSUME subtracts, and its queue goes on where the WAIT
leads; unsatisfied at its timeout, TIMEOUT × 1,024 cc after its issue, it goes on at TO_NEXT, or faults WAIT_TIMEOUT and stops
its queue. (Of a WAIT that ends its chain TO_NEXT is not followed, log entry 102.) -/
def Obligations.WaitStandsUntilItsTack : Prop :=
  ∀ (s : State) (q : Fin 64),
    (∀ fr, frontOf s q = some fr → dOpcode fr.w = 0x03 → issueBad s q fr = none →
      ∃ t f w, exec (.wait q) s = .next t ∧ (t.q q).flight.getLast? = some f ∧ f.words = fr.w ∧ f.wait = some w ∧ f.complete = false ∧
        w.tack = bits (fr.ps.getD 0 0) 9 0 ∧ w.thresh = bits (fr.ps.getD 0 0) 31 16 ∧ w.consume = bit (fr.ps.getD 0 0) 32 ∧
        w.until_ = (if bits (fr.ps.getD 1 0) 31 0 = 0 then none else some (s.now + 1024 * bits (fr.ps.getD 1 0) 31 0)) ∧
        w.toNext = (if bit (fr.ps.getD 1 0) 32 then some (bits (fr.ps.getD 2 0) 39 0) else none) ∧
        (dLast fr.w = false → w.goes = some (Machine.dNext fr.w)) ∧
        (dLast fr.w = true → (s.q q).loops = [] → w.goes = none ∧ (t.q q).chain = none ∧ (t.q q).next = none ∧
          (t.q q).owed = (s.q q).owed ++ (s.q q).chain.toList) ∧
        t.tacks = s.tacks ∧ t.mem = s.mem) ∧
    (∀ f w, waitingAt s q = some (f, w) → s.runs = true → w.thresh ≤ (s.tack w.tack).value →
      takenBefore s w.tack q 0 = false →
      ∃ t, exec (.waitSatisfied q) s = .next t ∧
        (t.tack w.tack).value = (if w.consume then (s.tack w.tack).value - w.thresh else (s.tack w.tack).value) ∧
        (∀ k, k ≠ w.tack → t.tack k = s.tack k) ∧ (∀ a, w.goes = some a → (t.q q).next = some (a, tagOf f.words)) ∧
        (w.goes = none → (t.q q).next = (s.q q).next) ∧ t.mem = s.mem) ∧
    (∀ f w d, waitingAt s q = some (f, w) → s.runs = true → (s.tack w.tack).value < w.thresh → w.until_ = some d → d ≤ s.now →
      ∃ t, exec (.waitTimeout q) s = .next t ∧ t.tacks = s.tacks ∧ t.mem = s.mem ∧
        (∀ a, w.toNext = some a → w.goes.isSome = true → (t.q q).next = some (a, tagOf f.words)) ∧
        (w.toNext = none → (t.q q).stopped = true ∧ ∃ e, e ∈ t.flt.due ∧ e.2.code = 0x07 ∧ e.2.queue = q.val))

/-- R77, R79, R84: the SETs: a tack SET issues and leaves its update to its retirement; CNT_WRITE and CNT_ADD change one counter
modulo 2^32; SR_WRITE writes a scalar register at the end of the cc; CMP_CONFIG writes a comparator. R82: one that is the last of a
loop's body gives the loop's counter the number of the next iteration after its own write. -/
def Obligations.SetDescriptorsWriteTheirTarget : Prop :=
  ∀ (s : State) (q : Fin 64) (fr : Front), frontOf s q = some fr → dOpcode fr.w = 0x04 → issueBad s q fr = none →
    let after (c : List Nat) : List Nat :=
      if dLast fr.w then (match (lastGoes (s.q q).loops).2.2 with | some e => c.set e.1 e.2 | none => c) else c
    (bits (fr.ps.getD 0 0) 3 0 = 0 → ∃ t f, exec (.tackAdd q) s = .next t ∧ (t.q q).flight.getLast? = some f ∧ f.words = fr.w ∧ f.complete = false ∧
      t.tacks = s.tacks ∧ t.tackUpd = s.tackUpd ∧ t.mem = s.mem) ∧
    (bits (fr.ps.getD 0 0) 3 0 = 1 → ∃ t f, exec (.tackWrite q) s = .next t ∧ (t.q q).flight.getLast? = some f ∧ f.words = fr.w ∧ f.complete = false ∧
      t.tacks = s.tacks ∧ t.tackUpd = s.tackUpd ∧ t.mem = s.mem) ∧
    (bits (fr.ps.getD 0 0) 3 0 = 2 → ∃ t, exec (.cntWrite q) s = .next t ∧
      (t.q q).cnt = after ((s.q q).cnt.set (setIndex fr) (fr.ps.getD 1 0 % 2 ^ 32)) ∧ t.tacks = s.tacks ∧ t.mem = s.mem ∧ (t.q q).cmp = (s.q q).cmp) ∧
    (bits (fr.ps.getD 0 0) 3 0 = 3 → ∃ t, exec (.cntAdd q) s = .next t ∧
      (t.q q).cnt = after ((s.q q).cnt.set (setIndex fr) (((s.q q).cnt.getD (setIndex fr) 0 + fr.ps.getD 1 0) % 2 ^ 32)) ∧
      t.tacks = s.tacks ∧ t.mem = s.mem ∧ (t.q q).cmp = (s.q q).cmp) ∧
    (bits (fr.ps.getD 0 0) 3 0 = 4 → ∃ t, exec (.srWrite q) s = .next t ∧ (t.q q).sr = (s.q q).sr ∧
      t.srPend = s.srPend ++ [{ due := s.now, rank := 0, queue := q, reg := setIndex fr, value := fr.ps.getD 1 0 % 2 ^ 64 }] ∧
      t.tacks = s.tacks ∧ t.mem = s.mem) ∧
    (bits (fr.ps.getD 0 0) 3 0 = 5 → ∃ t c, exec (.cmpConfig q) s = .next t ∧ (t.q q).cmp = (s.q q).cmp.set (setIndex fr) c ∧
      c.a = bits (fr.ps.getD 1 0) 7 0 ∧ c.b = bits (fr.ps.getD 1 0) 15 8 ∧ c.rel = bits (fr.ps.getD 1 0) 18 16 ∧
      c.interp = bits (fr.ps.getD 1 0) 21 20 ∧ (t.q q).cnt = after (s.q q).cnt ∧ t.tacks = s.tacks ∧ t.mem = s.mem)

/-! ### Cobblers (chapter 09) -/

/-- R186, R201: a COBBLER descriptor starts its image on every named Cobbler that is ON: program counter 0, c1 and c2 from its
parameters, every other register 0. R187, R188, R192, R202: a word that is no legal instruction halts the program with
CBL_ILLEGAL and has no other effect; an image line asked for returns, 12 cc later at the earliest, with the 128 bytes of HBM that
hold it. -/
def Obligations.CobblersLaunchAndFetch : Prop :=
  (∀ (s : State) (q : Fin 64) (fr : Front) (k : Nat), frontOf s q = some fr → dOpcode fr.w = 0x06 → issueBad s q fr = none → k < 16 →
     bit (fr.ps.getD 1 0) k = true → s.isOn (64 + k) = true →
     (xlate s (s.qTen q) (bits (fr.ps.getD 0 0) 39 0) (128 * bits (fr.ps.getD 1 0) 25 16)).isSome = true →
     ∃ t, exec (.cobbler q) s = .next t ∧ (t.cbl k).running = true ∧ (t.cbl k).pc = 0 ∧ (t.cbl k).twait = none ∧
       (t.cbl k).regs.getD 1 0 = bits (fr.ps.getD 2 0) 31 0 ∧ (t.cbl k).regs.getD 2 0 = bits (fr.ps.getD 2 0) 63 32 ∧
       (∀ i, 3 ≤ i → (t.cbl k).regs.getD i 0 = 0) ∧ (t.cbl k).queue = q.val ∧ (t.cbl k).tag = tagOf fr.w ∧
       (∀ j, bit (bits (fr.ps.getD 1 0) 15 0) j = false → t.cbl j = s.cbl j) ∧ t.tacks = s.tacks ∧ t.mem = s.mem) ∧
  (∀ (s : State) (k : Fin 16),
     (∀ w, cWord s k = some w → cLegal w = false → 2 ≤ s.eff (64 + k) → (s.cbl k).issueAt ≤ s.now →
       ∃ t, exec (.cblIllegal k) s = .next t ∧ cblFaulted s t k 0x30 (s.cbl k).pc 0 ∧ t.mem = s.mem ∧ t.tacks = s.tacks) ∧
     (∀ l pa, (s.cbl k).lines.find? (fun l => l.bytes.isNone) = some l → s.runs = true → (s.cbl k).running = true →
       l.at_ + 12 ≤ s.now → xlate s (s.cbl k).tenant ((s.cbl k).prog + 128 * l.no) 128 = some pa → pa % 128 = 0 →
       (dcacheHolds s (pa / 128) = false ∨ dcacheErr s (pa / 128) = .clean) → hbmQuiet s pa 128 →
       ∃ t y, exec (.cblLineFill k) s = .next t ∧ y ∈ (t.cbl k).lines ∧ y.no = l.no ∧ y.bytes = some (bytesAt s.mem.hbm pa 128) ∧
         y.err = l.err ∧ (dcacheHolds s (pa / 128) = false → t.mem.dcache.contains (pa / 128) = true) ∧ t.mem.hbm = s.mem.hbm ∧ (t.cbl k).regs = (s.cbl k).regs ∧
         (t.cbl k).pc = (s.cbl k).pc ∧ (t.cbl k).running = true))

/-- R190: each register operation of Table 09.3 writes its result, modulo 2^32, to RD and goes on with the next instruction; a write
to c0 is discarded. DIV and DIVU by 0 give 0xFFFF_FFFF, REM and REMU by 0 give x, DIV of the most negative number by -1 gives
itself and REM of these 0; none faults. A taken branch goes on at PC + 4 × imm, one not taken at PC + 4; JAL and JALR write PC +
4 to RD and jump; no branch writes a register. A target that is no multiple of 4, which only JALR can form, halts the program
with CBL_ALIGN. -/
def Obligations.CobblerArithmeticAndJumps : Prop :=
  (∀ (s : State) (k : Fin 16) (w : Nat), cblOk s = true →
     let x := BitVec.ofNat 32 (cReg s k (cRs1 w)); let y := BitVec.ofNat 32 (cReg s k (cRs2 w))
     let imm := (BitVec.ofNat 18 w).signExtend 32; let immU := (BitVec.ofNat 18 w).setWidth 32
     let gives (c : Instr) (op : Nat) (v : BitVec 32) : Prop := cblReady s k op w = true →
       ∃ t, exec c s = .next t ∧ cblWrote s t k (cRd w) v ∧ cblStep s t k (((s.cbl k).pc + 4) % 2 ^ 32)
     gives (.cblAdd k) 0x01 (x + y) ∧ gives (.cblSub k) 0x02 (x - y) ∧ gives (.cblAnd k) 0x03 (x &&& y) ∧
     gives (.cblOr k) 0x04 (x ||| y) ∧ gives (.cblXor k) 0x05 (x ^^^ y) ∧ gives (.cblSll k) 0x06 (x <<< (y.toNat % 32)) ∧
     gives (.cblSrl k) 0x07 (x >>> (y.toNat % 32)) ∧ gives (.cblSra k) 0x08 (x.sshiftRight (y.toNat % 32)) ∧
     gives (.cblSlt k) 0x09 (if x.slt y then 1 else 0) ∧ gives (.cblSltu k) 0x0A (if x.ult y then 1 else 0) ∧
     gives (.cblMin k) 0x0B (if x.slt y then x else y) ∧ gives (.cblMax k) 0x0C (if x.slt y then y else x) ∧
     gives (.cblMul k) 0x0D (x * y) ∧ gives (.cblMulh k) 0x0E ((x.signExtend 64 * y.signExtend 64).extractLsb' 32 32) ∧
     gives (.cblDiv k) 0x0F (if y = 0 then 0xFFFFFFFF#32 else x.sdiv y) ∧ gives (.cblDivu k) 0x10 (if y = 0 then 0xFFFFFFFF#32 else x / y) ∧
     gives (.cblRem k) 0x11 (if y = 0 then x else x.srem y) ∧ gives (.cblRemu k) 0x12 (if y = 0 then x else x % y) ∧
     gives (.cblAddi k) 0x14 (x + imm) ∧ gives (.cblAndi k) 0x15 (x &&& immU) ∧ gives (.cblOri k) 0x16 (x ||| immU) ∧
     gives (.cblXori k) 0x17 (x ^^^ immU) ∧ gives (.cblSlli k) 0x18 (x <<< (w % 32)) ∧ gives (.cblSrli k) 0x19 (x >>> (w % 32)) ∧
     gives (.cblSrai k) 0x1A (x.sshiftRight (w % 32)) ∧ gives (.cblSlti k) 0x1B (if x.slt imm then 1 else 0) ∧
     gives (.cblLui k) 0x1C ((BitVec.ofNat 22 w).signExtend 32 <<< 10)) ∧
  (∀ (s : State) (k : Fin 16) (w : Nat), cblOk s = true →
     let x := BitVec.ofNat 32 (cReg s k (cRd w)); let y := BitVec.ofNat 32 (cReg s k (cRs1 w))
     let pc := BitVec.ofNat 32 (s.cbl k).pc; let imm := (BitVec.ofNat 18 w).signExtend 32
     let goes (c : Instr) (op : Nat) (taken : Bool) : Prop := cblReady s k op w = true →
       ∃ t, exec c s = .next t ∧ (∀ i, i < 16 → cReg t k i = cReg s k i) ∧
         cblStep s t k (if taken then pc + 4#32 * imm else pc + 4#32).toNat
     goes (.cblBeq k) 0x31 (x == y) ∧ goes (.cblBne k) 0x32 (x != y) ∧ goes (.cblBlt k) 0x33 (x.slt y) ∧ goes (.cblBge k) 0x34 (!x.slt y) ∧
     goes (.cblBltu k) 0x35 (x.ult y) ∧ goes (.cblBgeu k) 0x36 (!x.ult y) ∧
     (cblReady s k 0x37 w = true →
       ∃ t, exec (.cblJal k) s = .next t ∧ cblWrote s t k (cRd w) (pc + 4#32) ∧
         cblStep s t k (pc + 4#32 * (BitVec.ofNat 22 w).signExtend 32).toNat) ∧
     (cblReady s k 0x38 w = true →
       ∃ t, exec (.cblJalr k) s = .next t ∧ cblWrote s t k (cRd w) (pc + 4#32) ∧
         ((y + imm).toNat % 4 = 0 → cblStep s t k (y + imm).toNat) ∧
         ((y + imm).toNat % 4 ≠ 0 → (t.cbl k).running = false ∧ t.mem = s.mem ∧ ∃ e, e ∈ t.flt.due ∧ e.2.code = 0x31 ∧ e.2.unit = 64 + k.val)))

/-- R189, R193: a load from local memory at x + imm writes RD with its bytes, sign- or zero-extended, and a store writes the low
bytes of its register and no other byte; an address beyond 64 KiB, or one not aligned to its size, halts the program (CBL_ACCESS,
CBL_ALIGN) with no effect of its own. R189, R194: LWC and SWC read and write four bytes of the quad member's CBUF that their
address names, CGET and CPUT copy FN + 1 words of 16 bytes between CBUF and local memory; every other byte stays. A place the
tenant may not touch halts the program. -/
def Obligations.CobblerLocalAndCbufAccess : Prop :=
  (∀ (s : State) (k : Fin 16) (w : Nat), cblOk s = true →
     let a := (BitVec.ofNat 32 (cReg s k (cRs1 w)) + (BitVec.ofNat 18 w).signExtend 32).toNat
     let m := 2 ^ 27 + k.val * 2 ^ 16 + a
     (∀ c op n sgn, localLoad c = some (k, op, n, sgn) → cblReady s k op w = true →
       (a < 65536 → a % n = 0 → sramQuiet s m n →
         ∃ t, exec c s = .next t ∧
           cblWrote s t k (cRd w) (let v := BitVec.ofNat (8 * n) (leNat ((List.range n).map fun i => s.sramByte (m + i)))
                                   if sgn then v.signExtend 32 else v.setWidth 32) ∧
           cblStep s t k (((s.cbl k).pc + 4) % 2 ^ 32)) ∧
       (65536 ≤ a → ∃ t, exec c s = .next t ∧ cblFaulted s t k 0x32 (s.cbl k).pc a) ∧
       (a < 65536 → a % n ≠ 0 → ∃ t, exec c s = .next t ∧ cblFaulted s t k 0x31 (s.cbl k).pc a)) ∧
     (∀ c op n, localStore c = some (k, op, n) → cblReady s k op w = true →
       (a < 65536 → a % n = 0 → sramQuiet s m n →
         ∃ t, exec c s = .next t ∧ (t.cbl k).pc = ((s.cbl k).pc + 4) % 2 ^ 32 ∧ (t.cbl k).regs = (s.cbl k).regs ∧
           (∀ i, i < n → t.sramByte (m + i) = BitVec.ofNat 8 (cReg s k (cRd w) / 256 ^ i)) ∧
           (∀ b, b < m ∨ m + n ≤ b → t.sramByte b = s.sramByte b) ∧ t.mem.hbm = s.mem.hbm ∧ t.tacks = s.tacks) ∧
       (65536 ≤ a → ∃ t, exec c s = .next t ∧ cblFaulted s t k 0x32 (s.cbl k).pc a) ∧
       (a < 65536 → a % n ≠ 0 → ∃ t, exec c s = .next t ∧ cblFaulted s t k 0x31 (s.cbl k).pc a))) ∧
  (∀ (s : State) (k : Fin 16) (w : Nat), cblOk s = true →
     let x := cReg s k (cRs1 w); let l := localAddr k (cReg s k (cRd w)); let n := 16 * (cFn w + 1)
     let a := (BitVec.ofNat 32 x + (BitVec.ofNat 18 w).signExtend 32).toNat
     (∀ p, cbufPlace s k a 0 4 = .ok p → sramQuiet s p 4 →
       (cblReady s k 0x28 w = true → ∃ t, exec (.cblLwc k) s = .next t ∧
         cblWrote s t k (cRd w) (BitVec.ofNat 32 (leNat ((List.range 4).map fun i => s.sramByte (p + i)))) ∧
         cblStep s t k (((s.cbl k).pc + 4) % 2 ^ 32)) ∧
       (cblReady s k 0x29 w = true → ∃ t, exec (.cblSwc k) s = .next t ∧ (t.cbl k).regs = (s.cbl k).regs ∧
         (t.cbl k).pc = ((s.cbl k).pc + 4) % 2 ^ 32 ∧
         (∀ i, i < 4 → t.sramByte (p + i) = BitVec.ofNat 8 (cReg s k (cRd w) / 256 ^ i)) ∧
         (∀ b, b < p ∨ p + 4 ≤ b → t.sramByte b = s.sramByte b) ∧ t.mem.hbm = s.mem.hbm)) ∧
     (∀ c, cbufPlace s k a 0 4 = .error c →
       (cblReady s k 0x28 w = true → ∃ t, exec (.cblLwc k) s = .next t ∧ cblFaulted s t k c (s.cbl k).pc a) ∧
       (cblReady s k 0x29 w = true → ∃ t, exec (.cblSwc k) s = .next t ∧ cblFaulted s t k c (s.cbl k).pc a)) ∧
     (∀ p, cbufPlace s k x n 16 = .ok p → copyBad (cReg s k (cRd w)) n = none → sramQuiet s p n → sramQuiet s l n →
       (cblReady s k 0x2A w = true → ∃ t, exec (.cblCget k) s = .next t ∧ (t.cbl k).regs = (s.cbl k).regs ∧
         (t.cbl k).pc = ((s.cbl k).pc + 4) % 2 ^ 32 ∧ (∀ i, i < n → t.sramByte (l + i) = s.sramByte (p + i)) ∧
         (∀ b, b < l ∨ l + n ≤ b → t.sramByte b = s.sramByte b) ∧ t.mem.hbm = s.mem.hbm) ∧
       (cblReady s k 0x2B w = true → ∃ t, exec (.cblCput k) s = .next t ∧ (t.cbl k).regs = (s.cbl k).regs ∧
         (t.cbl k).pc = ((s.cbl k).pc + 4) % 2 ^ 32 ∧ (∀ i, i < n → t.sramByte (p + i) = s.sramByte (l + i)) ∧
         (∀ b, b < p ∨ p + n ≤ b → t.sramByte b = s.sramByte b) ∧ t.mem.hbm = s.mem.hbm)) ∧
     (∀ c, (cbufPlace s k x n 16 = .error c →
         (cblReady s k 0x2A w = true → ∃ t, exec (.cblCget k) s = .next t ∧ cblFaulted s t k c (s.cbl k).pc x) ∧
         (cblReady s k 0x2B w = true → ∃ t, exec (.cblCput k) s = .next t ∧ cblFaulted s t k c (s.cbl k).pc x)) ∧
       (∀ p, cbufPlace s k x n 16 = .ok p → copyBad (cReg s k (cRd w)) n = some c →
         (cblReady s k 0x2A w = true → ∃ t, exec (.cblCget k) s = .next t ∧ cblFaulted s t k c (s.cbl k).pc (cReg s k (cRd w))) ∧
         (cblReady s k 0x2B w = true → ∃ t, exec (.cblCput k) s = .next t ∧ cblFaulted s t k c (s.cbl k).pc (cReg s k (cRd w))))))

/-- R189, R195, R196: an HBM access becomes outstanding and the program goes on. LWH and HGET have read their bytes, which reach RD
or local memory only when the operation completes; SWH and HPUT have written theirs, and no other byte. An address in no window
of the holder halts the program. R196, R197: an operation completes: RD receives an LWH's word, local memory an HGET's bytes,
and it is no longer outstanding; those of a program that has ended are discarded. FENCE issues once none is outstanding, and
only moves on. -/
def Obligations.CobblerHbmAccess : Prop :=
  (∀ (s : State) (k : Fin 16) (w a : Nat), cblOk s = true →
     let x := cReg s k (cRs1 w); let y := cReg s k (cRs2 w); let l := cReg s k (cRd w); let n := 16 * (cFn w + 1)
     let ten := (s.cbl k).tenant; let nx := ((s.cbl k).pc + 4) % 2 ^ 32
     (hbmPlace s k x y 4 4 = .ok a →
       (∀ pa, xlate s ten a 4 = some pa → pa % 4 = 0 → hbmQuiet s pa 4 → cblReady s k 0x2C w = true →
         ∃ t o, exec (.cblLwh k) s = .next t ∧ (cblPath s k nx = true → (t.cbl k).ops = (s.cbl k).ops ++ [o]) ∧ o.kind = 0 ∧ o.dest = cRd w ∧ o.addr = a ∧
           o.data = bytesAt s.mem.hbm pa 4 ∧ o.bad = none ∧ o.dead = false ∧ (t.cbl k).regs = (s.cbl k).regs ∧ (t.cbl k).pc = nx ∧ t.mem = s.mem) ∧
       (∀ v pa, s.tenRun ten = true → findWin s ten a 4 = some v → winProt s ten v = false → paOf s ten v a = pa → pa % 4 = 0 →
         hbmQuiet s pa 4 → cblReady s k 0x2D w = true →
         ∃ t o, exec (.cblSwh k) s = .next t ∧ (cblPath s k nx = true → (t.cbl k).ops = (s.cbl k).ops ++ [o]) ∧ o.kind = 1 ∧ (t.cbl k).pc = nx ∧
           bytesAt t.mem.hbm pa 4 = leBytes 4 l ∧
           (∀ b, b < pa ∨ pa + 4 ≤ b → mget zeroByte t.mem.hbm b = mget zeroByte s.mem.hbm b) ∧ t.mem.sram = s.mem.sram)) ∧
     (hbmPlace s k x y n 16 = .ok a → copyBad l n = none →
       (∀ r, readHbmParts (cIssue (cTouch s k) k w) k (s.cbl k).nextOp ten a n = r → cblReady s k 0x2E w = true →
         ∃ t o, exec (.cblHget k) s = .next t ∧ (cblPath s k nx = true → (t.cbl k).ops = (s.cbl k).ops ++ [o]) ∧ o.kind = 2 ∧ o.dest = l ∧ o.addr = a ∧
           o.data = r.1 ∧ o.bad = r.2.1 ∧ (t.cbl k).pc = nx ∧ t.mem.hbm = s.mem.hbm ∧ t.mem.sram = s.mem.sram) ∧
       (∀ v pa, s.tenRun ten = true → findWin s ten a n = some v → winProt s ten v = false → paOf s ten v a = pa →
         hbmQuiet s pa n → sramQuiet s (localAddr k l) n → cblReady s k 0x2F w = true →
         ∃ t o, exec (.cblHput k) s = .next t ∧ (cblPath s k nx = true → (t.cbl k).ops = (s.cbl k).ops ++ [o]) ∧ o.kind = 3 ∧ (t.cbl k).pc = nx ∧
           (∀ i, i < n → mget zeroByte t.mem.hbm (pa + i) = s.sramByte (localAddr k l + i)) ∧
           (∀ b, b < pa ∨ pa + n ≤ b → mget zeroByte t.mem.hbm b = mget zeroByte s.mem.hbm b) ∧ t.mem.sram = s.mem.sram)) ∧
     (∀ c, hbmPlace s k x y 4 4 = .error c →
       (cblReady s k 0x2C w = true → ∃ t, exec (.cblLwh k) s = .next t ∧ cblFaulted s t k c (s.cbl k).pc x) ∧
       (cblReady s k 0x2D w = true → ∃ t, exec (.cblSwh k) s = .next t ∧ cblFaulted s t k c (s.cbl k).pc x))) ∧
  (∀ (s : State) (k : Fin 16), cblOk s = true →
     (∀ (n : Nat) (o : CblOp), (s.cbl k).ops.find? (fun o => o.id == n) = some o → s.live = true → noAcc s (.cobbler k o.id) = true →
       ∃ t, exec (.cblHbmComplete k n) s = .next t ∧ (t.cbl k).ops.length + 1 = (s.cbl k).ops.length ∧ (t.cbl k).pc = (s.cbl k).pc ∧
         t.mem.hbm = s.mem.hbm ∧
         ((o.dead = true ∨ o.kind = 1 ∨ o.kind = 3) → (t.cbl k).regs = (s.cbl k).regs ∧ t.mem = s.mem) ∧
         (o.dead = false → o.kind = 0 → o.bad = none → cblWrote s t k o.dest (BitVec.ofNat 32 (leNat o.data)) ∧ t.mem = s.mem) ∧
         (o.dead = false → o.kind = 2 → o.bad = none → o.data.length = 16 * o.n → 0 < o.n → o.dest % 16 = 0 →
           sramQuiet s (localAddr k o.dest) (16 * o.n) →
           (∀ i, i < 16 * o.n → t.sramByte (localAddr k o.dest + i) = o.data.getD i 0) ∧ (t.cbl k).regs = (s.cbl k).regs ∧
           ∀ b, b < localAddr k o.dest ∨ localAddr k o.dest + 16 * o.n ≤ b → t.sramByte b = s.sramByte b)) ∧
     (∀ w, cblReady s k 0x30 w = true →
       cOut s k = [] ∧ ∃ t, exec (.cblFence k) s = .next t ∧ (t.cbl k).regs = (s.cbl k).regs ∧ cblStep s t k (((s.cbl k).pc + 4) % 2 ^ 32)))

/-- R85, R86, R198: TSET sends its update of a tack the holder owns, applied 2 cc later; TWAIT stands at its tack until the value
reaches its threshold and no queue and no Cobbler below takes the units first, which CONSUME subtracts and RD answers with 1, or
its limit passes, answered with 0. A tack of another tenant halts the program. R79, R199, R200, R202: SRRD reads half of a scalar
register as the next cc begins, SRWR writes one 2 cc later, SUBMIT appends a chain head 2 cc later and gives its status, HALT ends
the program; a queue of another tenant halts it with CBL_ACCESS for SRRD and SRWR, and gives status 4 for SUBMIT; a high word of
SUBMIT that is no byte halts it with CBL_ACCESS. -/
def Obligations.CobblerTacksAndQueues : Prop :=
  (∀ (s : State) (k : Fin 16) (w : Nat), cblOk s = true →
     let x := cReg s k (cRs1 w) % 1024; let y := cReg s k (cRs2 w) % 2 ^ 16; let nx := ((s.cbl k).pc + 4) % 2 ^ 32
     (s.ownsTack (s.cbl k).tenant x = true →
       (cblReady s k 0x39 w = true → cFn w % 2 = 0 →
         ∃ t, exec (.cblTsetAdd k) s = .next t ∧ (t.cbl k).pc = nx ∧ (t.cbl k).regs = (s.cbl k).regs ∧ t.tacks = s.tacks ∧ t.mem = s.mem ∧
           t.tackUpd = s.tackUpd ++ [{ due := s.now + 2, rank := 64 + k.val, tack := x, write := false, value := y }]) ∧
       (cblReady s k 0x39 w = true → cFn w % 2 = 1 →
         ∃ t, exec (.cblTsetWrite k) s = .next t ∧ (t.cbl k).pc = nx ∧ (t.cbl k).regs = (s.cbl k).regs ∧ t.tacks = s.tacks ∧ t.mem = s.mem ∧
           t.tackUpd = s.tackUpd ++ [{ due := s.now + 2, rank := 64 + k.val, tack := x, write := true, value := y }]) ∧
       (cblReady s k 0x3A w = true →
         ∃ t, exec (.cblTwait k) s = .next t ∧ (t.cbl k).pc = (s.cbl k).pc ∧ (t.cbl k).regs = (s.cbl k).regs ∧ t.tacks = s.tacks ∧
           (t.cbl k).twait = some { tack := x, thresh := y, consume := bit w 13
                                    until_ := if bits w 12 0 = 0 then none else some (s.now + 1024 * bits w 12 0) })) ∧
     (s.ownsTack (s.cbl k).tenant x = false → cblReady s k 0x3A w = true →
       ∃ t, exec (.cblTwait k) s = .next t ∧ (t.cbl k).running = false ∧ ∃ e, e ∈ t.flt.due ∧ e.2.code = 0x05 ∧ e.2.unit = 64 + k.val) ∧
     (∀ u, (s.cbl k).twait = some u → s.runs = true →
       (u.thresh ≤ (s.tack u.tack).value → takenBefore s u.tack 64 k = false →
         ∃ t, exec (.cblTwaitSatisfied k) s = .next t ∧ (t.cbl k).pc = nx ∧ cblWrote s t k (s.cbl k).twaitRd 1#32 ∧ (t.cbl k).twait = none ∧
           (t.tack u.tack).value = (if u.consume then (s.tack u.tack).value - u.thresh else (s.tack u.tack).value) ∧
           ∀ j, j ≠ u.tack → t.tack j = s.tack j) ∧
       (∀ d, (s.tack u.tack).value < u.thresh → u.until_ = some d → d ≤ s.now →
         ∃ t, exec (.cblTwaitTimeout k) s = .next t ∧ (t.cbl k).pc = nx ∧ cblWrote s t k (s.cbl k).twaitRd 0#32 ∧ (t.cbl k).twait = none ∧
           t.tacks = s.tacks))) ∧
  (∀ (s : State) (k : Fin 16) (w : Nat), cblOk s = true →
     let x := cReg s k (cRs1 w); let y := cReg s k (cRs2 w); let q := x % 64; let ten := (s.cbl k).tenant
     let nx := ((s.cbl k).pc + 4) % 2 ^ 32
     (s.ownsQ ten q = true →
       (cblReady s k 0x3B w = true → ∃ t, exec (.cblSrrd k) s = .next t ∧ (t.cbl k).regs = (s.cbl k).regs ∧ cblStep s t k nx ∧
         (t.cbl k).late = (s.cbl k).late ++ [{ due := s.now + 1, queue := q, arg := bits w 3 0, rd := cRd w }]) ∧
       (cblReady s k 0x3C w = true → ∃ t, exec (.cblSrwr k) s = .next t ∧ (t.cbl k).pc = nx ∧ (t.cbl k).regs = (s.cbl k).regs ∧ t.mem = s.mem ∧
         t.srPend = s.srPend ++ [{ due := s.now + 2, rank := 1 + k.val, queue := q, reg := bits w 2 0
                                   value := cReg s k (cRd w) * 2 ^ 32 + y }])) ∧
     (s.ownsQ ten q = false →
       (cblReady s k 0x3B w = true → ∃ t, exec (.cblSrrd k) s = .next t ∧ cblFaulted s t k 0x32 (s.cbl k).pc x) ∧
       (cblReady s k 0x3C w = true → ∃ t, exec (.cblSrwr k) s = .next t ∧ cblFaulted s t k 0x32 (s.cbl k).pc x ∧ t.srPend = s.srPend)) ∧
     (cblReady s k 0x3D w = true →
       (y < 256 → ∃ t, exec (.cblSubmit k) s = .next t ∧ (t.cbl k).regs = (s.cbl k).regs ∧ cblStep s t k nx ∧
         (t.cbl k).late = (s.cbl k).late ++
           [{ due := s.now + 2, submit := true, queue := bits w 5 0, arg := y * 2 ^ 32 + x, tenant := ten, rd := cRd w }]) ∧
       (256 ≤ y → ∃ t, exec (.cblSubmit k) s = .next t ∧ cblFaulted s t k 0x32 (s.cbl k).pc x)) ∧
     (cblReady s k 0x3E w = true →
       cOut s k = [] ∧ ∃ t, exec (.cblHalt k) s = .next t ∧ (t.cbl k).running = false ∧ (t.cbl k).regs = (s.cbl k).regs ∧ t.mem = s.mem ∧
         t.flt = s.flt ∧ ∀ j, j ≠ k.val → t.cbl j = s.cbl j)) ∧
  (∀ (s : State) (k : Fin 16) (l : CblLate), cblOk s = true →
     (l.submit = false →
       let v := (s.q l.queue).sr.getD (l.arg % 8) 0
       cblWrote s (cblLate s k l) k l.rd (if bit l.arg 3 then BitVec.ofNat 32 (v / 2 ^ 32) else BitVec.ofNat 32 v) ∧
       cblLate s k l = { s with cbls := (cblLate s k l).cbls }) ∧
     (l.submit = true →
       let st := cblSubmitStatus s l.tenant l.queue l.arg
       cblWrote s (cblLate s k l) k l.rd (BitVec.ofNat 32 st) ∧
       (st = 0 → ∃ c, ((cblLate s k l).q l.queue).fifo = (s.q l.queue).fifo ++ [c] ∧ c.addr = l.arg ∧ c.tenant = l.tenant ∧ c.rsp = 0) ∧
       (st ≠ 0 → (cblLate s k l).queues = s.queues) ∧ cblLate s k l = { s with cbls := (cblLate s k l).cbls, queues := (cblLate s k l).queues }) ∧
     (s.runs = true → (∀ j, j ≠ k.val → (s.cbl j).late = []) → (s.cbl k).late = [l] → l.due ≤ s.now →
       cblLateDue s = cblLate (s.modCbl k fun c => { c with late := [] }) k l))

/-! ### Values (chapters 05, 06) -/

/-- R103, R140: before their one rounding the element-wise operations are exact on finite values: sum, difference, product,
quotient, fused multiply-add, maximum, minimum, magnitude, negation, and the integers below and above. R131, R140: a format's
encoder gives back every encoding that is no NaN from its own value, without saturation. -/
def Obligations.ElementArithmeticAndFormats : Prop :=
  (∀ (w ps : List Nat) (a b c : Machine.Num), a.fin = true → b.fin = true → c.fin = true → 0 < a.den → 0 < b.den → 0 < c.den →
     let r := elemOp w ps a b c
     (dOpcode w = 0x10 → valueIs r (a.sgn * b.den + b.sgn * a.den) (a.den * b.den)) ∧
     (dOpcode w = 0x11 → valueIs r (a.sgn * b.den - b.sgn * a.den) (a.den * b.den)) ∧
     (dOpcode w = 0x12 → valueIs r (a.sgn * b.sgn) (a.den * b.den)) ∧
     (dOpcode w = 0x13 → b.num ≠ 0 → valueIs r (a.sgn * (if b.neg then -(b.den : Int) else b.den)) (a.den * b.num)) ∧
     (dOpcode w = 0x16 → valueIs r (a.sgn * b.sgn * c.den + c.sgn * a.den * b.den) (a.den * b.den * c.den)) ∧
     (dOpcode w = 0x14 → if a.sgn * b.den ≤ b.sgn * a.den then valueIs r b.sgn b.den else valueIs r a.sgn a.den) ∧
     (dOpcode w = 0x15 → if a.sgn * b.den ≤ b.sgn * a.den then valueIs r a.sgn a.den else valueIs r b.sgn b.den) ∧
     (dOpcode w = 0x20 → valueIs r a.sgn.natAbs a.den) ∧ (dOpcode w = 0x21 → valueIs r (-a.sgn) a.den) ∧
     (dOpcode w = 0x25 → valueIs r (a.sgn / a.den) 1) ∧ (dOpcode w = 0x26 → valueIs r (-(-a.sgn / a.den)) 1)) ∧
  (∀ (f : Fmt) (ovf : Bool) (b : Nat), f ∈ formats → b < 2 ^ (1 + f.e + f.m) → (fmtDecode f b).nan = false →
     fmtEncode f ovf (fmtDecode f b) = { bits := b })

/-- R140: the encoder rounds to nearest: while the result is a finite number that did not saturate, no encoding of the format lies
closer to the value. -/
def Obligations.RoundingIsNearest : Prop :=
  ∀ (f : Fmt) (x : Machine.Num) (c : Nat), f ∈ formats → x.fin = true → 0 < x.den → c < 2 ^ (1 + f.e + f.m) → (fmtDecode f c).fin = true →
    let y := fmtDecode f (fmtEncode f false x).bits; let z := fmtDecode f c
    (fmtEncode f false x).sat = false → y.fin = true →
    (y.sgn * x.den - x.sgn * y.den).natAbs * z.den ≤ (z.sgn * x.den - x.sgn * z.den).natAbs * y.den

/-! ### Tiles, Awl units and retirement (chapters 04, 08) -/

/-- R91, R92: 12 cc after its issue, and one in a cc, a descriptor's tile is dealt to the first eligible VC after the last one that
has a free slot of its four, in the order of its descriptor's tiles, that of a guarded queue when its tenant has its turn there
(whose length is log entry 103's); nothing else changes. R64, R165, R168: the tile at the front of a VC's queue, one for an Awl unit
in its turn, runs once the remote lines it needs are here: it leaves the queue and its descriptor has one more tile done, complete with its last; before that it forms its READs
and stays. -/
def Obligations.TilesAreDealtAndRun : Prop :=
  (∀ (s : State) (q : Fin 64) (f : Flight) (v : Nat), s.runs = true → dealNow s q = some (f, v) →
     (s.qTimed q = true ∨ turnOf s v = some (s.qTen q)) →
     ∃ t g, exec (.tileDeal q) s = .next t ∧ (t.vc v).tiles = (s.vc v).tiles ++ [{ queue := q, seq := f.seq, no := f.dealt }] ∧
       (t.vc v).tiles.length ≤ 4 ∧ eligible s q f v = true ∧ (∀ u, u ≠ v → t.vc u = s.vc u) ∧
       (∀ l u, vcsAfter f.lastVc = l ++ v :: u → v ∉ l → ∀ x ∈ l, eligible s q f x = false ∨ 4 ≤ (s.vc x).tiles.length) ∧
       g ∈ (t.q q).flight ∧ g = { f with dealt := f.dealt + 1, lastVc := some v, dealtAt := s.now } ∧ f.dealt < f.tiles ∧
       f.issued + 12 ≤ s.now ∧
       (∀ r, r ≠ q.val → t.q r = s.q r) ∧ t = { s with vcs := t.vcs, queues := t.queues }) ∧
  (∀ (s : State) (v : Fin 64) (x : Tile) (rest : List Tile) (f : Flight), s.runs = true → (s.vc v).tiles = x :: rest →
     s.flightAt x.queue x.seq = some f → awlTurn s v x = true →
     let r : Flight := { f with owns := f.owns.filter fun o => o.tile == x.no }
     (linesHere r (tileNeeds s x.queue v r x.no) = true →
       ∃ t g, exec (.tileExecute v) s = .next t ∧ (t.vc v).tiles = rest ∧ t.flightAt x.queue x.seq = some g ∧ g.done = f.done + 1 ∧
         g.words = f.words ∧ g.recs = f.recs ∧ g.params = f.params ∧
         (clsOf f.words ≠ .red → clsOf f.words ≠ .redsfu → dOpcode f.words ≠ 0x93 → f.tiles ≤ f.done + 1 → g.complete = true) ∧
         (∀ u, u ≠ v.val → (t.vc u).tiles = (s.vc u).tiles) ∧ t.tacks = s.tacks ∧ t.cbls = s.cbls ∧ t.epc = s.epc) ∧
     (linesHere r (tileNeeds s x.queue v r x.no) = false →
       ∃ t, exec (.tileExecute v) s = .next t ∧ t.vcs = s.vcs ∧ t.mem = s.mem ∧ t.tacks = s.tacks))

/-- R172, R173, R175: a contribution leaves its way to the home Awl and is applied when its tile heads the order, else held. Applied,
it is combined into the home's table under its element (Table 08.2), where its COMB combines or a WRITE must wait for the
write-back; any other WRITE leaves the table as it is. One the full buffer refuses stays on its way and its tile is suspended,
until every home would accept its next message. A tile's end marker lets the home go past that tile. R173, R176: when every tile
of the SCATTER a home serves has been applied there, the home writes its table back and serves the next, after it has asked for
the remote lines it needs; with the last home's job gone the descriptor is complete. (What an abandoned SCATTER still writes is
`wbKept`.) -/
def Obligations.ScatterContributionsReachHome : Prop :=
  (∀ (s : State) (y h : Fin 8), s.runs = true →
     (∀ m j, nextMsg s y h = some m → m.marker = false → jobOf (s.awl h) m = some j → accepts (s.awl h) m = true →
       ∃ t i, exec (.contribution y h) s = .next t ∧ awlOut t y h = (awlOut s y h).erase m ∧ t.tacks = s.tacks ∧ t.epc = s.epc ∧
         jobOf (t.awl h) m = some i ∧
         (atHead (s.awl h) j m = false → i = { j with held := j.held ++ [m] } ∧ t.mem = s.mem) ∧
         (∀ f, atHead (s.awl h) j m = true → s.flightAt m.queue m.seq = some f →
           let d := recOf f.recs 4; let ten := s.qTen m.queue
           ((scComb f ≠ 0 ∨ writeWaits (viewAt s f (dstMark m.tile)) ten m.vc d (unflat (rSizes d) m.dst) = true) →
             t.mem = s.mem ∧ i = { j with table := i.table } ∧
             ∃ c, c ∈ i.table ∧ sameDst d m c = true ∧ c.value = combIn (scComb f) ((j.table.find? (sameDst d m)).map (·.value)) m.value) ∧
           (scComb f = 0 → writeWaits (viewAt s f (dstMark m.tile)) ten m.vc d (unflat (rSizes d) m.dst) = false → i = j))) ∧
     (∀ m, nextMsg s y h = some m → m.marker = false → accepts (s.awl h) m = false →
       ∃ t, exec (.contribution y h) s = .next t ∧
         (t.awl y).suspended = (s.awl y).suspended ++ [{ queue := m.queue, seq := m.seq, no := m.tile }] ∧
         t = { s with awls := t.awls } ∧ ∀ z, awlOut t y z = awlOut s y z) ∧
     (∀ m j, nextMsg s y h = some m → m.marker = true → jobOf (s.awl h) m = some j →
       ∃ t i, exec (.endMarker y h) s = .next t ∧ awlOut t y h = (awlOut s y h).erase m ∧ jobOf (t.awl h) m = some i ∧
         i.ended.contains m.tile = true ∧ j.applied ≤ i.applied ∧
         (atHead (s.awl h) j m = true → j.applied < i.applied) ∧ t.tacks = s.tacks) ∧
     (∀ x ts, (s.awl y).suspended = x :: ts →
       (∀ z m, z < 8 → (awlOut s y z).find? (fun m => ofTile m x) = some m → m.marker = true ∨ accepts (s.awl z) m = true) →
       ∃ t, exec (.tileResume y) s = .next t ∧ (t.awl y).suspended = ts ∧ t = { s with awls := t.awls } ∧
         ∀ z, z ≠ y.val → t.awl z = s.awl z)) ∧
  (∀ (s : State) (h : Fin 8) (j : ScJob) (js : List ScJob) (f : Flight), s.runs = true → (s.awl h).jobs = j :: js →
     s.flightAt j.queue j.seq = some f → f.tiles ≤ j.applied →
     let w := wbKept s j.queue f j
     (linesHere f (wbNeeds s j.queue f w) = true →
       ∃ t g, exec (.scatterWriteback h) s = .next t ∧ (js = [] → t.mem = (writeBack s h j.queue f w).mem) ∧ (f.abandoned = false → w = j) ∧
         (t.awl h).jobs.length = js.length ∧ t.flightAt j.queue j.seq = some g ∧
         (js = [] → (∀ z, z < 8 → z ≠ h.val → (s.awl z).jobs.any (fun x => x.queue == j.queue && x.seq == j.seq) = false) → g.complete = true) ∧
         t.tacks = s.tacks ∧ t.vcs = s.vcs) ∧
     (linesHere f (wbNeeds s j.queue f w) = false →
       ∃ t, exec (.scatterWriteback h) s = .next t ∧ t.awls = s.awls ∧ t.mem = s.mem ∧ t.tacks = s.tacks ∧ t.vcs = s.vcs))

/-- R108, R126: once every tile of a reduction has run, its partials are combined and written, and the descriptor is complete; it is
combined once. R42, R64, R79, R85: the oldest descriptor of a queue whose work has completed retires: it is counted, its SR_OUT
value and its tack update are on their way, and without NOTIFY no byte of memory changes. -/
def Obligations.ReductionsAndRetirement : Prop :=
  (∀ (s : State) (q : Fin 64) (f : Flight), s.runs = true →
     (s.q q).flight.find? (fun f => (clsOf f.words == .red || clsOf f.words == .redsfu) && !f.combined && decide (f.tiles ≤ f.done)) = some f →
     s.flightAt q f.seq = some f →
     ∃ t g, exec (.reductionCombine q) s = .next t ∧ t.flightAt q f.seq = some g ∧ g.combined = true ∧ g.complete = true ∧ g.words = f.words ∧
       g.done = f.done ∧ t.vcs = s.vcs ∧ t.tacks = s.tacks ∧ t.epc = s.epc) ∧
  (∀ (s : State) (q : Fin 64) (f : Flight) (rest : List Flight), s.runs = true → (s.q q).flight = f :: rest → flightDone s q f = true →
     let p0 := f.params.getD 0 0
     ∃ t, exec (.descriptorRetire q) s = .next t ∧ (t.q q).flight = rest ∧ (t.q q).retired = sat32 ((s.q q).retired + 1) ∧
       (t.q q).lastTag = tagOf f.words ∧ (∀ r, r ≠ q.val → (t.q r).flight = (s.q r).flight) ∧ t.tacks = s.tacks ∧ t.cbls = s.cbls ∧
       (dOpcode f.words = 4 → bits p0 3 0 < 2 → f.abandoned = false →
         t.tackUpd = s.tackUpd ++ [{ due := s.now + 2, rank := q, tack := bits p0 25 16, write := bits p0 3 0 == 1
                                     value := bits (f.params.getD 1 0) 15 0 }]) ∧
       (dOpcode f.words ≠ 4 → t.tackUpd = s.tackUpd) ∧
       (∀ r v, dSrOut f.words = some r → srValue f = some v →
         t.srPend = s.srPend ++ [{ due := s.now, rank := 17, queue := q, reg := r, value := v }]) ∧
       (dSrOut f.words = none → t.srPend = s.srPend) ∧ (dNotify f.words = false → t.mem = s.mem))

/-- R84: an update writes its value, or adds it saturating at 65,535 and noting the saturation; UPDATES counts it. No other tack
changes. -/
def Obligations.TackUpdatesSaturate : Prop :=
  ∀ (s : State) (u : TackUpd), (s.tack u.tack).value ≤ 65535 → u.value ≤ 65535 →
    ((tackApply s u).tack u.tack).value = (if u.write then u.value else min 65535 ((s.tack u.tack).value + u.value)) ∧
    ((tackApply s u).tack u.tack).saturated =
      ((s.tack u.tack).saturated || (!u.write && decide (65535 < (s.tack u.tack).value + u.value))) ∧
    ((tackApply s u).tack u.tack).updates = min 65535 ((s.tack u.tack).updates + 1) ∧
    ((tackApply s u).tack u.tack).value ≤ 65535 ∧
    (∀ k, k ≠ u.tack → (tackApply s u).tack k = s.tack k) ∧ tackApply s u = { s with tacks := (tackApply s u).tacks, cc := (tackApply s u).cc }

/-! ### The event plane (chapter 10) -/

/-- R210, R212, R215: delivery takes the due events of a VC one by one, those filed in its delay queue first. An event that maps to
no axon in its set is only counted. R206, R219, R220, R221: in DRAIN delivery of a VC ends and its update runs, under DROP with
its undelivered events counted as OVERRUN, under STRETCH when none is left or the limit has passed; accumulators are then clear, and the stretch runs from the close to the
last event due, 0 under DROP. -/
def Obligations.EventsAreDeliveredAndStepsEnd : Prop :=
  (∀ (s : State) (v : Fin 64), delivering s v = true → dueCount s v ≠ 0 →
     ∃ t, exec (.eventDeliver v) s = .next t ∧ dueCount t v + 1 = dueCount s v ∧ t.epc = s.epc ∧ t.tacks = s.tacks ∧ t.mem.hbm = s.mem.hbm ∧
       t.mem.sram = s.mem.sram ∧ (∀ u, u ≠ v.val → t.vc u = s.vc u) ∧
       (dueFiled s v s.epc.count ≠ [] → (t.vc v).extra = (s.vc v).extra) ∧
       (∀ ev, (∃ e, (dueFiled s v s.epc.count).head? = some e ∧ e.addr = ev ∧ e.err = .clean) ∨ dueFiled s v s.epc.count = [] ∧ (s.vc v).extra.head? = some ev →
         let at_ := evAbase s v + 32 * ((bits ev 15 6 ^^^ (bits ev 21 16 * 16) ^^^ bits ev 31 22) % 1024)
         sramQuiet s at_ 32 → axonOf ((List.range 32).map fun i => s.sramByte (at_ + i)) ev = none →
         (t.vc v).acc = (s.vc v).acc ∧ t.reg 0x07C8 = min (s.reg 0x07C8 + 1) (2 ^ 32 - 1) ∧ ∀ k, k ≠ 0x07C8 → t.reg k = s.reg k)) ∧
  (∀ (s : State), s.runs = true → s.epc.state = .drain →
     (∀ v : Fin 64, (s.vc v).evValid = true → (s.vc v).delivEnd = false → s.isOn v = true →
       (bit (s.regF' 0x0780) 0 = false ∨ dueCount s v = 0) →
       ∃ t, exec (.deliveryEnd v) s = .next t ∧ (t.vc v).delivEnd = true ∧ (t.vc v).updated = true ∧ (t.vc v).acc = [] ∧
         (t.vc v).stretch = (if bit (s.regF' 0x0780) 0 then (s.vc v).lastDue - s.epc.closeAt else 0) ∧ dueCount t v = 0 ∧ t.reg 0x0794 = (evDrop s 1 (dueCount s v)).reg 0x0794 ∧ t.epc = s.epc ∧
         t.tacks = s.tacks ∧ t.mem.hbm = s.mem.hbm) ∧
     (bit (s.regF' 0x0780) 0 = true → s.epc.closeAt + s.reg 0x0784 ≤ s.now →
       ∃ t, exec .stretchLimit s = .next t ∧ t.epc = s.epc ∧ t.tacks = s.tacks ∧ t.mem.hbm = s.mem.hbm ∧
         ∀ v, v < 64 → (s.vc v).evValid = true → (s.vc v).delivEnd = false → s.isOn v = true →
           (t.vc v).delivEnd = true ∧ (t.vc v).updated = true))

/-! ### Links (chapter 12) -/

/-- R251, R257, R258, R260: a trained or aligning port puts one flit of 256 bytes on its lanes in each slot, its last four the
CRC-32 of the others; at most 512 MSG flits are held, a new one with the next SEQ. R257, R261: without authentication, a trained
port takes a MSG flit that holds its CRC and has the expected SEQ, and expects the next; a duplicate of the 512 before it is
discarded; one whose CRC fails is discarded, counted, and opens a gap that sets NAK. -/
def Obligations.FlitsKeepTheirSequence : Prop :=
  (∀ (s : State) (p : Fin 9), s.linkOn = true →
     ((s.port p).state = .align ∨ linkState (s.port p).state = true) →
     ∃ t, exec (.flitSlotTransmit p) s = .next t ∧ (t.port p).slot = (s.port p).slot + 1 ∧ (t.port p).txc = ((s.port p).txc + 1) % 2 ^ 64 ∧
       (t.port p).lastFlit.length = 256 ∧ leNat ((t.port p).lastFlit.drop 252) = crc32 ((t.port p).lastFlit.take 252) ∧
       ((t.port p).heldFl = (s.port p).heldFl ∨
         (s.port p).heldFl.length < 512 ∧ ∃ f, (t.port p).heldFl = (s.port p).heldFl ++ [f] ∧ f.seq = (s.port p).txSeq ∧
           (t.port p).txSeq = ((s.port p).txSeq + 1) % 4096) ∧
       t.mem = s.mem ∧ t.tacks = s.tacks ∧ t.epc = s.epc) ∧
  (∀ (s : State) (p : Fin 9) (fl : List Byte), s.linkOn = true → (s.port p).state = .up → fl.length = 256 →
     (∀ hdr, hdr = word64At fl 0 → crc32 (fl.take 252) = leNat (fl.drop 252) → (s.port p).authEn = false → bits hdr 63 60 = 1 →
       flitReserved fl = false → bit hdr 35 = false →
       (bits hdr 59 48 = (s.port p).rxSeq →
         ∃ t, exec (.flitReceive p fl) s = .next t ∧ (t.port p).rxSeq = ((s.port p).rxSeq + 1) % 4096 ∧ (t.port p).gap = false ∧
           (t.port p).nak = false ∧ (t.port p).gotAny = true ∧ (t.port p).state = .up ∧ t = { s with ports := t.ports } ∧
           ∀ v, v < 4 → v ≠ bits hdr 33 32 → ((t.port p).chan v).rx = ((s.port p).chan v).rx) ∧
       (bits hdr 59 48 ≠ (s.port p).rxSeq → ((s.port p).rxSeq + 4096 - bits hdr 59 48) % 4096 ≤ 512 →
         ∃ t, exec (.flitReceive p fl) s = .next t ∧ (t.port p).rxSeq = (s.port p).rxSeq ∧ (t.port p).gap = (s.port p).gap ∧
           t = { s with ports := t.ports } ∧ ∀ v, v < 4 → ((t.port p).chan v).rx = ((s.port p).chan v).rx)) ∧
     (crc32 (fl.take 252) ≠ leNat (fl.drop 252) →
       ∃ t, exec (.flitReceive p fl) s = .next t ∧ (t.port p).gap = true ∧ (t.port p).rxSeq = (s.port p).rxSeq ∧
         (t.port p).chans = (s.port p).chans ∧ ((s.port p).gap = false → (t.port p).nak = true) ∧ t = { s with ports := t.ports, regs := t.regs, cc := t.cc } ∧
         (p.val < 8 → t.reg (bankKey p 0x0330) = min (s.reg (bankKey p 0x0330) + 1) (2 ^ 32 - 1))))

/-- R263: when the flits held have been replayed WLT_REPLAY.MAX times in a row with no advance of ACK, the port goes to DOWN; until
then a replay timeout resends every held flit and is counted, and a gap that stays open sets NAK again. -/
def Obligations.ReplayResendsEveryHeldFlit : Prop :=
  ∀ (s : State) (p : Fin 9), s.linkOn = true → linkState (s.port p).state = true →
    ((s.port p).gap = true → (s.port p).nakAt ≤ s.now →
      ∃ t, exec (.nakResend p) s = .next t ∧ (t.port p).nak = true ∧ (t.port p).nakAt = s.now + replayCc s p ∧ t = { s with ports := t.ports } ∧
        ∀ r, r ≠ p.val → t.port r = s.port r) ∧
    ((s.port p).heldFl ≠ [] → (s.port p).ackAt ≤ s.now → (s.port p).replays < atLeast1 (bits (s.lreg p 0x031C 0x0464) 7 0) →
      ∃ t, exec (.replayTimeout p) s = .next t ∧ (t.port p).replay = (s.port p).heldFl ∧ (t.port p).heldFl = (s.port p).heldFl ∧
        (t.port p).replays = (s.port p).replays + 1 ∧ (t.port p).ackAt = s.now + replayCc s p ∧ t = { s with ports := t.ports, regs := t.regs, cc := t.cc } ∧
        (p.val < 8 → t.reg (bankKey p 0x0338) = min (s.reg (bankKey p 0x0338) + 1) (2 ^ 32 - 1))) ∧
    ((s.port p).heldFl ≠ [] → (s.port p).ackAt ≤ s.now → atLeast1 (bits (s.lreg p 0x031C 0x0464) 7 0) ≤ (s.port p).replays →
      ∃ t, exec (.replayTimeout p) s = .next t ∧ (t.port p).state = .down)

/-- R253, R254, R290, R389: EN written 1 takes a DISABLED port to DOWN (TP only with TWIN_EN high), written 0 takes any port to
DISABLED; RELEASE takes a QUARANTINED port to DOWN and its STRIKES to 0; RETRAIN is staged; each entry to DOWN starts its wait.
R253, Table 12.6: the waits and limits of DOWN, TRAINING, ALIGN and HELLO: DOWN goes to TRAINING where the port is commanded ON
or DEGRADED, the full width locked or the limit with a whole lane set locked goes to ALIGN, any other limit back to DOWN. R249: a
lane gains lock on three codewords without a symbol error, and loses it on eight uncorrectable ones in a row. -/
def Obligations.PortCommandsAndTimers : Prop :=
  (∀ (s : State), s.mspOn = true →
     (∀ p : Fin 9, (s.port p).state = .disabled → (p.val < 8 ∨ twinEn s = true) →
       ∃ t, exec (.wltCtrlEnSet p) s = .next t ∧ (t.port p).state = .down ∧ (t.port p).limit = s.now + retryCc s p ∧
         bit (t.reg (lkey p 0x0304 0x0450)) 31 = true ∧ t.mem = s.mem ∧ ∀ r, r ≠ p.val → t.port r = s.port r) ∧
     (∀ p : Fin 9, ((s.port p).state ≠ .disabled ∨ p.val = 8 ∧ twinEn s = false) →
       ∃ t, exec (.wltCtrlEnSet p) s = .next t ∧ t = { s with regs := t.regs, cc := t.cc } ∧ bit (t.reg (lkey p 0x0304 0x0450)) 31 = true) ∧
     (∀ p : Fin 9, ∃ t, exec (.wltCtrlEnClear p) s = .next t ∧ (t.port p).state = .disabled ∧
       bit (t.reg (lkey p 0x0304 0x0450)) 31 = false ∧ t.mem = s.mem ∧ t.tacks = s.tacks) ∧
     (∀ p : Fin 8, (s.port p).state = .quarantined →
       ∃ t, exec (.wltCtrlRelease p) s = .next t ∧ (t.port p).state = .down ∧ (t.port p).strikes = 0 ∧
         (t.port p).limit = s.now + retryCc s p) ∧
     (∀ p : Fin 8, (s.port p).state ≠ .quarantined → exec (.wltCtrlRelease p) s = .next s) ∧
     (∀ p : Fin 9, ∃ t, exec (.wltCtrlRetrain p) s = .next t ∧ t = { s with ports := t.ports } ∧
       t.port p = { s.port p with retrain := true } ∧ ∀ r, r ≠ p.val → t.port r = s.port r)) ∧
  (∀ (s : State) (p : Fin 9), s.linkOn = true →
     ((s.port p).state = .down → (s.port p).limit ≤ s.now → 2 ≤ (s.unit (92 + p.val)).force →
       ∃ t, exec (.downRetryExpiry p) s = .next t ∧ (t.port p).state = .training ∧ (t.port p).limit = s.now + trainCc s p ∧ (t.port p).locked = 0) ∧
     (∀ (lane : Fin 8) (cws : List CwRes), (s.port p).state = .training → (fullLanes p).testBit lane = true →
       (gainsLock cws = (decide (3 ≤ cws.length) && (cws.take 3).all fun c => c == .clean)) ∧
       (losesLock cws = (decide (8 ≤ cws.length) && (cws.take 8).all fun c => c == .bad)) ∧
       (gainsLock cws = false → exec (.laneLock p ⟨lane, cws⟩) s = .next s) ∧
       (losesLock cws = false → exec (.laneBad p ⟨lane, cws⟩) s = .next s) ∧
       (losesLock cws = true →
         ∃ t, exec (.laneBad p ⟨lane, cws⟩) s = .next t ∧ t = { s with ports := t.ports } ∧
           t.port p = { s.port p with locked := (s.port p).locked &&& (fullLanes p ^^^ 2 ^ lane.val) })) ∧
     (∀ (lane : Fin 8) (cws : List CwRes), (s.port p).state = .training → (fullLanes p).testBit lane = true → gainsLock cws = true →
       ∃ t, exec (.laneLock p ⟨lane, cws⟩) s = .next t ∧
         (((s.port p).locked ||| 2 ^ lane.val) ≠ fullLanes p →
           t = { s with ports := t.ports } ∧ t.port p = { s.port p with locked := (s.port p).locked ||| 2 ^ lane.val }) ∧
         (((s.port p).locked ||| 2 ^ lane.val) = fullLanes p → (t.port p).state = .align ∧ (t.port p).lanes = fullLanes p)) ∧
     ((s.port p).state = .training → (s.port p).limit ≤ s.now →
       ∃ t, exec (.trainTimeout p) s = .next t ∧
         (bestSet p (s.port p).locked = 0 → (t.port p).state = .down ∧
           (p.val < 8 → t.reg (bankKey p 0x033C) = min (s.reg (bankKey p 0x033C) + 1) (2 ^ 32 - 1))) ∧
         (bestSet p (s.port p).locked ≠ 0 → (t.port p).state = .align ∧ (t.port p).lanes = bestSet p (s.port p).locked)) ∧
     ((s.port p).state = .align → (s.port p).limit ≤ s.now → ∃ t, exec (.alignTimeout p) s = .next t ∧ (t.port p).state = .down) ∧
     ((s.port p).state = .hello → (s.port p).limit ≤ s.now →
       ∃ t, exec (.helloTimeout p) s = .next t ∧ (t.port p).state = .down ∧ (t.port p).helloFail = 7))

/-- R249, R256: a lane of a trained port whose codewords make it bad narrows it: MSG flits wait, LANE_MAP names the new set,
LANE_MAP_DONE answers, and at the switch, where CWSEQ is 0, the new set is in use with every held flit replayed; with no lane left
the port goes DOWN. R253, R265, R268, R270: in ALIGN without authentication, ALIGN gives the partner's buffers and the lanes both
ends have, refused with fewer than four flits for a channel or no common lane; with both ALIGN_DONE exchanged the port enters
HELLO with nothing of an earlier link. Link-control content acts when it is the oldest the port has received, and is taken. -/
def Obligations.LanesNarrowAndAlignAdopts : Prop :=
  (∀ (s : State) (p : Fin 9), s.linkOn = true → linkState (s.port p).state = true →
     (∀ (lane : Fin 8) (cws : List CwRes), (fullLanes p).testBit lane = true → (s.port p).lanes.testBit lane = true →
       laneFails s p cws = true →
       let good := (s.port p).newLanes.getD (s.port p).lanes &&& (fullLanes p ^^^ 2 ^ lane.val)
       ∃ t, exec (.laneBad p ⟨lane, cws⟩) s = .next t ∧
         (∀ l, l = bestSet p good → l ≠ 0 →
           (t.port p).newLanes = some l ∧ (t.port p).lctrl = (s.port p).lctrl ++ [(3, l)] ∧ (t.port p).state = (s.port p).state ∧
           t = { s with ports := t.ports, clk := t.clk, regs := t.regs, cc := t.cc, units := t.units } ∧
           (p.val < 8 → t = { s with ports := t.ports })) ∧
         (bestSet p good = 0 → (t.port p).state = .down)) ∧
     (∀ (f : Lctrl) (fs : List Lctrl), (s.port p).lcRx = f :: fs → f.ltype = 3 →
       let good := (s.port p).newLanes.getD (s.port p).lanes &&& f.lanes
       ∃ t, exec (.laneMap p f) s = .next t ∧
         (∀ l, l = bestSet p good → l ≠ 0 →
           (t.port p).newLanes = some l ∧ (t.port p).lctrl = (s.port p).lctrl ++ [(4, l)] ∧ (t.port p).mapDone = true ∧
           (t.port p).lcRx = fs ∧ t = { s with ports := t.ports }) ∧
         (bestSet p good = 0 → (t.port p).state = .down)) ∧
     (∀ (f : Lctrl) (fs : List Lctrl), (s.port p).lcRx = f :: fs → f.ltype = 4 → (s.port p).newLanes.isSome = true →
       ∃ t, exec (.laneMapDone p f) s = .next t ∧ t.port p = { s.port p with lcRx := fs, mapDone := true } ∧ t = { s with ports := t.ports }) ∧
     (∀ l, (s.port p).newLanes = some l → (s.port p).mapDone = true → (s.port p).lctrl.any (fun e => e.1 == 4) = false → (s.port p).cwSeq = 0 →
       ((s.port p).heldFl = [] ∨ (s.port p).replays < atLeast1 (bits (s.lreg p 0x031C 0x0464) 7 0)) →
       ∃ t, exec (.laneSwitch p) s = .next t ∧ (t.port p).lanes = l ∧ (t.port p).newLanes = none ∧ (t.port p).heldFl = (s.port p).heldFl ∧
         ((s.port p).heldFl ≠ [] → (t.port p).replay = (s.port p).heldFl ∧ (t.port p).replays = (s.port p).replays + 1) ∧
         (t.port p).state = (s.port p).state ∧ t.mem = s.mem)) ∧
  (∀ (s : State) (p : Fin 9) (f : Lctrl) (fs : List Lctrl), s.linkOn = true → (s.port p).state = .align → (s.port p).lcRx = f :: fs →
     (f.ltype = 1 → (s.port p).authEn = false → f.auth = false → 4 ≤ f.crMg → 4 ≤ f.crRs → 4 ≤ f.crRq → 4 ≤ f.crEv →
       (s.port p).lanes &&& f.lanes ≠ 0 →
       ∃ t, exec (.align p f) s = .next t ∧ (t.port p).state = .align ∧ ((t.port p).chan 0).peerBuf = f.crMg ∧
         ((t.port p).chan 1).peerBuf = f.crRs ∧ ((t.port p).chan 2).peerBuf = f.crRq ∧ ((t.port p).chan 3).peerBuf = f.crEv ∧
         (t.port p).lanes = (s.port p).lanes &&& f.lanes ∧ (t.port p).lcRx = fs ∧
         ((t.port p).alignRx = true ↔ (s.port p).lanes &&& f.lanes = f.lanes) ∧
         t = { s with ports := t.ports, clk := t.clk, regs := t.regs, cc := t.cc, units := t.units } ∧
         (p.val < 8 → t = { s with ports := t.ports })) ∧
     (f.ltype = 1 → (f.auth ≠ (s.port p).authEn ∨ f.crMg < 4 ∨ f.crRs < 4 ∨ f.crRq < 4 ∨ f.crEv < 4 ∨ (s.port p).lanes &&& f.lanes = 0) →
       ∃ t, exec (.align p f) s = .next t ∧ (t.port p).state = .down) ∧
     (f.ltype = 2 → (s.port p).alignRx = true → f.lanes = (s.port p).lanes →
       ∃ t, exec (.alignDone p f) s = .next t ∧ (t.port p).doneRx = true ∧
         ((s.port p).doneTx = true → (t.port p).state = .hello ∧ (t.port p).limit = s.now + s.usCc 1000 ∧ (t.port p).peerNonce = 0) ∧
         ((s.port p).doneTx = false → (t.port p).state = .align)))

/-- R281, R285, R286: a port in HELLO, UP or FENCED that has received no HEARTBEAT for WLT_HB.TIMEOUT goes to DOWN, with nothing of
its link left; each HEARTBEAT received restarts that timeout, which HELLO starts, and one is formed when due. In HELLO, a HELLO
that passes the identity check brings the port UP, one that fails sends it to DOWN or leaves it, with its cause; HELLO is sent
again when due. -/
def Obligations.HelloAndHeartbeat : Prop :=
  ∀ (s : State) (p : Fin 9) (m : Msg), s.linkOn = true →
    ((s.port p).state = .hello → rxNext s p 0 m = true → helloFits (takeRx s p 0 m) m = true → mword m 2 ≠ 0 →
      helloCause ((takeRx s p 0 m).modPort p fun y =>
        { y with peerNonce := mword m 1, echoed := y.echoed && y.peerNonce == mword m 1 }) p m = 0 →
      ∃ t, exec (.hello p m) s = .next t ∧ (t.port p).state = .up ∧ (t.port p).helloFail = 0 ∧ (t.port p).peerNonce = mword m 1) ∧
    (∀ c, (s.port p).state = .hello → rxNext s p 0 m = true → helloFits (takeRx s p 0 m) m = true → mword m 2 ≠ 0 →
      helloCause ((takeRx s p 0 m).modPort p fun y =>
        { y with peerNonce := mword m 1, echoed := y.echoed && y.peerNonce == mword m 1 }) p m = c → c ≠ 0 →
      ∃ t, exec (.hello p m) s = .next t ∧ (t.port p).helloFail = c ∧ (t.port p).state ≠ .up ∧
        (p.val < 8 → c ≤ 2 → (t.port p).state = .hello)) ∧
    ((s.port p).state = .hello → (s.port p).helloAt ≤ s.now →
      ∃ t, exec (.helloResend p) s = .next t ∧ (t.port p).helloAt = s.now + s.usCc 100 ∧ (t.port p).state = .hello ∧
        ((t.port p).chan 0).tx.length = ((s.port p).chan 0).tx.length + 1 ∧ t = { s with ports := t.ports }) ∧
    (linkState (s.port p).state = true → (s.port p).hbTxAt ≤ s.now →
      ∃ t, exec (.heartbeatSend p) s = .next t ∧ (t.port p).hbTxAt = s.now + hbPeriodCc s p ∧
        (t.port p).hbCount = ((s.port p).hbCount + 1) % 2 ^ 16 ∧ (t.port p).hb.length = (s.port p).hb.length + 1 ∧
        t = { s with ports := t.ports }) ∧
    (linkState (s.port p).state = true → rxNext s p 0 m = true → msgFits s m 0x02 8 = true → bits (mword m 0) 43 40 = 0 →
      ∃ t, exec (.heartbeat p m) s = .next t ∧ (t.port p).hbRxAt = s.now + hbTimeoutCc s p ∧ (t.port p).state = (s.port p).state ∧
        t = { s with ports := t.ports }) ∧
    (linkState (s.port p).state = true → (s.port p).hbRxAt ≤ s.now →
      ∃ t, exec (.heartbeatTimeout p) s = .next t ∧ (t.port p).state = .down ∧ (t.port p).heldFl = [] ∧ (t.port p).reqs = [])

/-! ### Partners (chapters 12 and 13) -/

/-- R277, R279, R288, R289, R296: a stall that has lasted its time fences its port and strikes it 16; every 1,024 cc buckets refill
up to their depth; every 2^20 cc since PORST_N strikes leak by one, once; a malformed message at the head of its channel is
discarded, counted and struck once, behind a fence discarded alone; a response to no request is only counted. -/
def Obligations.StrikesBucketsAndFences : Prop :=
  ∀ (s : State), s.linkOn = true →
    (∀ (p : Fin 9) (d : Nat), stalls (s.port p) = true → (s.port p).stallAt = some d → d ≤ s.now → s.twB 9 p 0 27 20 = 0 →
      ∃ t, exec (.creditStallFence p) s = .next t ∧ (t.port p).state = .fenced ∧
        (p.val < 8 → (t.port p).strikes = min 255 ((s.port p).strikes + 16)) ∧ (∃ e, e ∈ t.flt.due ∧ e.2.code = 0x60 ∧ e.2.unit = 92 + p.val)) ∧
    (∀ p : Fin 8, (s.port p).state = .up → (s.port p).refillAt ≤ s.now →
      ∃ t, exec (.quotaRefill p) s = .next t ∧ t = { s with ports := t.ports } ∧ (t.port p).refillAt = (s.port p).refillAt + 1024 ∧
        (t.port p).qrate = s.twB 9 p 6 31 20 ∧
        ∀ k, k < 32 → mget zeroNat (t.port p).buckets k =
          min (atLeast1 (s.twB 9 p 6 19 8)) (mget zeroNat (s.port p).buckets k + s.twB 9 p 6 31 20)) ∧
    (s.cc.leaked = true → exec .strikeLeak s = .next s) ∧
    ((s.now - s.power.porstAt) % 2 ^ 20 = 0 → s.power.porstAt < s.now → s.cc.leaked = false →
      ∃ t, exec .strikeLeak s = .next t ∧ t = { s with ports := t.ports, cc := { s.cc with leaked := true } } ∧
        (∀ p, p < 8 → t.port p = { s.port p with strikes := (s.port p).strikes - 1 }) ∧ t.port 8 = s.port 8) ∧
    (∀ (p : Fin 8) (m : Msg) (v : Nat), linkState (s.port p).state = true → s.twB 9 p 0 27 20 = 0 → badHead s p m = some v →
      ∃ t, exec (.malformedMessage p.castSucc m) s = .next t ∧ (t.port p).state = (s.port p).state ∧
        ((t.port p).chan v).rx = ((s.port p).chan v).rx.tail ∧
        (((s.port p).state ≠ .fenced ∨ v = 0) → (t.port p).strikes = min 255 ((s.port p).strikes + 1) ∧
          t.reg (bankKey p 0x0340) = min (s.reg (bankKey p 0x0340) + 1) (2 ^ 32 - 1) ∧ t = { s with ports := t.ports, regs := t.regs, cc := t.cc }) ∧
        ((s.port p).state = .fenced → v ≠ 0 → (t.port p).strikes = (s.port p).strikes ∧ t = { s with ports := t.ports })) ∧
    (∀ (p : Fin 8) (m : Msg), (s.port p).state = .up → rxNext s p 1 m = true → m.type = 0x22 ∨ m.type = 0x23 → lateFits s m = true →
      ∃ t, exec (.lateRsp p m) s = .next t ∧ t.reg (bankKey p 0x0344) = min (s.reg (bankKey p 0x0344) + 1) (2 ^ 32 - 1) ∧
        t = { s with ports := t.ports, regs := t.regs, cc := t.cc } ∧ (t.port p).reqs = (s.port p).reqs)

/-- R166, R279, R282, R292, R294: the oldest request without a reserve takes one and is sent when the port is UP, and ends as a
failure when it is not; its response delivers its lines, one with a status other than OK, or none in time, ends it as a failure:
poisoned zeros for the lines of a READ, and one REMOTE_FAIL record for its descriptor. -/
def Obligations.RequestsEndWithTheirLines : Prop :=
  ∀ (s : State) (p : Fin 8), s.linkOn = true →
    let fails (t : State) (r : Req) : Prop := (∀ y ∈ (t.port p).reqs, y.txn ≠ r.txn) ∧ t.mem = s.mem ∧
      ∀ q n f, r.who = .flight q n → s.flightAt q n = some f → ∃ g, t.flightAt q n = some g ∧ g.remote = f.remote - 1 ∧
        g.lines = (if r.write then f.lines else f.lines ++ (List.range r.nlines).map fun i =>
          { port := p, node := r.node, tenant := r.tenant, addr := r.addr + 64 * i, data := List.replicate 64 0, poison := true }) ∧
        (f.wrote.contains 0x1A = false → ∃ e, e ∈ t.flt.due ∧ e.2.code = 0x1A ∧ e.2.tag = tagOf f.words ∧ e.2.level = 1)
    (∀ r, (s.port p).reqs.find? (fun r => r.due.isNone) = some r → s.halted = false → (s.port p).state ≠ .up →
      ∃ t, exec (.requestSend p) s = .next t ∧ fails t r) ∧
    (∀ r, (s.port p).reqs.find? (fun r => r.due.isNone) = some r → s.halted = false → (s.port p).state = .up →
      (s.port p).rsvHeads < 256 → (r.write = true ∨ (s.port p).rsvUnits + r.nlines ≤ 1024) →
      ∃ t, exec (.requestSend p) s = .next t ∧ (t.port p).rsvHeads = (s.port p).rsvHeads + 1 ∧
        (t.port p).rsvUnits = (s.port p).rsvUnits + (if r.write then 0 else r.nlines) ∧
        (∃ y, y ∈ (t.port p).reqs ∧ y.txn = r.txn ∧ y.due = some (s.now + reqToCc s p)) ∧
        ((t.port p).chan 2).tx.length = ((s.port p).chan 2).tx.length + 1 ∧ t = { s with ports := t.ports }) ∧
    (∀ txn r d, (s.port p).reqs.find? (fun r => r.txn == txn) = some r → r.due = some d → d ≤ s.now →
      ∃ t, exec (.requestTimeout p txn) s = .next t ∧ fails t r ∧ (t.port p).rsvHeads = (s.port p).rsvHeads - 1) ∧
    (∀ (m : Msg) (r : Req), (s.port p).state = .up → rxNext s p 1 m = true →
      (s.port p).reqs.find? (fun r => r.txn == m.txn && r.due.any fun d => decide (s.now < d)) = some r →
      m.status ≠ 0 → m.tenant = r.tenant → m.tag = r.tag →
      (r.write = false → msgFits s m 0x20 8 = true → mword m 0 = 0 → ∃ t, exec (.readRsp p m) s = .next t ∧ fails t r) ∧
      (r.write = true → msgFits s m 0x21 0 = true → ∃ t, exec (.writeAck p m) s = .next t ∧ fails t r)) ∧
    (∀ (m : Msg) (r : Req) (q n : Nat) (f : Flight), (s.port p).state = .up → rxNext s p 1 m = true →
      (s.port p).reqs.find? (fun r => r.txn == m.txn && r.due.any fun d => decide (s.now < d)) = some r → r.who = .flight q n → s.flightAt q n = some f →
      m.status = 0 → m.tenant = r.tenant → m.tag = r.tag →
      (r.write = false → msgFits s m 0x20 (8 + 64 * r.nlines) = true → mword m 0 < 2 ^ r.nlines →
        ∃ t g, exec (.readRsp p m) s = .next t ∧ t.flightAt q n = some g ∧ g.remote = f.remote - 1 ∧
          g.lines = f.lines ++ (List.range r.nlines).map (fun i =>
            { port := p, node := r.node, tenant := r.tenant, addr := r.addr + 64 * i
              data := (m.payload.drop (8 + 64 * i)).take 64, poison := bit (mword m 0) i }) ∧
          (∀ y ∈ (t.port p).reqs, y.txn ≠ r.txn) ∧ t.mem = s.mem ∧ t.flt = s.flt) ∧
      (r.write = true → msgFits s m 0x21 0 = true →
        ∃ t g, exec (.writeAck p m) s = .next t ∧ t.flightAt q n = some g ∧ g.remote = f.remote - 1 ∧ g.lines = f.lines ∧
          (∀ y ∈ (t.port p).reqs, y.txn ≠ r.txn) ∧ t.mem = s.mem ∧ t.flt = s.flt))

/-- R287, R288, R293: the checks a partner's READ meets in their order: a malformed one is answered MALFORMED and struck, one
without rights, or of a replica tenant, NO_RIGHTS, one without a token QUOTA, one outside the tenant's windows NO_WINDOW, one whose controller is not ON
UNIT_OFF; none of them changes memory. R227, R239, R240, R274, R275: a READ that passes its checks is answered OK with the bytes
of its lines and their POISON bits; a WRITE stores its lines, and no other byte, and is acknowledged. -/
def Obligations.PartnerRequestsMeetChecksAndMemory : Prop :=
  (∀ (s : State) (p : Fin 8) (m : Msg), s.linkOn = true → (s.port p).state = .up → rxNext s p 2 m = true → s.halted = false →
     egressRoom s p 1 (readLines m) = true → s.twB 9 p 0 27 20 = 0 → m.fits = true →
     let answered (t : State) (st : Nat) : Prop :=
       t.mem = s.mem ∧ ∃ x, ((t.port p).chan 1).tx = ((s.port p).chan 1).tx ++ [x] ∧ (msgParse x.bytes).type = 0x20 ∧
         (msgParse x.bytes).status = st ∧ (msgParse x.bytes).txn = m.txn % 2 ^ 16
     let good := readFits s m && m.src == expNode s p && m.status == 0 && m.fault == 0
     (good = false → ∃ t, exec (.read p m) s = .next t ∧ answered t 3 ∧ (t.port p).strikes = min 255 ((s.port p).strikes + 1)) ∧
     (good = true → (bit (s.tw 9 p 2) m.tenant = false ∨ isReplica s m.tenant = true) → ∃ t, exec (.read p m) s = .next t ∧ answered t 1) ∧
     (good = true → bit (s.tw 9 p 2) m.tenant = true → isReplica s m.tenant = false → takeToken s p m.tenant = none → ∃ t, exec (.read p m) s = .next t ∧ answered t 4) ∧
     (good = true → bit (s.tw 9 p 2) m.tenant = true → isReplica s m.tenant = false → (s.port p).qrate = 0 →
       (linesOf s m.tenant (bits (mword m 0) 39 0) (readLines m) = none → ∃ t, exec (.read p m) s = .next t ∧ answered t 2) ∧
       (∀ pas, linesOf s m.tenant (bits (mword m 0) 39 0) (readLines m) = some pas → someOff s pas = true →
         ∃ t, exec (.read p m) s = .next t ∧ answered t 7))) ∧
  (∀ (s : State) (p : Fin 8) (m : Msg) (pas : List Nat), s.linkOn = true → (s.port p).state = .up → rxNext s p 2 m = true →
     s.halted = false → m.src = expNode s p → m.status = 0 → m.fault = 0 → m.fits = true → (s.port p).qrate = 0 → journals s = false →
     isReplica s m.tenant = false →
     linesOf s m.tenant (bits (mword m 0) 39 0) (readLines m) = some pas → (∀ x ∈ pas, x % 64 = 0) → someOff s pas = false →
     (∀ x ∈ pas, hbmQuiet s x 64) →
     (readFits s m = true → egressRoom s p 1 (readLines m) = true → bit (s.tw 9 p 2) m.tenant = true →
       ∃ t x, exec (.read p m) s = .next t ∧ ((t.port p).chan 1).tx = ((s.port p).chan 1).tx ++ [x] ∧ (msgParse x.bytes).status = 0 ∧
         (msgParse x.bytes).payload = List.replicate 8 0 ++ pas.flatMap (fun a => s.lineRaw (a / 64)) ∧ t.mem = s.mem) ∧
     (writeFits s m = true → egressRoom s p 1 0 = true → bit (s.tw 9 p 3) m.tenant = true → pas.Nodup →
       ∃ t x, exec (.write p m) s = .next t ∧ ((t.port p).chan 1).tx = ((s.port p).chan 1).tx ++ [x] ∧ (msgParse x.bytes).status = 0 ∧
         (∀ i, i < pas.length → t.lineRaw (pas.getD i 0 / 64) = overlay (s.lineRaw (pas.getD i 0 / 64)) (writeLineOf m i).1) ∧
         (∀ l, l * 64 ∉ pas → t.lineRaw l = s.lineRaw l ∧ t.lineErr l = s.lineErr l) ∧ t.mem.sram = s.mem.sram))

/-- R23 to R25, R84, R276, R287: TACK_SET of a tack the tenant owns and opens to partners is an update of that tack 2 cc later, one
refused sets EXT_REFUSED and changes no tack; EPOCH_CTRL of a partner with authority is the MSG trigger where that is enabled.
R217, R222: the events of an EVENT_BATCH go to every enabled VC of its tenant with REMOTE_EN: those of the epoch under way join
its step, those of one of the 16 next epochs its delay queue; a batch of a tenant without rights on the port is counted and
dropped. R308, R310 to R312: a stream message without FIRST or LAST, once the channel's staging has room, adds its data to the
open frame of its channel; FRAME_PUBLISH, once every line has been acknowledged, advances WR by the oldest unpublished entry,
writes the WR line of the ring that entry was written to, and adds 1 to the frame tack. -/
def Obligations.PartnerMessagesTakeEffect : Prop :=
  (∀ (s : State) (p : Fin 8) (m : Msg), s.linkOn = true → (s.port p).state = .up → rxNext s p 2 m = true → s.halted = false →
     m.src = expNode s p → m.status = 0 → m.fault = 0 → egressRoom s p 1 0 = true → (s.port p).qrate = 0 →
     let k := bits (mword m 0) 9 0
     (msgFits s m 0x13 8 = true → bits (mword m 0) 47 42 = 0 → bits (mword m 0) 39 10 = 0 → bit (s.tw 9 p 4) m.tenant = true →
       isReplica s m.tenant = false → s.ownsTack m.tenant k = true →
       (bit (s.tf 6 k 0) 31 = true → (bit (mword m 0) 40 = true → bit (s.tf 6 k 0) 30 = true) →
         ∃ t, exec (.tackSet p m) s = .next t ∧ t.tacks = s.tacks ∧ t.mem = s.mem ∧ t.epc = s.epc ∧
           t.tackUpd = s.tackUpd ++ [{ due := s.now + 2, rank := 80 + 2 * p.val, tack := k, write := bit (mword m 0) 40
                                       value := bits (mword m 0) 63 48 }]) ∧
       (bit (s.tf 6 k 0) 31 = false ∨ bit (mword m 0) 40 = true ∧ bit (s.tf 6 k 0) 30 = false →
         ∃ t, exec (.tackSet p m) s = .next t ∧ t.tackUpd = s.tackUpd ∧ t.mem = s.mem ∧ (t.tack k).extRefused = true ∧
           (t.tack k).value = (s.tack k).value ∧ ∀ j, j ≠ k → t.tack j = s.tack j)) ∧
     (msgFits s m 0x14 8 = true → mword m 0 = 1 → m.tenant = 0 →
       (bit (s.tw 9 p 0) 28 = true → bit (s.reg 0x0218) 0 = true → s.epc.state = .opened →
         ∃ t, exec (.epochCtrl p m) s = .next t ∧ t.epc.state = .drain ∧ t.epc.cause = 2 ∧ t.epc.since = s.now ∧ t.mem = s.mem) ∧
       ((bit (s.tw 9 p 0) 28 = false ∨ bit (s.reg 0x0218) 0 = false) →
         ∃ t, exec (.epochCtrl p m) s = .next t ∧ t.epc = s.epc ∧ t.mem = s.mem ∧ t.tacks = s.tacks))) ∧
  (∀ (s : State) (p : Fin 8) (m : Msg), s.linkOn = true → (s.port p).state = .up → rxNext s p 3 m = true → s.halted = false →
     s.frozen = false → batchFits s m = true → m.status = 0 → m.fault = 0 →
     let n := bits (mword m 0) 55 50; let ten := bits (mword m 0) 44 40; let due := bits (mword m 0) 39 0
     (bit (s.tw 9 p 5) ten = true → hubOn s = true → ∀ v, v < 64 → evEnabled s ten v = true → evRemote s v = true → s.isOn v = true →
       ∃ t, exec (.eventBatch p m) s = .next t ∧ t.mem = s.mem ∧ t.tacks = s.tacks ∧ t.epc = s.epc ∧
         (due = s.epc.count → delivOver s v = false → (t.vc v).extra = (s.vc v).extra ++ (List.range n).map (eventAt m)) ∧
         (s.epc.count < due → due ≤ s.epc.count + 16 → (delaySlot s v (due % 16)).length + n ≤ 4096 →
           delaySlot t v (due % 16) = delaySlot s v (due % 16) ++ (List.range n).map fun i => { addr := eventAt m i, bit4 := bit due 4 })) ∧
     (bit (s.tw 9 p 5) ten = false →
       ∃ t, exec (.eventBatch p m) s = .next t ∧ t.vcs = s.vcs ∧ t.reg 0x07B8 = min (s.reg 0x07B8 + n) (2 ^ 32 - 1) ∧ t.mem = s.mem)) ∧
  (∀ (s : State),
     (∀ (p : Fin 8) (m : Msg) (c : Nat) (f : Frame), s.linkOn = true → (s.port p).state = .up → rxNext s p 3 m = true → s.halted = false →
       stageRoom s c (msgFlits s p 3 m) = true → streamFits s p m = true → m.status = 0 → m.fault = 0 → c = bits (mword m 0) 2 0 → strEvent s c = false → bit (mword m 0) 8 = false →
       bit (mword m 0) 9 = false → (s.str c).frame = some f → f.drop = false → f.refusedWr = false →
       ∃ t g, exec (.streamData p m) s = .next t ∧ (t.str c).frame = some g ∧
         g.bytes = f.bytes + min (m.payload.length - 8) (strSlot s c - 64 - f.bytes) ∧ g.fseq = f.fseq ∧ g.index = f.index ∧
         (t.str c).unpub = (s.str c).unpub ∧ (t.str c).wr = (s.str c).wr ∧ t.mem.sram = s.mem.sram ∧ ∀ d, d ≠ c → t.str d = s.str d) ∧
     (∀ (c : Fin 8) (u : Unpub) (rest : List Unpub), (s.str c).unpub = u :: rest → s.live = true → noAcc s (.stream c) = true →
       let o := strView s c u.words
       ∃ t, exec (.framePublish c) s = .next t ∧ (t.str c).wr = ((s.str c).wr + u.n) % 2 ^ 32 ∧ (t.str c).unpub = rest ∧
         (t.str c).written = min ((s.str c).written + 1) (2 ^ 32 - 1) ∧ (bit (o.tf 0x0B c 0) 15 = false → t.tackUpd = s.tackUpd) ∧
         t.tacks = s.tacks ∧ t.mem.sram = s.mem.sram ∧
         (∀ w pa, s.tenRun (strTen o c) = true → findWin s (strTen o c) (strBase o c) 64 = some w → paOf s (strTen o c) w (strBase o c) = pa →
           (bit (o.tf 0x0B c 0) 15 = true → t.tackUpd = s.tackUpd ++
             [{ due := s.now + 2, rank := 80 + 2 * strPort o c + 1, tack := o.tfB 0x0B c 0 9 0, write := false, value := 1 }]) ∧
           (winProt s (strTen o c) w = false → pa % 64 = 0 → s.eff (88 + stackOf pa) = 3 →
             ccBehind s.cc.hbm (pa / 64) (hbmRank (strAgent o c)) = false →
             bytesAt t.mem.hbm pa 8 = leBytes 4 (t.str c).wr ++ leBytes 4 (s.str c).dropFull))))

/-! ### The twin (chapter 15) -/

/-- R326 to R329: a journal record that fits waits in the RX ring, one that is bad too, which is counted, and touches no memory but
the ring's; without room it is lost and the epoch overflows; a COMMIT answered OK commits the records before it, any other
discards them; a committed record is applied to the lines it names, and the epoch's mark makes it the replica epoch. R321, R327,
R329, R331, R333, R334: COMMIT_ACK with OK acknowledges the epoch and may make OUT CURRENT, with any failure leaves it
unacknowledged and OUT STALE; its timeout, and TDOWN, end the pair; TSTATE is kept and judged; the seeding walk moves on while
nothing else waits to be sent, touches no memory but the TX ring's, and ends when no line is left. (Where in its ring a record
lies is log entry 87's.) -/
def Obligations.TwinPairFollowsItsRecords : Prop :=
  (∀ (s : State) (m : Msg), s.linkOn = true → s.halted = false → (s.port 8).state = .up → m.src = peerNode s 8 → m.fault = 0 → m.status = 0 →
     (jrnlFits s m = true → rxNext s 8 2 m = true → (∀ p, p ∈ s.cc.hbm → p.rank ≤ hbmRank twinAgent) →
       let r := jrecOf m; let base := ringBase s 0x0424; let n := ringBytes s 0x0424
       (jrnlBad s m r = (!isReplica s r.tenant || !jrnlMapped s r || !jrnlTagOk s m r)) ∧
       ∃ t, exec (.jrnl m) s = .next t ∧ t.twn.gotRecs = s.twn.gotRecs + 1 ∧ t.twn.apply = s.twn.apply ∧ t.tacks = s.tacks ∧
         t.twn.bad = (s.twn.bad || jrnlBad s m r) ∧ t.mem.sram = s.mem.sram ∧
         (∀ k, (k < base ∨ base + n ≤ k) → mget zeroByte t.mem.hbm k = mget zeroByte s.mem.hbm k) ∧
         (jrnlBad s m r = true → t.reg 0x0444 = min (s.reg 0x0444 + 1) (2 ^ 32 - 1)) ∧
         (rxUsed s + jrecLen r ≤ n → t.twn.rx = s.twn.rx ++ [if jrnlBad s m r then { r with bad := true } else r] ∧
           t.twn.overflow = s.twn.overflow) ∧
         (n < rxUsed s + jrecLen r → t.twn.rx = s.twn.rx ∧ t.twn.overflow = true ∧ t.mem = s.mem)) ∧
     (egressRoom s 8 1 0 = true → rxNext s 8 2 m = true → commitFits s m = true →
       ∃ t, exec (.commit m) s = .next t ∧ t.twn.rx = [] ∧ t.twn.gotRecs = 0 ∧ t.twn.bad = false ∧ t.twn.overflow = false ∧ t.mem = s.mem ∧
         ((t.port 8).chan 1).tx.length = ((s.port 8).chan 1).tx.length + 1 ∧
         (commitStatus s m ≠ 0 → t.twn.apply = s.twn.apply ∧ t.twn.stale = true ∧ t.twn.replicaEp = s.twn.replicaEp) ∧
         (commitStatus s m = 0 → s.twn.apply = [] → s.twn.rx = [] → t.twn.apply = [] ∧ t.twn.replicaEp = bits (mword m 0) 39 0) ∧
         (∀ r rs, commitStatus s m = 0 → s.twn.apply ++ s.twn.rx = r :: rs → r.commit = false →
           ∃ k, t.twn.apply = s.twn.apply ++ s.twn.rx ++ [k] ∧ k.commit = true ∧ k.epoch = bits (mword m 0) 39 0 ∧ t.twn.replicaEp = s.twn.replicaEp)) ∧
     (∀ r rest w pa, s.live = true → s.twn.apply = r :: rest → r.lines ≠ [] → (∀ p, p ∈ s.cc.hbm → p.rank ≤ hbmRank twinAgent) → (∀ x ∈ r.lines, x.length = 64) →
       (∀ i, i < r.lines.length → findWin s r.tenant (r.addr + 64 * i) 64 = some w) → paOf s r.tenant w r.addr = pa → pa % 64 = 0 →
       (∀ i, i < r.lines.length → s.eff (88 + stackOf (pa + 64 * i)) = 3) →
       ∃ t, exec .replicaApply s = .next t ∧ (∀ i, i < r.lines.length → t.lineRaw (pa / 64 + i) = r.lines.getD i []) ∧
         (∀ l, (l < pa / 64 ∨ pa / 64 + r.lines.length ≤ l) → t.lineRaw l = s.lineRaw l) ∧ t.mem.sram = s.mem.sram ∧
         (∀ c cs, rest = c :: cs → c.commit = false → t.twn.apply = rest) ∧
         (∀ c, rest = [c] → c.commit = true → t.twn.apply = [] ∧ t.twn.replicaEp = c.epoch))) ∧
  (∀ (s : State) (m : Msg), s.linkOn = true → s.halted = false → (s.port 8).state = .up → m.src = peerNode s 8 → m.fault = 0 → m.status = 0 →
     (∀ a, s.twn.commitAt = some a → commitLate s = false → rxNext s 8 1 m = true → m.type = 0x42 → m.txn = s.twn.commitTxn → msgFits s m 0x42 8 = true →
       bits (mword m 0) 55 40 = 0 → bits (mword m 0) 39 0 = s.twn.commitEp →
       (bits (mword m 0) 63 56 = 0 →
         ∃ t, exec (.commitAck m) s = .next t ∧ t.twn.commitAt = none ∧ t.twn.acked = s.twn.commitEp ∧ t.epc = s.epc ∧
           t.twn.outDir = if s.twn.commitSeed = true ∧ s.twn.outDir = 1 then 2 else s.twn.outDir) ∧
       (bits (mword m 0) 63 56 ≠ 0 → bits (mword m 0) 63 56 ≤ 4 →
         ∃ t, exec (.commitAck m) s = .next t ∧ t.twn.commitAt = none ∧ t.twn.acked = s.twn.acked ∧ t.epc = { s.epc with unacked := true } ∧
           t.twn.outDir = if s.twn.outDir = 0 then 0 else 3)) ∧
     (commitLate s = true → s.twn.pstate = 2 →
       ∃ t, exec .commitTimeout s = .next t ∧ t.twn.pstate = 3 ∧ t.twn.commitAt = none ∧ t.twn.outDir = 0 ∧ t.twn.rx = [] ∧ t.epc.unacked = true ∧
         bit (t.reg 0x0408) 31 = true ∧ t.mem = s.mem) ∧
     (msgFits s m 0x44 8 = true → rxNext s 8 0 m = true → (mword m 0 = 1 ∨ mword m 0 = 2) →
       ∃ t, exec (.tdown m) s = .next t ∧ t.mem = s.mem ∧
         t.twn.pstate = if s.twn.pstate = 2 ∨ s.twn.pstate = 3 then 4 else s.twn.pstate) ∧
     (msgFits s m 0x43 16 = true → rxNext s 8 2 m = true → bits (mword m 0) 56 40 = 0 → bits (mword m 1) 31 0 = 0 → m.tenant = 0 → m.txn = 0 →
       ∃ t, exec (.tstate m) s = .next t ∧ t.twn.gotTs = some (tstateOf m) ∧ t.mem = s.mem ∧
         (s.twn.pstate ≠ 1 → s.twn.pstate ≠ 2 → t.twn.pstate = s.twn.pstate) ∧
         ((s.twn.pstate = 1 ∨ s.twn.pstate = 2) → s.twn.sentTs.isSome = true →
           t.twn.pstate = if pairAgrees { s with twn := { s.twn with gotTs := some (tstateOf m) } } then s.twn.pstate else 5)) ∧
     (s.live = true → s.twn.pstate = 2 → s.twn.outDir = 1 → s.twn.seedDone = false → s.twn.tx.any (fun r => !r.seed) = false →
       ((∀ e, e < 128 → s.twn.seedWin ≤ e → seedEntry s e = false) →
         exec .seedWalk s = .next { s with twn := { s.twn with seedDone := true, seedEnded := true } }) ∧
       (∀ e, e < 128 → s.twn.seedWin ≤ e → seedEntry s e = true → (∀ x, x < e → s.twn.seedWin ≤ x → seedEntry s x = false) →
         (∀ p, p ∈ s.cc.hbm → p.rank ≤ hbmRank twinAgent) →
         ∃ t, exec .seedWalk s = .next t ∧ (s.twn.seedWin < t.twn.seedWin ∨ t.twn.seedWin = s.twn.seedWin ∧ s.twn.seedLine < t.twn.seedLine) ∧
           t.mem.sram = s.mem.sram ∧ t.tacks = s.tacks ∧
           ∀ k, (k < ringBase s 0x0420 ∨ ringBase s 0x0420 + ringBytes s 0x0420 ≤ k) → mget zeroByte t.mem.hbm k = mget zeroByte s.mem.hbm k)))

/-! ### Invariants of every step -/

/-- The invariants below hold at reset; reset's queue is empty, its port states DISABLED, its epoch IDLE at number 0. -/
def Obligations.ResetMeetsTheInvariants : Prop :=
  Memory.wf State.reset.mem = true ∧ queueOk State.reset = true ∧ clockOk State.reset = true ∧ todOk State.reset = true ∧
  powerOk State.reset = true ∧ cblOk State.reset = true ∧ State.reset.pending = [] ∧ State.reset.epc.state = .idle ∧ State.reset.epc.count = 0 ∧
  (∀ p, (State.reset.port p).state = .disabled) ∧ State.reset.clk.m = 48 ∧ State.reset.tod.incr = 0xAAAAAAAAAAAB

/-- HBM, CBUF and local memory stay in canonical form: addresses strictly rising, no listed byte equal to what an unlisted one reads
as, so equal memories are equal lists, whatever command runs. -/
def Obligations.StepKeepsMemoryCanonical : Prop :=
  ∀ (s t : State), Memory.wf s.mem = true → step s = .next t → Memory.wf t.mem = true

/-- R338, R339, R352, R353, R357: CCLK's multiplier and the one a change leads to stay from 32 to 48, and TOD stays a time:
nanoseconds below one second, a 48-bit fraction and 48-bit seconds, an INCR of 52 bits, whatever command runs. R354, R410 to
R415: something holds the Veper in reset exactly in its reset stage, and the PLL has locked exactly in the stages after it. -/
def Obligations.StepKeepsClockTimeAndPower : Prop :=
  (∀ (s t : State), clockOk s = true → todOk s = true → step s = .next t → clockOk t = true ∧ todOk t = true) ∧
  (∀ (s t : State), powerOk s = true → step s = .next t → powerOk t = true)

/-- R186, R187, R190: every Cobbler keeps sixteen 32-bit registers and a PC that is a multiple of 4, whatever command runs. -/
def Obligations.StepKeepsCobblerRegisters : Prop :=
  ∀ (s t : State), cblOk s = true → step s = .next t → cblOk t = true

/-- Log entry 2 (the model's choice): no command adds to the queue or reorders it: a step that runs a command leaves the rest of the
queue, and a step on an empty queue leaves it empty. Log entry 2 (the model's choice): a step on an empty queue is one CCLK
cycle. GLB_CCNT counts it once the PLL has locked, and no byte of memory changes, but that in a pair that journals the COMMIT
formed in that cc is written into the TX ring (R327). -/
def Obligations.StepsTakeCommandsAndCycles : Prop :=
  (∀ (s t : State), step s = .next t → t.pending = s.pending.tail ∧ (queueOk s = true → queueOk t = true)) ∧
  (∀ (s : State), s.pending = [] →
     ∃ t, step s = .next t ∧ t.now = s.now + 1 ∧ t.ccnt = (if s.power.pllLock then (s.ccnt + 1) % 2 ^ 64 else s.ccnt) ∧
       t.mem.sram = s.mem.sram ∧ t.jtag = s.jtag ∧ (journals s = false → t.mem.hbm = s.mem.hbm) ∧
       (0 < ringBytes s 0x0420 → ∀ k, (k < ringBase s 0x0420 ∨ ringBase s 0x0420 + ringBytes s 0x0420 ≤ k) →
         mget zeroByte t.mem.hbm k = mget zeroByte s.mem.hbm k))
end

