-- ==== Sys2Proof/Laws/Map.lean ====
section
/-! SUPPORT. Sparse maps: what is read after a write, and that every operation keeps the canonical form. -/

namespace Sys2Proof.Machine

variable {α : Type}

@[simp] theorem mget_nil (d : Nat → α) (k : Nat) : mget d [] k = d k := rfl

@[simp] theorem mget_cons (d : Nat → α) (k' : Nat) (v : α) (m : List (Nat × α)) (k : Nat) :
    mget d ((k', v) :: m) k = if k' = k then v else mget d m k := rfl

theorem mget_merase_self (d : Nat → α) (m : List (Nat × α)) (k : Nat) : mget d (merase m k) k = d k := by
  induction m with
  | nil => rfl
  | cons e m ih =>
    obtain ⟨k', v⟩ := e
    by_cases h : k' = k <;> simp [merase, h, ih]

theorem mget_merase_ne (d : Nat → α) (m : List (Nat × α)) {k j : Nat} (hne : k ≠ j) :
    mget d (merase m k) j = mget d m j := by
  induction m with
  | nil => rfl
  | cons e m ih =>
    obtain ⟨k', v⟩ := e
    by_cases h : k' = k
    · subst h; simp [merase, ih, hne]
    · simp [merase, h, ih]

theorem mget_minsert_self (d : Nat → α) (m : List (Nat × α)) (k : Nat) (v : α) (h : ∀ e ∈ m, e.1 ≠ k) :
    mget d (minsert m k v) k = v := by
  induction m with
  | nil => simp [minsert]
  | cons e m ih =>
    obtain ⟨k', w⟩ := e
    have h' : k' ≠ k := h (k', w) (by simp)
    have ht : ∀ e ∈ m, e.1 ≠ k := fun e he => h e (by simp [he])
    by_cases hk : k < k' <;> simp [minsert, hk, h', ih ht]

theorem mget_minsert_ne (d : Nat → α) (m : List (Nat × α)) {k j : Nat} (v : α) (hne : k ≠ j) :
    mget d (minsert m k v) j = mget d m j := by
  induction m with
  | nil => simp [minsert, hne]
  | cons e m ih =>
    obtain ⟨k', w⟩ := e
    by_cases hk : k < k' <;> simp [minsert, hk, hne, ih]

theorem merase_no_key (m : List (Nat × α)) (k : Nat) : ∀ e ∈ merase m k, e.1 ≠ k := by
  induction m with
  | nil => simp [merase]
  | cons e m ih =>
    obtain ⟨k', v⟩ := e
    by_cases h : k' = k
    · simpa [merase, h] using ih
    · intro x hx
      simp [merase, h] at hx
      rcases hx with rfl | hx
      · exact h
      · exact ih x hx

/-- A read after a write of the same key gives the value written. -/
@[simp] theorem mget_mset_self [DecidableEq α] (d : Nat → α) (m : List (Nat × α)) (k : Nat) (v : α) :
    mget d (mset d m k v) k = v := by
  by_cases h : v = d k
  · rw [mset, if_pos h, mget_merase_self, h]
  · rw [mset, if_neg h, mget_minsert_self d _ k v (merase_no_key m k)]

/-- A write leaves every other key alone. -/
theorem mget_mset_ne [DecidableEq α] (d : Nat → α) (m : List (Nat × α)) {k j : Nat} (v : α) (hne : k ≠ j) :
    mget d (mset d m k v) j = mget d m j := by
  by_cases h : v = d k
  · rw [mset, if_pos h, mget_merase_ne d m hne]
  · rw [mset, if_neg h, mget_minsert_ne d _ v hne, mget_merase_ne d m hne]

theorem mget_mset [DecidableEq α] (d : Nat → α) (m : List (Nat × α)) (k j : Nat) (v : α) :
    mget d (mset d m k v) j = if k = j then v else mget d m j := by
  by_cases h : k = j
  · subst h; simp
  · simp [h, mget_mset_ne d m v h]

/-! ### The canonical form -/

variable [DecidableEq α]

theorem mwfFrom_mono (d : Nat → α) {m : List (Nat × α)} : ∀ {lo lo' : Nat}, lo' ≤ lo → mwfFrom d lo m = true → mwfFrom d lo' m = true := by
  cases m with
  | nil => intros; rfl
  | cons e m =>
    obtain ⟨k, v⟩ := e
    intro lo lo' hle h
    simp [mwfFrom] at h ⊢
    exact ⟨⟨by omega, h.1.2⟩, h.2⟩

theorem mwfFrom_merase (d : Nat → α) {m : List (Nat × α)} (k : Nat) : ∀ {lo : Nat}, mwfFrom d lo m = true → mwfFrom d lo (merase m k) = true := by
  induction m with
  | nil => intros; rfl
  | cons e m ih =>
    obtain ⟨k', v⟩ := e
    intro lo h
    simp [mwfFrom] at h
    by_cases hk : k' = k
    · simpa [merase, hk] using mwfFrom_mono d (by omega) (ih h.2)
    · simp [merase, hk, mwfFrom, h.1, ih h.2]

theorem mwfFrom_minsert (d : Nat → α) {m : List (Nat × α)} {k : Nat} {v : α} (hv : v ≠ d k) (hk : ∀ e ∈ m, e.1 ≠ k) :
    ∀ {lo : Nat}, lo ≤ k → mwfFrom d lo m = true → mwfFrom d lo (minsert m k v) = true := by
  induction m with
  | nil => intro lo hlo _; simp [minsert, mwfFrom, hlo, hv]
  | cons e m ih =>
    obtain ⟨k', w⟩ := e
    intro lo hlo h
    simp [mwfFrom] at h
    have hne : k' ≠ k := hk (k', w) (by simp)
    by_cases hlt : k < k'
    · simp [minsert, hlt, mwfFrom, hlo, hv, h.1.2, h.2]
    · have := ih (fun e he => hk e (by simp [he])) (lo := k' + 1) (by omega) h.2
      simp [minsert, hlt, mwfFrom, h.1, this]

/-- A write keeps the canonical form. -/
theorem mwf_mset (d : Nat → α) {m : List (Nat × α)} (k : Nat) (v : α) (h : mwf d m = true) : mwf d (mset d m k v) = true := by
  unfold mset
  split
  · exact mwfFrom_merase d k h
  · exact mwfFrom_minsert d ‹_› (merase_no_key m k) (Nat.zero_le k) (mwfFrom_merase d k h)

/-- Bytes written keep the canonical form. -/
theorem mwf_putBytes (bs : List Byte) : ∀ {m : List (Nat × Byte)} (a : Nat), mwf zeroByte m = true → mwf zeroByte (putBytes m a bs) = true := by
  induction bs with
  | nil => intro m a h; exact h
  | cons b bs ih => intro m a h; exact ih (a + 1) (mwf_mset zeroByte a b h)

/-- A byte written is read; every byte outside the written range reads as before. -/
theorem mget_putBytes (bs : List Byte) : ∀ (m : List (Nat × Byte)) (a k : Nat),
    mget zeroByte (putBytes m a bs) k = if a ≤ k ∧ k < a + bs.length then bs.getD (k - a) 0 else mget zeroByte m k := by
  induction bs with
  | nil => intro m a k; simp [putBytes]
  | cons b bs ih =>
    intro m a k
    rw [putBytes, ih, mget_mset]
    by_cases h1 : a = k
    · subst h1; simp
    · by_cases h2 : a + 1 ≤ k ∧ k < a + 1 + bs.length
      · have : k - a = (k - (a + 1)) + 1 := by omega
        rw [if_pos h2, if_pos (by simp; omega), this, List.getD_cons_succ]
      · rw [if_neg h2, if_neg h1, if_neg (by simp; omega)]

end Sys2Proof.Machine
end

