-- ==== Sys2Proof/Laws/State.lean ====
section
/-! SUPPORT. The State after each named update, field by field, and what is read back after a write. -/

namespace Sys2Proof.Machine

/-! ### setQ -/

@[simp] theorem State.setQ_pending (s : State) (i : Nat) (v : QueueSt) : (s.setQ i v).pending = s.pending := rfl
@[simp] theorem State.setQ_freeCtr (s : State) (i : Nat) (v : QueueSt) : (s.setQ i v).freeCtr = s.freeCtr := rfl
@[simp] theorem State.setQ_now (s : State) (i : Nat) (v : QueueSt) : (s.setQ i v).now = s.now := rfl
@[simp] theorem State.setQ_ccnt (s : State) (i : Nat) (v : QueueSt) : (s.setQ i v).ccnt = s.ccnt := rfl
@[simp] theorem State.setQ_power (s : State) (i : Nat) (v : QueueSt) : (s.setQ i v).power = s.power := rfl
@[simp] theorem State.setQ_regs (s : State) (i : Nat) (v : QueueSt) : (s.setQ i v).regs = s.regs := rfl
@[simp] theorem State.setQ_regsF (s : State) (i : Nat) (v : QueueSt) : (s.setQ i v).regsF = s.regsF := rfl
@[simp] theorem State.setQ_latch (s : State) (i : Nat) (v : QueueSt) : (s.setQ i v).latch = s.latch := rfl
@[simp] theorem State.setQ_tab (s : State) (i : Nat) (v : QueueSt) : (s.setQ i v).tab = s.tab := rfl
@[simp] theorem State.setQ_tabF (s : State) (i : Nat) (v : QueueSt) : (s.setQ i v).tabF = s.tabF := rfl
@[simp] theorem State.setQ_epc (s : State) (i : Nat) (v : QueueSt) : (s.setQ i v).epc = s.epc := rfl
@[simp] theorem State.setQ_flt (s : State) (i : Nat) (v : QueueSt) : (s.setQ i v).flt = s.flt := rfl
@[simp] theorem State.setQ_trc (s : State) (i : Nat) (v : QueueSt) : (s.setQ i v).trc = s.trc := rfl
@[simp] theorem State.setQ_units (s : State) (i : Nat) (v : QueueSt) : (s.setQ i v).units = s.units := rfl
@[simp] theorem State.setQ_msp (s : State) (i : Nat) (v : QueueSt) : (s.setQ i v).msp = s.msp := rfl
@[simp] theorem State.setQ_tacks (s : State) (i : Nat) (v : QueueSt) : (s.setQ i v).tacks = s.tacks := rfl
@[simp] theorem State.setQ_tackUpd (s : State) (i : Nat) (v : QueueSt) : (s.setQ i v).tackUpd = s.tackUpd := rfl
@[simp] theorem State.setQ_tens (s : State) (i : Nat) (v : QueueSt) : (s.setQ i v).tens = s.tens := rfl
@[simp] theorem State.setQ_wins (s : State) (i : Nat) (v : QueueSt) : (s.setQ i v).wins = s.wins := rfl
@[simp] theorem State.setQ_mem (s : State) (i : Nat) (v : QueueSt) : (s.setQ i v).mem = s.mem := rfl
@[simp] theorem State.setQ_cbls (s : State) (i : Nat) (v : QueueSt) : (s.setQ i v).cbls = s.cbls := rfl
@[simp] theorem State.setQ_vcs (s : State) (i : Nat) (v : QueueSt) : (s.setQ i v).vcs = s.vcs := rfl
@[simp] theorem State.setQ_awls (s : State) (i : Nat) (v : QueueSt) : (s.setQ i v).awls = s.awls := rfl
@[simp] theorem State.setQ_ports (s : State) (i : Nat) (v : QueueSt) : (s.setQ i v).ports = s.ports := rfl
@[simp] theorem State.setQ_keys (s : State) (i : Nat) (v : QueueSt) : (s.setQ i v).keys = s.keys := rfl
@[simp] theorem State.setQ_ownFlt (s : State) (i : Nat) (v : QueueSt) : (s.setQ i v).ownFlt = s.ownFlt := rfl
@[simp] theorem State.setQ_routed (s : State) (i : Nat) (v : QueueSt) : (s.setQ i v).routed = s.routed := rfl
@[simp] theorem State.setQ_strs (s : State) (i : Nat) (v : QueueSt) : (s.setQ i v).strs = s.strs := rfl
@[simp] theorem State.setQ_twn (s : State) (i : Nat) (v : QueueSt) : (s.setQ i v).twn = s.twn := rfl
@[simp] theorem State.setQ_clk (s : State) (i : Nat) (v : QueueSt) : (s.setQ i v).clk = s.clk := rfl
@[simp] theorem State.setQ_tod (s : State) (i : Nat) (v : QueueSt) : (s.setQ i v).tod = s.tod := rfl
@[simp] theorem State.setQ_nextFx (s : State) (i : Nat) (v : QueueSt) : (s.setQ i v).nextFx = s.nextFx := rfl
@[simp] theorem State.setQ_srPend (s : State) (i : Nat) (v : QueueSt) : (s.setQ i v).srPend = s.srPend := rfl
@[simp] theorem State.setQ_jtag (s : State) (i : Nat) (v : QueueSt) : (s.setQ i v).jtag = s.jtag := rfl
@[simp] theorem State.setQ_once (s : State) (i : Nat) (v : QueueSt) : (s.setQ i v).once = s.once := rfl
@[simp] theorem State.setQ_issue (s : State) (i : Nat) (v : QueueSt) : (s.setQ i v).issue = s.issue := rfl
@[simp] theorem State.setQ_lastTen (s : State) (i : Nat) (v : QueueSt) : (s.setQ i v).lastTen = s.lastTen := rfl
@[simp] theorem State.setQ_cc (s : State) (i : Nat) (v : QueueSt) : (s.setQ i v).cc = s.cc := rfl

/-- What is read back after the write of a record. -/
@[simp] theorem State.setQ_q (s : State) (i j : Nat) (v : QueueSt) : (s.setQ i v).q j = if i = j then v else s.q j :=
  mget_mset _ _ _ _ _

/-! ### setVc -/

@[simp] theorem State.setVc_pending (s : State) (i : Nat) (v : VcSt) : (s.setVc i v).pending = s.pending := rfl
@[simp] theorem State.setVc_freeCtr (s : State) (i : Nat) (v : VcSt) : (s.setVc i v).freeCtr = s.freeCtr := rfl
@[simp] theorem State.setVc_now (s : State) (i : Nat) (v : VcSt) : (s.setVc i v).now = s.now := rfl
@[simp] theorem State.setVc_ccnt (s : State) (i : Nat) (v : VcSt) : (s.setVc i v).ccnt = s.ccnt := rfl
@[simp] theorem State.setVc_power (s : State) (i : Nat) (v : VcSt) : (s.setVc i v).power = s.power := rfl
@[simp] theorem State.setVc_regs (s : State) (i : Nat) (v : VcSt) : (s.setVc i v).regs = s.regs := rfl
@[simp] theorem State.setVc_regsF (s : State) (i : Nat) (v : VcSt) : (s.setVc i v).regsF = s.regsF := rfl
@[simp] theorem State.setVc_latch (s : State) (i : Nat) (v : VcSt) : (s.setVc i v).latch = s.latch := rfl
@[simp] theorem State.setVc_tab (s : State) (i : Nat) (v : VcSt) : (s.setVc i v).tab = s.tab := rfl
@[simp] theorem State.setVc_tabF (s : State) (i : Nat) (v : VcSt) : (s.setVc i v).tabF = s.tabF := rfl
@[simp] theorem State.setVc_epc (s : State) (i : Nat) (v : VcSt) : (s.setVc i v).epc = s.epc := rfl
@[simp] theorem State.setVc_flt (s : State) (i : Nat) (v : VcSt) : (s.setVc i v).flt = s.flt := rfl
@[simp] theorem State.setVc_trc (s : State) (i : Nat) (v : VcSt) : (s.setVc i v).trc = s.trc := rfl
@[simp] theorem State.setVc_units (s : State) (i : Nat) (v : VcSt) : (s.setVc i v).units = s.units := rfl
@[simp] theorem State.setVc_msp (s : State) (i : Nat) (v : VcSt) : (s.setVc i v).msp = s.msp := rfl
@[simp] theorem State.setVc_tacks (s : State) (i : Nat) (v : VcSt) : (s.setVc i v).tacks = s.tacks := rfl
@[simp] theorem State.setVc_tackUpd (s : State) (i : Nat) (v : VcSt) : (s.setVc i v).tackUpd = s.tackUpd := rfl
@[simp] theorem State.setVc_tens (s : State) (i : Nat) (v : VcSt) : (s.setVc i v).tens = s.tens := rfl
@[simp] theorem State.setVc_wins (s : State) (i : Nat) (v : VcSt) : (s.setVc i v).wins = s.wins := rfl
@[simp] theorem State.setVc_queues (s : State) (i : Nat) (v : VcSt) : (s.setVc i v).queues = s.queues := rfl
@[simp] theorem State.setVc_mem (s : State) (i : Nat) (v : VcSt) : (s.setVc i v).mem = s.mem := rfl
@[simp] theorem State.setVc_cbls (s : State) (i : Nat) (v : VcSt) : (s.setVc i v).cbls = s.cbls := rfl
@[simp] theorem State.setVc_awls (s : State) (i : Nat) (v : VcSt) : (s.setVc i v).awls = s.awls := rfl
@[simp] theorem State.setVc_ports (s : State) (i : Nat) (v : VcSt) : (s.setVc i v).ports = s.ports := rfl
@[simp] theorem State.setVc_keys (s : State) (i : Nat) (v : VcSt) : (s.setVc i v).keys = s.keys := rfl
@[simp] theorem State.setVc_ownFlt (s : State) (i : Nat) (v : VcSt) : (s.setVc i v).ownFlt = s.ownFlt := rfl
@[simp] theorem State.setVc_routed (s : State) (i : Nat) (v : VcSt) : (s.setVc i v).routed = s.routed := rfl
@[simp] theorem State.setVc_strs (s : State) (i : Nat) (v : VcSt) : (s.setVc i v).strs = s.strs := rfl
@[simp] theorem State.setVc_twn (s : State) (i : Nat) (v : VcSt) : (s.setVc i v).twn = s.twn := rfl
@[simp] theorem State.setVc_clk (s : State) (i : Nat) (v : VcSt) : (s.setVc i v).clk = s.clk := rfl
@[simp] theorem State.setVc_tod (s : State) (i : Nat) (v : VcSt) : (s.setVc i v).tod = s.tod := rfl
@[simp] theorem State.setVc_nextFx (s : State) (i : Nat) (v : VcSt) : (s.setVc i v).nextFx = s.nextFx := rfl
@[simp] theorem State.setVc_srPend (s : State) (i : Nat) (v : VcSt) : (s.setVc i v).srPend = s.srPend := rfl
@[simp] theorem State.setVc_jtag (s : State) (i : Nat) (v : VcSt) : (s.setVc i v).jtag = s.jtag := rfl
@[simp] theorem State.setVc_once (s : State) (i : Nat) (v : VcSt) : (s.setVc i v).once = s.once := rfl
@[simp] theorem State.setVc_issue (s : State) (i : Nat) (v : VcSt) : (s.setVc i v).issue = s.issue := rfl
@[simp] theorem State.setVc_lastTen (s : State) (i : Nat) (v : VcSt) : (s.setVc i v).lastTen = s.lastTen := rfl
@[simp] theorem State.setVc_cc (s : State) (i : Nat) (v : VcSt) : (s.setVc i v).cc = s.cc := rfl

/-- What is read back after the write of a record. -/
@[simp] theorem State.setVc_vc (s : State) (i j : Nat) (v : VcSt) : (s.setVc i v).vc j = if i = j then v else s.vc j :=
  mget_mset _ _ _ _ _

/-! ### setCbl -/

@[simp] theorem State.setCbl_pending (s : State) (i : Nat) (v : CblSt) : (s.setCbl i v).pending = s.pending := rfl
@[simp] theorem State.setCbl_freeCtr (s : State) (i : Nat) (v : CblSt) : (s.setCbl i v).freeCtr = s.freeCtr := rfl
@[simp] theorem State.setCbl_now (s : State) (i : Nat) (v : CblSt) : (s.setCbl i v).now = s.now := rfl
@[simp] theorem State.setCbl_ccnt (s : State) (i : Nat) (v : CblSt) : (s.setCbl i v).ccnt = s.ccnt := rfl
@[simp] theorem State.setCbl_power (s : State) (i : Nat) (v : CblSt) : (s.setCbl i v).power = s.power := rfl
@[simp] theorem State.setCbl_regs (s : State) (i : Nat) (v : CblSt) : (s.setCbl i v).regs = s.regs := rfl
@[simp] theorem State.setCbl_regsF (s : State) (i : Nat) (v : CblSt) : (s.setCbl i v).regsF = s.regsF := rfl
@[simp] theorem State.setCbl_latch (s : State) (i : Nat) (v : CblSt) : (s.setCbl i v).latch = s.latch := rfl
@[simp] theorem State.setCbl_tab (s : State) (i : Nat) (v : CblSt) : (s.setCbl i v).tab = s.tab := rfl
@[simp] theorem State.setCbl_tabF (s : State) (i : Nat) (v : CblSt) : (s.setCbl i v).tabF = s.tabF := rfl
@[simp] theorem State.setCbl_epc (s : State) (i : Nat) (v : CblSt) : (s.setCbl i v).epc = s.epc := rfl
@[simp] theorem State.setCbl_flt (s : State) (i : Nat) (v : CblSt) : (s.setCbl i v).flt = s.flt := rfl
@[simp] theorem State.setCbl_trc (s : State) (i : Nat) (v : CblSt) : (s.setCbl i v).trc = s.trc := rfl
@[simp] theorem State.setCbl_units (s : State) (i : Nat) (v : CblSt) : (s.setCbl i v).units = s.units := rfl
@[simp] theorem State.setCbl_msp (s : State) (i : Nat) (v : CblSt) : (s.setCbl i v).msp = s.msp := rfl
@[simp] theorem State.setCbl_tacks (s : State) (i : Nat) (v : CblSt) : (s.setCbl i v).tacks = s.tacks := rfl
@[simp] theorem State.setCbl_tackUpd (s : State) (i : Nat) (v : CblSt) : (s.setCbl i v).tackUpd = s.tackUpd := rfl
@[simp] theorem State.setCbl_tens (s : State) (i : Nat) (v : CblSt) : (s.setCbl i v).tens = s.tens := rfl
@[simp] theorem State.setCbl_wins (s : State) (i : Nat) (v : CblSt) : (s.setCbl i v).wins = s.wins := rfl
@[simp] theorem State.setCbl_queues (s : State) (i : Nat) (v : CblSt) : (s.setCbl i v).queues = s.queues := rfl
@[simp] theorem State.setCbl_mem (s : State) (i : Nat) (v : CblSt) : (s.setCbl i v).mem = s.mem := rfl
@[simp] theorem State.setCbl_vcs (s : State) (i : Nat) (v : CblSt) : (s.setCbl i v).vcs = s.vcs := rfl
@[simp] theorem State.setCbl_awls (s : State) (i : Nat) (v : CblSt) : (s.setCbl i v).awls = s.awls := rfl
@[simp] theorem State.setCbl_ports (s : State) (i : Nat) (v : CblSt) : (s.setCbl i v).ports = s.ports := rfl
@[simp] theorem State.setCbl_keys (s : State) (i : Nat) (v : CblSt) : (s.setCbl i v).keys = s.keys := rfl
@[simp] theorem State.setCbl_ownFlt (s : State) (i : Nat) (v : CblSt) : (s.setCbl i v).ownFlt = s.ownFlt := rfl
@[simp] theorem State.setCbl_routed (s : State) (i : Nat) (v : CblSt) : (s.setCbl i v).routed = s.routed := rfl
@[simp] theorem State.setCbl_strs (s : State) (i : Nat) (v : CblSt) : (s.setCbl i v).strs = s.strs := rfl
@[simp] theorem State.setCbl_twn (s : State) (i : Nat) (v : CblSt) : (s.setCbl i v).twn = s.twn := rfl
@[simp] theorem State.setCbl_clk (s : State) (i : Nat) (v : CblSt) : (s.setCbl i v).clk = s.clk := rfl
@[simp] theorem State.setCbl_tod (s : State) (i : Nat) (v : CblSt) : (s.setCbl i v).tod = s.tod := rfl
@[simp] theorem State.setCbl_nextFx (s : State) (i : Nat) (v : CblSt) : (s.setCbl i v).nextFx = s.nextFx := rfl
@[simp] theorem State.setCbl_srPend (s : State) (i : Nat) (v : CblSt) : (s.setCbl i v).srPend = s.srPend := rfl
@[simp] theorem State.setCbl_jtag (s : State) (i : Nat) (v : CblSt) : (s.setCbl i v).jtag = s.jtag := rfl
@[simp] theorem State.setCbl_once (s : State) (i : Nat) (v : CblSt) : (s.setCbl i v).once = s.once := rfl
@[simp] theorem State.setCbl_issue (s : State) (i : Nat) (v : CblSt) : (s.setCbl i v).issue = s.issue := rfl
@[simp] theorem State.setCbl_lastTen (s : State) (i : Nat) (v : CblSt) : (s.setCbl i v).lastTen = s.lastTen := rfl
@[simp] theorem State.setCbl_cc (s : State) (i : Nat) (v : CblSt) : (s.setCbl i v).cc = s.cc := rfl

/-- What is read back after the write of a record. -/
@[simp] theorem State.setCbl_cbl (s : State) (i j : Nat) (v : CblSt) : (s.setCbl i v).cbl j = if i = j then v else s.cbl j :=
  mget_mset _ _ _ _ _

/-! ### setAwl -/

@[simp] theorem State.setAwl_pending (s : State) (i : Nat) (v : AwlSt) : (s.setAwl i v).pending = s.pending := rfl
@[simp] theorem State.setAwl_freeCtr (s : State) (i : Nat) (v : AwlSt) : (s.setAwl i v).freeCtr = s.freeCtr := rfl
@[simp] theorem State.setAwl_now (s : State) (i : Nat) (v : AwlSt) : (s.setAwl i v).now = s.now := rfl
@[simp] theorem State.setAwl_ccnt (s : State) (i : Nat) (v : AwlSt) : (s.setAwl i v).ccnt = s.ccnt := rfl
@[simp] theorem State.setAwl_power (s : State) (i : Nat) (v : AwlSt) : (s.setAwl i v).power = s.power := rfl
@[simp] theorem State.setAwl_regs (s : State) (i : Nat) (v : AwlSt) : (s.setAwl i v).regs = s.regs := rfl
@[simp] theorem State.setAwl_regsF (s : State) (i : Nat) (v : AwlSt) : (s.setAwl i v).regsF = s.regsF := rfl
@[simp] theorem State.setAwl_latch (s : State) (i : Nat) (v : AwlSt) : (s.setAwl i v).latch = s.latch := rfl
@[simp] theorem State.setAwl_tab (s : State) (i : Nat) (v : AwlSt) : (s.setAwl i v).tab = s.tab := rfl
@[simp] theorem State.setAwl_tabF (s : State) (i : Nat) (v : AwlSt) : (s.setAwl i v).tabF = s.tabF := rfl
@[simp] theorem State.setAwl_epc (s : State) (i : Nat) (v : AwlSt) : (s.setAwl i v).epc = s.epc := rfl
@[simp] theorem State.setAwl_flt (s : State) (i : Nat) (v : AwlSt) : (s.setAwl i v).flt = s.flt := rfl
@[simp] theorem State.setAwl_trc (s : State) (i : Nat) (v : AwlSt) : (s.setAwl i v).trc = s.trc := rfl
@[simp] theorem State.setAwl_units (s : State) (i : Nat) (v : AwlSt) : (s.setAwl i v).units = s.units := rfl
@[simp] theorem State.setAwl_msp (s : State) (i : Nat) (v : AwlSt) : (s.setAwl i v).msp = s.msp := rfl
@[simp] theorem State.setAwl_tacks (s : State) (i : Nat) (v : AwlSt) : (s.setAwl i v).tacks = s.tacks := rfl
@[simp] theorem State.setAwl_tackUpd (s : State) (i : Nat) (v : AwlSt) : (s.setAwl i v).tackUpd = s.tackUpd := rfl
@[simp] theorem State.setAwl_tens (s : State) (i : Nat) (v : AwlSt) : (s.setAwl i v).tens = s.tens := rfl
@[simp] theorem State.setAwl_wins (s : State) (i : Nat) (v : AwlSt) : (s.setAwl i v).wins = s.wins := rfl
@[simp] theorem State.setAwl_queues (s : State) (i : Nat) (v : AwlSt) : (s.setAwl i v).queues = s.queues := rfl
@[simp] theorem State.setAwl_mem (s : State) (i : Nat) (v : AwlSt) : (s.setAwl i v).mem = s.mem := rfl
@[simp] theorem State.setAwl_cbls (s : State) (i : Nat) (v : AwlSt) : (s.setAwl i v).cbls = s.cbls := rfl
@[simp] theorem State.setAwl_vcs (s : State) (i : Nat) (v : AwlSt) : (s.setAwl i v).vcs = s.vcs := rfl
@[simp] theorem State.setAwl_ports (s : State) (i : Nat) (v : AwlSt) : (s.setAwl i v).ports = s.ports := rfl
@[simp] theorem State.setAwl_keys (s : State) (i : Nat) (v : AwlSt) : (s.setAwl i v).keys = s.keys := rfl
@[simp] theorem State.setAwl_ownFlt (s : State) (i : Nat) (v : AwlSt) : (s.setAwl i v).ownFlt = s.ownFlt := rfl
@[simp] theorem State.setAwl_routed (s : State) (i : Nat) (v : AwlSt) : (s.setAwl i v).routed = s.routed := rfl
@[simp] theorem State.setAwl_strs (s : State) (i : Nat) (v : AwlSt) : (s.setAwl i v).strs = s.strs := rfl
@[simp] theorem State.setAwl_twn (s : State) (i : Nat) (v : AwlSt) : (s.setAwl i v).twn = s.twn := rfl
@[simp] theorem State.setAwl_clk (s : State) (i : Nat) (v : AwlSt) : (s.setAwl i v).clk = s.clk := rfl
@[simp] theorem State.setAwl_tod (s : State) (i : Nat) (v : AwlSt) : (s.setAwl i v).tod = s.tod := rfl
@[simp] theorem State.setAwl_nextFx (s : State) (i : Nat) (v : AwlSt) : (s.setAwl i v).nextFx = s.nextFx := rfl
@[simp] theorem State.setAwl_srPend (s : State) (i : Nat) (v : AwlSt) : (s.setAwl i v).srPend = s.srPend := rfl
@[simp] theorem State.setAwl_jtag (s : State) (i : Nat) (v : AwlSt) : (s.setAwl i v).jtag = s.jtag := rfl
@[simp] theorem State.setAwl_once (s : State) (i : Nat) (v : AwlSt) : (s.setAwl i v).once = s.once := rfl
@[simp] theorem State.setAwl_issue (s : State) (i : Nat) (v : AwlSt) : (s.setAwl i v).issue = s.issue := rfl
@[simp] theorem State.setAwl_lastTen (s : State) (i : Nat) (v : AwlSt) : (s.setAwl i v).lastTen = s.lastTen := rfl
@[simp] theorem State.setAwl_cc (s : State) (i : Nat) (v : AwlSt) : (s.setAwl i v).cc = s.cc := rfl

/-- What is read back after the write of a record. -/
@[simp] theorem State.setAwl_awl (s : State) (i j : Nat) (v : AwlSt) : (s.setAwl i v).awl j = if i = j then v else s.awl j :=
  mget_mset _ _ _ _ _

/-! ### setPort -/

@[simp] theorem State.setPort_pending (s : State) (i : Nat) (v : PortSt) : (s.setPort i v).pending = s.pending := rfl
@[simp] theorem State.setPort_freeCtr (s : State) (i : Nat) (v : PortSt) : (s.setPort i v).freeCtr = s.freeCtr := rfl
@[simp] theorem State.setPort_now (s : State) (i : Nat) (v : PortSt) : (s.setPort i v).now = s.now := rfl
@[simp] theorem State.setPort_ccnt (s : State) (i : Nat) (v : PortSt) : (s.setPort i v).ccnt = s.ccnt := rfl
@[simp] theorem State.setPort_power (s : State) (i : Nat) (v : PortSt) : (s.setPort i v).power = s.power := rfl
@[simp] theorem State.setPort_regs (s : State) (i : Nat) (v : PortSt) : (s.setPort i v).regs = s.regs := rfl
@[simp] theorem State.setPort_regsF (s : State) (i : Nat) (v : PortSt) : (s.setPort i v).regsF = s.regsF := rfl
@[simp] theorem State.setPort_latch (s : State) (i : Nat) (v : PortSt) : (s.setPort i v).latch = s.latch := rfl
@[simp] theorem State.setPort_tab (s : State) (i : Nat) (v : PortSt) : (s.setPort i v).tab = s.tab := rfl
@[simp] theorem State.setPort_tabF (s : State) (i : Nat) (v : PortSt) : (s.setPort i v).tabF = s.tabF := rfl
@[simp] theorem State.setPort_epc (s : State) (i : Nat) (v : PortSt) : (s.setPort i v).epc = s.epc := rfl
@[simp] theorem State.setPort_flt (s : State) (i : Nat) (v : PortSt) : (s.setPort i v).flt = s.flt := rfl
@[simp] theorem State.setPort_trc (s : State) (i : Nat) (v : PortSt) : (s.setPort i v).trc = s.trc := rfl
@[simp] theorem State.setPort_units (s : State) (i : Nat) (v : PortSt) : (s.setPort i v).units = s.units := rfl
@[simp] theorem State.setPort_msp (s : State) (i : Nat) (v : PortSt) : (s.setPort i v).msp = s.msp := rfl
@[simp] theorem State.setPort_tacks (s : State) (i : Nat) (v : PortSt) : (s.setPort i v).tacks = s.tacks := rfl
@[simp] theorem State.setPort_tackUpd (s : State) (i : Nat) (v : PortSt) : (s.setPort i v).tackUpd = s.tackUpd := rfl
@[simp] theorem State.setPort_tens (s : State) (i : Nat) (v : PortSt) : (s.setPort i v).tens = s.tens := rfl
@[simp] theorem State.setPort_wins (s : State) (i : Nat) (v : PortSt) : (s.setPort i v).wins = s.wins := rfl
@[simp] theorem State.setPort_queues (s : State) (i : Nat) (v : PortSt) : (s.setPort i v).queues = s.queues := rfl
@[simp] theorem State.setPort_mem (s : State) (i : Nat) (v : PortSt) : (s.setPort i v).mem = s.mem := rfl
@[simp] theorem State.setPort_cbls (s : State) (i : Nat) (v : PortSt) : (s.setPort i v).cbls = s.cbls := rfl
@[simp] theorem State.setPort_vcs (s : State) (i : Nat) (v : PortSt) : (s.setPort i v).vcs = s.vcs := rfl
@[simp] theorem State.setPort_awls (s : State) (i : Nat) (v : PortSt) : (s.setPort i v).awls = s.awls := rfl
@[simp] theorem State.setPort_keys (s : State) (i : Nat) (v : PortSt) : (s.setPort i v).keys = s.keys := rfl
@[simp] theorem State.setPort_ownFlt (s : State) (i : Nat) (v : PortSt) : (s.setPort i v).ownFlt = s.ownFlt := rfl
@[simp] theorem State.setPort_routed (s : State) (i : Nat) (v : PortSt) : (s.setPort i v).routed = s.routed := rfl
@[simp] theorem State.setPort_strs (s : State) (i : Nat) (v : PortSt) : (s.setPort i v).strs = s.strs := rfl
@[simp] theorem State.setPort_twn (s : State) (i : Nat) (v : PortSt) : (s.setPort i v).twn = s.twn := rfl
@[simp] theorem State.setPort_clk (s : State) (i : Nat) (v : PortSt) : (s.setPort i v).clk = s.clk := rfl
@[simp] theorem State.setPort_tod (s : State) (i : Nat) (v : PortSt) : (s.setPort i v).tod = s.tod := rfl
@[simp] theorem State.setPort_nextFx (s : State) (i : Nat) (v : PortSt) : (s.setPort i v).nextFx = s.nextFx := rfl
@[simp] theorem State.setPort_srPend (s : State) (i : Nat) (v : PortSt) : (s.setPort i v).srPend = s.srPend := rfl
@[simp] theorem State.setPort_jtag (s : State) (i : Nat) (v : PortSt) : (s.setPort i v).jtag = s.jtag := rfl
@[simp] theorem State.setPort_once (s : State) (i : Nat) (v : PortSt) : (s.setPort i v).once = s.once := rfl
@[simp] theorem State.setPort_issue (s : State) (i : Nat) (v : PortSt) : (s.setPort i v).issue = s.issue := rfl
@[simp] theorem State.setPort_lastTen (s : State) (i : Nat) (v : PortSt) : (s.setPort i v).lastTen = s.lastTen := rfl
@[simp] theorem State.setPort_cc (s : State) (i : Nat) (v : PortSt) : (s.setPort i v).cc = s.cc := rfl

/-- What is read back after the write of a record. -/
@[simp] theorem State.setPort_port (s : State) (i j : Nat) (v : PortSt) : (s.setPort i v).port j = if i = j then v else s.port j :=
  mget_mset _ _ _ _ _

/-! ### setTen -/

@[simp] theorem State.setTen_pending (s : State) (i : Nat) (v : TenSt) : (s.setTen i v).pending = s.pending := rfl
@[simp] theorem State.setTen_freeCtr (s : State) (i : Nat) (v : TenSt) : (s.setTen i v).freeCtr = s.freeCtr := rfl
@[simp] theorem State.setTen_now (s : State) (i : Nat) (v : TenSt) : (s.setTen i v).now = s.now := rfl
@[simp] theorem State.setTen_ccnt (s : State) (i : Nat) (v : TenSt) : (s.setTen i v).ccnt = s.ccnt := rfl
@[simp] theorem State.setTen_power (s : State) (i : Nat) (v : TenSt) : (s.setTen i v).power = s.power := rfl
@[simp] theorem State.setTen_regs (s : State) (i : Nat) (v : TenSt) : (s.setTen i v).regs = s.regs := rfl
@[simp] theorem State.setTen_regsF (s : State) (i : Nat) (v : TenSt) : (s.setTen i v).regsF = s.regsF := rfl
@[simp] theorem State.setTen_latch (s : State) (i : Nat) (v : TenSt) : (s.setTen i v).latch = s.latch := rfl
@[simp] theorem State.setTen_tab (s : State) (i : Nat) (v : TenSt) : (s.setTen i v).tab = s.tab := rfl
@[simp] theorem State.setTen_tabF (s : State) (i : Nat) (v : TenSt) : (s.setTen i v).tabF = s.tabF := rfl
@[simp] theorem State.setTen_epc (s : State) (i : Nat) (v : TenSt) : (s.setTen i v).epc = s.epc := rfl
@[simp] theorem State.setTen_flt (s : State) (i : Nat) (v : TenSt) : (s.setTen i v).flt = s.flt := rfl
@[simp] theorem State.setTen_trc (s : State) (i : Nat) (v : TenSt) : (s.setTen i v).trc = s.trc := rfl
@[simp] theorem State.setTen_units (s : State) (i : Nat) (v : TenSt) : (s.setTen i v).units = s.units := rfl
@[simp] theorem State.setTen_msp (s : State) (i : Nat) (v : TenSt) : (s.setTen i v).msp = s.msp := rfl
@[simp] theorem State.setTen_tacks (s : State) (i : Nat) (v : TenSt) : (s.setTen i v).tacks = s.tacks := rfl
@[simp] theorem State.setTen_tackUpd (s : State) (i : Nat) (v : TenSt) : (s.setTen i v).tackUpd = s.tackUpd := rfl
@[simp] theorem State.setTen_wins (s : State) (i : Nat) (v : TenSt) : (s.setTen i v).wins = s.wins := rfl
@[simp] theorem State.setTen_queues (s : State) (i : Nat) (v : TenSt) : (s.setTen i v).queues = s.queues := rfl
@[simp] theorem State.setTen_mem (s : State) (i : Nat) (v : TenSt) : (s.setTen i v).mem = s.mem := rfl
@[simp] theorem State.setTen_cbls (s : State) (i : Nat) (v : TenSt) : (s.setTen i v).cbls = s.cbls := rfl
@[simp] theorem State.setTen_vcs (s : State) (i : Nat) (v : TenSt) : (s.setTen i v).vcs = s.vcs := rfl
@[simp] theorem State.setTen_awls (s : State) (i : Nat) (v : TenSt) : (s.setTen i v).awls = s.awls := rfl
@[simp] theorem State.setTen_ports (s : State) (i : Nat) (v : TenSt) : (s.setTen i v).ports = s.ports := rfl
@[simp] theorem State.setTen_keys (s : State) (i : Nat) (v : TenSt) : (s.setTen i v).keys = s.keys := rfl
@[simp] theorem State.setTen_ownFlt (s : State) (i : Nat) (v : TenSt) : (s.setTen i v).ownFlt = s.ownFlt := rfl
@[simp] theorem State.setTen_routed (s : State) (i : Nat) (v : TenSt) : (s.setTen i v).routed = s.routed := rfl
@[simp] theorem State.setTen_strs (s : State) (i : Nat) (v : TenSt) : (s.setTen i v).strs = s.strs := rfl
@[simp] theorem State.setTen_twn (s : State) (i : Nat) (v : TenSt) : (s.setTen i v).twn = s.twn := rfl
@[simp] theorem State.setTen_clk (s : State) (i : Nat) (v : TenSt) : (s.setTen i v).clk = s.clk := rfl
@[simp] theorem State.setTen_tod (s : State) (i : Nat) (v : TenSt) : (s.setTen i v).tod = s.tod := rfl
@[simp] theorem State.setTen_nextFx (s : State) (i : Nat) (v : TenSt) : (s.setTen i v).nextFx = s.nextFx := rfl
@[simp] theorem State.setTen_srPend (s : State) (i : Nat) (v : TenSt) : (s.setTen i v).srPend = s.srPend := rfl
@[simp] theorem State.setTen_jtag (s : State) (i : Nat) (v : TenSt) : (s.setTen i v).jtag = s.jtag := rfl
@[simp] theorem State.setTen_once (s : State) (i : Nat) (v : TenSt) : (s.setTen i v).once = s.once := rfl
@[simp] theorem State.setTen_issue (s : State) (i : Nat) (v : TenSt) : (s.setTen i v).issue = s.issue := rfl
@[simp] theorem State.setTen_lastTen (s : State) (i : Nat) (v : TenSt) : (s.setTen i v).lastTen = s.lastTen := rfl
@[simp] theorem State.setTen_cc (s : State) (i : Nat) (v : TenSt) : (s.setTen i v).cc = s.cc := rfl

/-- What is read back after the write of a record. -/
@[simp] theorem State.setTen_ten (s : State) (i j : Nat) (v : TenSt) : (s.setTen i v).ten j = if i = j then v else s.ten j :=
  mget_mset _ _ _ _ _

/-! ### setWin -/

@[simp] theorem State.setWin_pending (s : State) (i : Nat) (v : WinSt) : (s.setWin i v).pending = s.pending := rfl
@[simp] theorem State.setWin_freeCtr (s : State) (i : Nat) (v : WinSt) : (s.setWin i v).freeCtr = s.freeCtr := rfl
@[simp] theorem State.setWin_now (s : State) (i : Nat) (v : WinSt) : (s.setWin i v).now = s.now := rfl
@[simp] theorem State.setWin_ccnt (s : State) (i : Nat) (v : WinSt) : (s.setWin i v).ccnt = s.ccnt := rfl
@[simp] theorem State.setWin_power (s : State) (i : Nat) (v : WinSt) : (s.setWin i v).power = s.power := rfl
@[simp] theorem State.setWin_regs (s : State) (i : Nat) (v : WinSt) : (s.setWin i v).regs = s.regs := rfl
@[simp] theorem State.setWin_regsF (s : State) (i : Nat) (v : WinSt) : (s.setWin i v).regsF = s.regsF := rfl
@[simp] theorem State.setWin_latch (s : State) (i : Nat) (v : WinSt) : (s.setWin i v).latch = s.latch := rfl
@[simp] theorem State.setWin_tab (s : State) (i : Nat) (v : WinSt) : (s.setWin i v).tab = s.tab := rfl
@[simp] theorem State.setWin_tabF (s : State) (i : Nat) (v : WinSt) : (s.setWin i v).tabF = s.tabF := rfl
@[simp] theorem State.setWin_epc (s : State) (i : Nat) (v : WinSt) : (s.setWin i v).epc = s.epc := rfl
@[simp] theorem State.setWin_flt (s : State) (i : Nat) (v : WinSt) : (s.setWin i v).flt = s.flt := rfl
@[simp] theorem State.setWin_trc (s : State) (i : Nat) (v : WinSt) : (s.setWin i v).trc = s.trc := rfl
@[simp] theorem State.setWin_units (s : State) (i : Nat) (v : WinSt) : (s.setWin i v).units = s.units := rfl
@[simp] theorem State.setWin_msp (s : State) (i : Nat) (v : WinSt) : (s.setWin i v).msp = s.msp := rfl
@[simp] theorem State.setWin_tacks (s : State) (i : Nat) (v : WinSt) : (s.setWin i v).tacks = s.tacks := rfl
@[simp] theorem State.setWin_tackUpd (s : State) (i : Nat) (v : WinSt) : (s.setWin i v).tackUpd = s.tackUpd := rfl
@[simp] theorem State.setWin_tens (s : State) (i : Nat) (v : WinSt) : (s.setWin i v).tens = s.tens := rfl
@[simp] theorem State.setWin_queues (s : State) (i : Nat) (v : WinSt) : (s.setWin i v).queues = s.queues := rfl
@[simp] theorem State.setWin_mem (s : State) (i : Nat) (v : WinSt) : (s.setWin i v).mem = s.mem := rfl
@[simp] theorem State.setWin_cbls (s : State) (i : Nat) (v : WinSt) : (s.setWin i v).cbls = s.cbls := rfl
@[simp] theorem State.setWin_vcs (s : State) (i : Nat) (v : WinSt) : (s.setWin i v).vcs = s.vcs := rfl
@[simp] theorem State.setWin_awls (s : State) (i : Nat) (v : WinSt) : (s.setWin i v).awls = s.awls := rfl
@[simp] theorem State.setWin_ports (s : State) (i : Nat) (v : WinSt) : (s.setWin i v).ports = s.ports := rfl
@[simp] theorem State.setWin_keys (s : State) (i : Nat) (v : WinSt) : (s.setWin i v).keys = s.keys := rfl
@[simp] theorem State.setWin_ownFlt (s : State) (i : Nat) (v : WinSt) : (s.setWin i v).ownFlt = s.ownFlt := rfl
@[simp] theorem State.setWin_routed (s : State) (i : Nat) (v : WinSt) : (s.setWin i v).routed = s.routed := rfl
@[simp] theorem State.setWin_strs (s : State) (i : Nat) (v : WinSt) : (s.setWin i v).strs = s.strs := rfl
@[simp] theorem State.setWin_twn (s : State) (i : Nat) (v : WinSt) : (s.setWin i v).twn = s.twn := rfl
@[simp] theorem State.setWin_clk (s : State) (i : Nat) (v : WinSt) : (s.setWin i v).clk = s.clk := rfl
@[simp] theorem State.setWin_tod (s : State) (i : Nat) (v : WinSt) : (s.setWin i v).tod = s.tod := rfl
@[simp] theorem State.setWin_nextFx (s : State) (i : Nat) (v : WinSt) : (s.setWin i v).nextFx = s.nextFx := rfl
@[simp] theorem State.setWin_srPend (s : State) (i : Nat) (v : WinSt) : (s.setWin i v).srPend = s.srPend := rfl
@[simp] theorem State.setWin_jtag (s : State) (i : Nat) (v : WinSt) : (s.setWin i v).jtag = s.jtag := rfl
@[simp] theorem State.setWin_once (s : State) (i : Nat) (v : WinSt) : (s.setWin i v).once = s.once := rfl
@[simp] theorem State.setWin_issue (s : State) (i : Nat) (v : WinSt) : (s.setWin i v).issue = s.issue := rfl
@[simp] theorem State.setWin_lastTen (s : State) (i : Nat) (v : WinSt) : (s.setWin i v).lastTen = s.lastTen := rfl
@[simp] theorem State.setWin_cc (s : State) (i : Nat) (v : WinSt) : (s.setWin i v).cc = s.cc := rfl

/-- What is read back after the write of a record. -/
@[simp] theorem State.setWin_win (s : State) (i j : Nat) (v : WinSt) : (s.setWin i v).win j = if i = j then v else s.win j :=
  mget_mset _ _ _ _ _

/-! ### setTack -/

@[simp] theorem State.setTack_pending (s : State) (i : Nat) (v : TackSt) : (s.setTack i v).pending = s.pending := rfl
@[simp] theorem State.setTack_freeCtr (s : State) (i : Nat) (v : TackSt) : (s.setTack i v).freeCtr = s.freeCtr := rfl
@[simp] theorem State.setTack_now (s : State) (i : Nat) (v : TackSt) : (s.setTack i v).now = s.now := rfl
@[simp] theorem State.setTack_ccnt (s : State) (i : Nat) (v : TackSt) : (s.setTack i v).ccnt = s.ccnt := rfl
@[simp] theorem State.setTack_power (s : State) (i : Nat) (v : TackSt) : (s.setTack i v).power = s.power := rfl
@[simp] theorem State.setTack_regs (s : State) (i : Nat) (v : TackSt) : (s.setTack i v).regs = s.regs := rfl
@[simp] theorem State.setTack_regsF (s : State) (i : Nat) (v : TackSt) : (s.setTack i v).regsF = s.regsF := rfl
@[simp] theorem State.setTack_latch (s : State) (i : Nat) (v : TackSt) : (s.setTack i v).latch = s.latch := rfl
@[simp] theorem State.setTack_tab (s : State) (i : Nat) (v : TackSt) : (s.setTack i v).tab = s.tab := rfl
@[simp] theorem State.setTack_tabF (s : State) (i : Nat) (v : TackSt) : (s.setTack i v).tabF = s.tabF := rfl
@[simp] theorem State.setTack_epc (s : State) (i : Nat) (v : TackSt) : (s.setTack i v).epc = s.epc := rfl
@[simp] theorem State.setTack_flt (s : State) (i : Nat) (v : TackSt) : (s.setTack i v).flt = s.flt := rfl
@[simp] theorem State.setTack_trc (s : State) (i : Nat) (v : TackSt) : (s.setTack i v).trc = s.trc := rfl
@[simp] theorem State.setTack_units (s : State) (i : Nat) (v : TackSt) : (s.setTack i v).units = s.units := rfl
@[simp] theorem State.setTack_msp (s : State) (i : Nat) (v : TackSt) : (s.setTack i v).msp = s.msp := rfl
@[simp] theorem State.setTack_tackUpd (s : State) (i : Nat) (v : TackSt) : (s.setTack i v).tackUpd = s.tackUpd := rfl
@[simp] theorem State.setTack_tens (s : State) (i : Nat) (v : TackSt) : (s.setTack i v).tens = s.tens := rfl
@[simp] theorem State.setTack_wins (s : State) (i : Nat) (v : TackSt) : (s.setTack i v).wins = s.wins := rfl
@[simp] theorem State.setTack_queues (s : State) (i : Nat) (v : TackSt) : (s.setTack i v).queues = s.queues := rfl
@[simp] theorem State.setTack_mem (s : State) (i : Nat) (v : TackSt) : (s.setTack i v).mem = s.mem := rfl
@[simp] theorem State.setTack_cbls (s : State) (i : Nat) (v : TackSt) : (s.setTack i v).cbls = s.cbls := rfl
@[simp] theorem State.setTack_vcs (s : State) (i : Nat) (v : TackSt) : (s.setTack i v).vcs = s.vcs := rfl
@[simp] theorem State.setTack_awls (s : State) (i : Nat) (v : TackSt) : (s.setTack i v).awls = s.awls := rfl
@[simp] theorem State.setTack_ports (s : State) (i : Nat) (v : TackSt) : (s.setTack i v).ports = s.ports := rfl
@[simp] theorem State.setTack_keys (s : State) (i : Nat) (v : TackSt) : (s.setTack i v).keys = s.keys := rfl
@[simp] theorem State.setTack_ownFlt (s : State) (i : Nat) (v : TackSt) : (s.setTack i v).ownFlt = s.ownFlt := rfl
@[simp] theorem State.setTack_routed (s : State) (i : Nat) (v : TackSt) : (s.setTack i v).routed = s.routed := rfl
@[simp] theorem State.setTack_strs (s : State) (i : Nat) (v : TackSt) : (s.setTack i v).strs = s.strs := rfl
@[simp] theorem State.setTack_twn (s : State) (i : Nat) (v : TackSt) : (s.setTack i v).twn = s.twn := rfl
@[simp] theorem State.setTack_clk (s : State) (i : Nat) (v : TackSt) : (s.setTack i v).clk = s.clk := rfl
@[simp] theorem State.setTack_tod (s : State) (i : Nat) (v : TackSt) : (s.setTack i v).tod = s.tod := rfl
@[simp] theorem State.setTack_nextFx (s : State) (i : Nat) (v : TackSt) : (s.setTack i v).nextFx = s.nextFx := rfl
@[simp] theorem State.setTack_srPend (s : State) (i : Nat) (v : TackSt) : (s.setTack i v).srPend = s.srPend := rfl
@[simp] theorem State.setTack_jtag (s : State) (i : Nat) (v : TackSt) : (s.setTack i v).jtag = s.jtag := rfl
@[simp] theorem State.setTack_once (s : State) (i : Nat) (v : TackSt) : (s.setTack i v).once = s.once := rfl
@[simp] theorem State.setTack_issue (s : State) (i : Nat) (v : TackSt) : (s.setTack i v).issue = s.issue := rfl
@[simp] theorem State.setTack_lastTen (s : State) (i : Nat) (v : TackSt) : (s.setTack i v).lastTen = s.lastTen := rfl
@[simp] theorem State.setTack_cc (s : State) (i : Nat) (v : TackSt) : (s.setTack i v).cc = s.cc := rfl

/-- What is read back after the write of a record. -/
@[simp] theorem State.setTack_tack (s : State) (i j : Nat) (v : TackSt) : (s.setTack i v).tack j = if i = j then v else s.tack j :=
  mget_mset _ _ _ _ _

/-! ### setUnit -/

@[simp] theorem State.setUnit_pending (s : State) (i : Nat) (v : UnitSt) : (s.setUnit i v).pending = s.pending := rfl
@[simp] theorem State.setUnit_freeCtr (s : State) (i : Nat) (v : UnitSt) : (s.setUnit i v).freeCtr = s.freeCtr := rfl
@[simp] theorem State.setUnit_now (s : State) (i : Nat) (v : UnitSt) : (s.setUnit i v).now = s.now := rfl
@[simp] theorem State.setUnit_ccnt (s : State) (i : Nat) (v : UnitSt) : (s.setUnit i v).ccnt = s.ccnt := rfl
@[simp] theorem State.setUnit_power (s : State) (i : Nat) (v : UnitSt) : (s.setUnit i v).power = s.power := rfl
@[simp] theorem State.setUnit_regs (s : State) (i : Nat) (v : UnitSt) : (s.setUnit i v).regs = s.regs := rfl
@[simp] theorem State.setUnit_regsF (s : State) (i : Nat) (v : UnitSt) : (s.setUnit i v).regsF = s.regsF := rfl
@[simp] theorem State.setUnit_latch (s : State) (i : Nat) (v : UnitSt) : (s.setUnit i v).latch = s.latch := rfl
@[simp] theorem State.setUnit_tab (s : State) (i : Nat) (v : UnitSt) : (s.setUnit i v).tab = s.tab := rfl
@[simp] theorem State.setUnit_tabF (s : State) (i : Nat) (v : UnitSt) : (s.setUnit i v).tabF = s.tabF := rfl
@[simp] theorem State.setUnit_epc (s : State) (i : Nat) (v : UnitSt) : (s.setUnit i v).epc = s.epc := rfl
@[simp] theorem State.setUnit_flt (s : State) (i : Nat) (v : UnitSt) : (s.setUnit i v).flt = s.flt := rfl
@[simp] theorem State.setUnit_trc (s : State) (i : Nat) (v : UnitSt) : (s.setUnit i v).trc = s.trc := rfl
@[simp] theorem State.setUnit_msp (s : State) (i : Nat) (v : UnitSt) : (s.setUnit i v).msp = s.msp := rfl
@[simp] theorem State.setUnit_tacks (s : State) (i : Nat) (v : UnitSt) : (s.setUnit i v).tacks = s.tacks := rfl
@[simp] theorem State.setUnit_tackUpd (s : State) (i : Nat) (v : UnitSt) : (s.setUnit i v).tackUpd = s.tackUpd := rfl
@[simp] theorem State.setUnit_tens (s : State) (i : Nat) (v : UnitSt) : (s.setUnit i v).tens = s.tens := rfl
@[simp] theorem State.setUnit_wins (s : State) (i : Nat) (v : UnitSt) : (s.setUnit i v).wins = s.wins := rfl
@[simp] theorem State.setUnit_queues (s : State) (i : Nat) (v : UnitSt) : (s.setUnit i v).queues = s.queues := rfl
@[simp] theorem State.setUnit_mem (s : State) (i : Nat) (v : UnitSt) : (s.setUnit i v).mem = s.mem := rfl
@[simp] theorem State.setUnit_cbls (s : State) (i : Nat) (v : UnitSt) : (s.setUnit i v).cbls = s.cbls := rfl
@[simp] theorem State.setUnit_vcs (s : State) (i : Nat) (v : UnitSt) : (s.setUnit i v).vcs = s.vcs := rfl
@[simp] theorem State.setUnit_awls (s : State) (i : Nat) (v : UnitSt) : (s.setUnit i v).awls = s.awls := rfl
@[simp] theorem State.setUnit_ports (s : State) (i : Nat) (v : UnitSt) : (s.setUnit i v).ports = s.ports := rfl
@[simp] theorem State.setUnit_keys (s : State) (i : Nat) (v : UnitSt) : (s.setUnit i v).keys = s.keys := rfl
@[simp] theorem State.setUnit_ownFlt (s : State) (i : Nat) (v : UnitSt) : (s.setUnit i v).ownFlt = s.ownFlt := rfl
@[simp] theorem State.setUnit_routed (s : State) (i : Nat) (v : UnitSt) : (s.setUnit i v).routed = s.routed := rfl
@[simp] theorem State.setUnit_strs (s : State) (i : Nat) (v : UnitSt) : (s.setUnit i v).strs = s.strs := rfl
@[simp] theorem State.setUnit_twn (s : State) (i : Nat) (v : UnitSt) : (s.setUnit i v).twn = s.twn := rfl
@[simp] theorem State.setUnit_clk (s : State) (i : Nat) (v : UnitSt) : (s.setUnit i v).clk = s.clk := rfl
@[simp] theorem State.setUnit_tod (s : State) (i : Nat) (v : UnitSt) : (s.setUnit i v).tod = s.tod := rfl
@[simp] theorem State.setUnit_nextFx (s : State) (i : Nat) (v : UnitSt) : (s.setUnit i v).nextFx = s.nextFx := rfl
@[simp] theorem State.setUnit_srPend (s : State) (i : Nat) (v : UnitSt) : (s.setUnit i v).srPend = s.srPend := rfl
@[simp] theorem State.setUnit_jtag (s : State) (i : Nat) (v : UnitSt) : (s.setUnit i v).jtag = s.jtag := rfl
@[simp] theorem State.setUnit_once (s : State) (i : Nat) (v : UnitSt) : (s.setUnit i v).once = s.once := rfl
@[simp] theorem State.setUnit_issue (s : State) (i : Nat) (v : UnitSt) : (s.setUnit i v).issue = s.issue := rfl
@[simp] theorem State.setUnit_lastTen (s : State) (i : Nat) (v : UnitSt) : (s.setUnit i v).lastTen = s.lastTen := rfl
@[simp] theorem State.setUnit_cc (s : State) (i : Nat) (v : UnitSt) : (s.setUnit i v).cc = s.cc := rfl

/-- What is read back after the write of a record. -/
@[simp] theorem State.setUnit_unit (s : State) (i j : Nat) (v : UnitSt) : (s.setUnit i v).unit j = if i = j then v else s.unit j :=
  mget_mset _ _ _ _ _

/-! ### setStr -/

@[simp] theorem State.setStr_pending (s : State) (i : Nat) (v : StrSt) : (s.setStr i v).pending = s.pending := rfl
@[simp] theorem State.setStr_freeCtr (s : State) (i : Nat) (v : StrSt) : (s.setStr i v).freeCtr = s.freeCtr := rfl
@[simp] theorem State.setStr_now (s : State) (i : Nat) (v : StrSt) : (s.setStr i v).now = s.now := rfl
@[simp] theorem State.setStr_ccnt (s : State) (i : Nat) (v : StrSt) : (s.setStr i v).ccnt = s.ccnt := rfl
@[simp] theorem State.setStr_power (s : State) (i : Nat) (v : StrSt) : (s.setStr i v).power = s.power := rfl
@[simp] theorem State.setStr_regs (s : State) (i : Nat) (v : StrSt) : (s.setStr i v).regs = s.regs := rfl
@[simp] theorem State.setStr_regsF (s : State) (i : Nat) (v : StrSt) : (s.setStr i v).regsF = s.regsF := rfl
@[simp] theorem State.setStr_latch (s : State) (i : Nat) (v : StrSt) : (s.setStr i v).latch = s.latch := rfl
@[simp] theorem State.setStr_tab (s : State) (i : Nat) (v : StrSt) : (s.setStr i v).tab = s.tab := rfl
@[simp] theorem State.setStr_tabF (s : State) (i : Nat) (v : StrSt) : (s.setStr i v).tabF = s.tabF := rfl
@[simp] theorem State.setStr_epc (s : State) (i : Nat) (v : StrSt) : (s.setStr i v).epc = s.epc := rfl
@[simp] theorem State.setStr_flt (s : State) (i : Nat) (v : StrSt) : (s.setStr i v).flt = s.flt := rfl
@[simp] theorem State.setStr_trc (s : State) (i : Nat) (v : StrSt) : (s.setStr i v).trc = s.trc := rfl
@[simp] theorem State.setStr_units (s : State) (i : Nat) (v : StrSt) : (s.setStr i v).units = s.units := rfl
@[simp] theorem State.setStr_msp (s : State) (i : Nat) (v : StrSt) : (s.setStr i v).msp = s.msp := rfl
@[simp] theorem State.setStr_tacks (s : State) (i : Nat) (v : StrSt) : (s.setStr i v).tacks = s.tacks := rfl
@[simp] theorem State.setStr_tackUpd (s : State) (i : Nat) (v : StrSt) : (s.setStr i v).tackUpd = s.tackUpd := rfl
@[simp] theorem State.setStr_tens (s : State) (i : Nat) (v : StrSt) : (s.setStr i v).tens = s.tens := rfl
@[simp] theorem State.setStr_wins (s : State) (i : Nat) (v : StrSt) : (s.setStr i v).wins = s.wins := rfl
@[simp] theorem State.setStr_queues (s : State) (i : Nat) (v : StrSt) : (s.setStr i v).queues = s.queues := rfl
@[simp] theorem State.setStr_mem (s : State) (i : Nat) (v : StrSt) : (s.setStr i v).mem = s.mem := rfl
@[simp] theorem State.setStr_cbls (s : State) (i : Nat) (v : StrSt) : (s.setStr i v).cbls = s.cbls := rfl
@[simp] theorem State.setStr_vcs (s : State) (i : Nat) (v : StrSt) : (s.setStr i v).vcs = s.vcs := rfl
@[simp] theorem State.setStr_awls (s : State) (i : Nat) (v : StrSt) : (s.setStr i v).awls = s.awls := rfl
@[simp] theorem State.setStr_ports (s : State) (i : Nat) (v : StrSt) : (s.setStr i v).ports = s.ports := rfl
@[simp] theorem State.setStr_keys (s : State) (i : Nat) (v : StrSt) : (s.setStr i v).keys = s.keys := rfl
@[simp] theorem State.setStr_ownFlt (s : State) (i : Nat) (v : StrSt) : (s.setStr i v).ownFlt = s.ownFlt := rfl
@[simp] theorem State.setStr_routed (s : State) (i : Nat) (v : StrSt) : (s.setStr i v).routed = s.routed := rfl
@[simp] theorem State.setStr_twn (s : State) (i : Nat) (v : StrSt) : (s.setStr i v).twn = s.twn := rfl
@[simp] theorem State.setStr_clk (s : State) (i : Nat) (v : StrSt) : (s.setStr i v).clk = s.clk := rfl
@[simp] theorem State.setStr_tod (s : State) (i : Nat) (v : StrSt) : (s.setStr i v).tod = s.tod := rfl
@[simp] theorem State.setStr_nextFx (s : State) (i : Nat) (v : StrSt) : (s.setStr i v).nextFx = s.nextFx := rfl
@[simp] theorem State.setStr_srPend (s : State) (i : Nat) (v : StrSt) : (s.setStr i v).srPend = s.srPend := rfl
@[simp] theorem State.setStr_jtag (s : State) (i : Nat) (v : StrSt) : (s.setStr i v).jtag = s.jtag := rfl
@[simp] theorem State.setStr_once (s : State) (i : Nat) (v : StrSt) : (s.setStr i v).once = s.once := rfl
@[simp] theorem State.setStr_issue (s : State) (i : Nat) (v : StrSt) : (s.setStr i v).issue = s.issue := rfl
@[simp] theorem State.setStr_lastTen (s : State) (i : Nat) (v : StrSt) : (s.setStr i v).lastTen = s.lastTen := rfl
@[simp] theorem State.setStr_cc (s : State) (i : Nat) (v : StrSt) : (s.setStr i v).cc = s.cc := rfl

/-- What is read back after the write of a record. -/
@[simp] theorem State.setStr_str (s : State) (i j : Nat) (v : StrSt) : (s.setStr i v).str j = if i = j then v else s.str j :=
  mget_mset _ _ _ _ _

/-! ### setKey -/

@[simp] theorem State.setKey_pending (s : State) (i : Nat) (v : KeySt) : (s.setKey i v).pending = s.pending := rfl
@[simp] theorem State.setKey_freeCtr (s : State) (i : Nat) (v : KeySt) : (s.setKey i v).freeCtr = s.freeCtr := rfl
@[simp] theorem State.setKey_now (s : State) (i : Nat) (v : KeySt) : (s.setKey i v).now = s.now := rfl
@[simp] theorem State.setKey_ccnt (s : State) (i : Nat) (v : KeySt) : (s.setKey i v).ccnt = s.ccnt := rfl
@[simp] theorem State.setKey_power (s : State) (i : Nat) (v : KeySt) : (s.setKey i v).power = s.power := rfl
@[simp] theorem State.setKey_regs (s : State) (i : Nat) (v : KeySt) : (s.setKey i v).regs = s.regs := rfl
@[simp] theorem State.setKey_regsF (s : State) (i : Nat) (v : KeySt) : (s.setKey i v).regsF = s.regsF := rfl
@[simp] theorem State.setKey_latch (s : State) (i : Nat) (v : KeySt) : (s.setKey i v).latch = s.latch := rfl
@[simp] theorem State.setKey_tab (s : State) (i : Nat) (v : KeySt) : (s.setKey i v).tab = s.tab := rfl
@[simp] theorem State.setKey_tabF (s : State) (i : Nat) (v : KeySt) : (s.setKey i v).tabF = s.tabF := rfl
@[simp] theorem State.setKey_epc (s : State) (i : Nat) (v : KeySt) : (s.setKey i v).epc = s.epc := rfl
@[simp] theorem State.setKey_flt (s : State) (i : Nat) (v : KeySt) : (s.setKey i v).flt = s.flt := rfl
@[simp] theorem State.setKey_trc (s : State) (i : Nat) (v : KeySt) : (s.setKey i v).trc = s.trc := rfl
@[simp] theorem State.setKey_units (s : State) (i : Nat) (v : KeySt) : (s.setKey i v).units = s.units := rfl
@[simp] theorem State.setKey_msp (s : State) (i : Nat) (v : KeySt) : (s.setKey i v).msp = s.msp := rfl
@[simp] theorem State.setKey_tacks (s : State) (i : Nat) (v : KeySt) : (s.setKey i v).tacks = s.tacks := rfl
@[simp] theorem State.setKey_tackUpd (s : State) (i : Nat) (v : KeySt) : (s.setKey i v).tackUpd = s.tackUpd := rfl
@[simp] theorem State.setKey_tens (s : State) (i : Nat) (v : KeySt) : (s.setKey i v).tens = s.tens := rfl
@[simp] theorem State.setKey_wins (s : State) (i : Nat) (v : KeySt) : (s.setKey i v).wins = s.wins := rfl
@[simp] theorem State.setKey_queues (s : State) (i : Nat) (v : KeySt) : (s.setKey i v).queues = s.queues := rfl
@[simp] theorem State.setKey_mem (s : State) (i : Nat) (v : KeySt) : (s.setKey i v).mem = s.mem := rfl
@[simp] theorem State.setKey_cbls (s : State) (i : Nat) (v : KeySt) : (s.setKey i v).cbls = s.cbls := rfl
@[simp] theorem State.setKey_vcs (s : State) (i : Nat) (v : KeySt) : (s.setKey i v).vcs = s.vcs := rfl
@[simp] theorem State.setKey_awls (s : State) (i : Nat) (v : KeySt) : (s.setKey i v).awls = s.awls := rfl
@[simp] theorem State.setKey_ports (s : State) (i : Nat) (v : KeySt) : (s.setKey i v).ports = s.ports := rfl
@[simp] theorem State.setKey_ownFlt (s : State) (i : Nat) (v : KeySt) : (s.setKey i v).ownFlt = s.ownFlt := rfl
@[simp] theorem State.setKey_routed (s : State) (i : Nat) (v : KeySt) : (s.setKey i v).routed = s.routed := rfl
@[simp] theorem State.setKey_strs (s : State) (i : Nat) (v : KeySt) : (s.setKey i v).strs = s.strs := rfl
@[simp] theorem State.setKey_twn (s : State) (i : Nat) (v : KeySt) : (s.setKey i v).twn = s.twn := rfl
@[simp] theorem State.setKey_clk (s : State) (i : Nat) (v : KeySt) : (s.setKey i v).clk = s.clk := rfl
@[simp] theorem State.setKey_tod (s : State) (i : Nat) (v : KeySt) : (s.setKey i v).tod = s.tod := rfl
@[simp] theorem State.setKey_nextFx (s : State) (i : Nat) (v : KeySt) : (s.setKey i v).nextFx = s.nextFx := rfl
@[simp] theorem State.setKey_srPend (s : State) (i : Nat) (v : KeySt) : (s.setKey i v).srPend = s.srPend := rfl
@[simp] theorem State.setKey_jtag (s : State) (i : Nat) (v : KeySt) : (s.setKey i v).jtag = s.jtag := rfl
@[simp] theorem State.setKey_once (s : State) (i : Nat) (v : KeySt) : (s.setKey i v).once = s.once := rfl
@[simp] theorem State.setKey_issue (s : State) (i : Nat) (v : KeySt) : (s.setKey i v).issue = s.issue := rfl
@[simp] theorem State.setKey_lastTen (s : State) (i : Nat) (v : KeySt) : (s.setKey i v).lastTen = s.lastTen := rfl
@[simp] theorem State.setKey_cc (s : State) (i : Nat) (v : KeySt) : (s.setKey i v).cc = s.cc := rfl

/-- What is read back after the write of a record. -/
@[simp] theorem State.setKey_key (s : State) (i j : Nat) (v : KeySt) : (s.setKey i v).key j = if i = j then v else s.key j :=
  mget_mset _ _ _ _ _

/-! ### setReg -/

@[simp] theorem State.setReg_pending (s : State) (k v : Nat) : (s.setReg k v).pending = s.pending := rfl
@[simp] theorem State.setReg_freeCtr (s : State) (k v : Nat) : (s.setReg k v).freeCtr = s.freeCtr := rfl
@[simp] theorem State.setReg_now (s : State) (k v : Nat) : (s.setReg k v).now = s.now := rfl
@[simp] theorem State.setReg_ccnt (s : State) (k v : Nat) : (s.setReg k v).ccnt = s.ccnt := rfl
@[simp] theorem State.setReg_power (s : State) (k v : Nat) : (s.setReg k v).power = s.power := rfl
@[simp] theorem State.setReg_regsF (s : State) (k v : Nat) : (s.setReg k v).regsF = s.regsF := rfl
@[simp] theorem State.setReg_latch (s : State) (k v : Nat) : (s.setReg k v).latch = s.latch := rfl
@[simp] theorem State.setReg_tab (s : State) (k v : Nat) : (s.setReg k v).tab = s.tab := rfl
@[simp] theorem State.setReg_tabF (s : State) (k v : Nat) : (s.setReg k v).tabF = s.tabF := rfl
@[simp] theorem State.setReg_epc (s : State) (k v : Nat) : (s.setReg k v).epc = s.epc := rfl
@[simp] theorem State.setReg_flt (s : State) (k v : Nat) : (s.setReg k v).flt = s.flt := rfl
@[simp] theorem State.setReg_trc (s : State) (k v : Nat) : (s.setReg k v).trc = s.trc := rfl
@[simp] theorem State.setReg_units (s : State) (k v : Nat) : (s.setReg k v).units = s.units := rfl
@[simp] theorem State.setReg_msp (s : State) (k v : Nat) : (s.setReg k v).msp = s.msp := rfl
@[simp] theorem State.setReg_tacks (s : State) (k v : Nat) : (s.setReg k v).tacks = s.tacks := rfl
@[simp] theorem State.setReg_tackUpd (s : State) (k v : Nat) : (s.setReg k v).tackUpd = s.tackUpd := rfl
@[simp] theorem State.setReg_tens (s : State) (k v : Nat) : (s.setReg k v).tens = s.tens := rfl
@[simp] theorem State.setReg_wins (s : State) (k v : Nat) : (s.setReg k v).wins = s.wins := rfl
@[simp] theorem State.setReg_queues (s : State) (k v : Nat) : (s.setReg k v).queues = s.queues := rfl
@[simp] theorem State.setReg_mem (s : State) (k v : Nat) : (s.setReg k v).mem = s.mem := rfl
@[simp] theorem State.setReg_cbls (s : State) (k v : Nat) : (s.setReg k v).cbls = s.cbls := rfl
@[simp] theorem State.setReg_vcs (s : State) (k v : Nat) : (s.setReg k v).vcs = s.vcs := rfl
@[simp] theorem State.setReg_awls (s : State) (k v : Nat) : (s.setReg k v).awls = s.awls := rfl
@[simp] theorem State.setReg_ports (s : State) (k v : Nat) : (s.setReg k v).ports = s.ports := rfl
@[simp] theorem State.setReg_keys (s : State) (k v : Nat) : (s.setReg k v).keys = s.keys := rfl
@[simp] theorem State.setReg_ownFlt (s : State) (k v : Nat) : (s.setReg k v).ownFlt = s.ownFlt := rfl
@[simp] theorem State.setReg_routed (s : State) (k v : Nat) : (s.setReg k v).routed = s.routed := rfl
@[simp] theorem State.setReg_strs (s : State) (k v : Nat) : (s.setReg k v).strs = s.strs := rfl
@[simp] theorem State.setReg_twn (s : State) (k v : Nat) : (s.setReg k v).twn = s.twn := rfl
@[simp] theorem State.setReg_clk (s : State) (k v : Nat) : (s.setReg k v).clk = s.clk := rfl
@[simp] theorem State.setReg_tod (s : State) (k v : Nat) : (s.setReg k v).tod = s.tod := rfl
@[simp] theorem State.setReg_nextFx (s : State) (k v : Nat) : (s.setReg k v).nextFx = s.nextFx := rfl
@[simp] theorem State.setReg_srPend (s : State) (k v : Nat) : (s.setReg k v).srPend = s.srPend := rfl
@[simp] theorem State.setReg_jtag (s : State) (k v : Nat) : (s.setReg k v).jtag = s.jtag := rfl
@[simp] theorem State.setReg_once (s : State) (k v : Nat) : (s.setReg k v).once = s.once := rfl
@[simp] theorem State.setReg_issue (s : State) (k v : Nat) : (s.setReg k v).issue = s.issue := rfl
@[simp] theorem State.setReg_lastTen (s : State) (k v : Nat) : (s.setReg k v).lastTen = s.lastTen := rfl
@[simp] theorem State.setReg_cc (s : State) (k v : Nat) : (s.setReg k v).cc = s.cc := rfl

/-- What is read back after the write of a register word. -/
@[simp] theorem State.setReg_reg (s : State) (k j v : Nat) : (s.setReg k v).reg j = if k = j then v else s.reg j :=
  mget_mset _ _ _ _ _

/-! ### setRegF -/

@[simp] theorem State.setRegF_pending (s : State) (k v : Nat) : (s.setRegF k v).pending = s.pending := rfl
@[simp] theorem State.setRegF_freeCtr (s : State) (k v : Nat) : (s.setRegF k v).freeCtr = s.freeCtr := rfl
@[simp] theorem State.setRegF_now (s : State) (k v : Nat) : (s.setRegF k v).now = s.now := rfl
@[simp] theorem State.setRegF_ccnt (s : State) (k v : Nat) : (s.setRegF k v).ccnt = s.ccnt := rfl
@[simp] theorem State.setRegF_power (s : State) (k v : Nat) : (s.setRegF k v).power = s.power := rfl
@[simp] theorem State.setRegF_regs (s : State) (k v : Nat) : (s.setRegF k v).regs = s.regs := rfl
@[simp] theorem State.setRegF_latch (s : State) (k v : Nat) : (s.setRegF k v).latch = s.latch := rfl
@[simp] theorem State.setRegF_tab (s : State) (k v : Nat) : (s.setRegF k v).tab = s.tab := rfl
@[simp] theorem State.setRegF_tabF (s : State) (k v : Nat) : (s.setRegF k v).tabF = s.tabF := rfl
@[simp] theorem State.setRegF_epc (s : State) (k v : Nat) : (s.setRegF k v).epc = s.epc := rfl
@[simp] theorem State.setRegF_flt (s : State) (k v : Nat) : (s.setRegF k v).flt = s.flt := rfl
@[simp] theorem State.setRegF_trc (s : State) (k v : Nat) : (s.setRegF k v).trc = s.trc := rfl
@[simp] theorem State.setRegF_units (s : State) (k v : Nat) : (s.setRegF k v).units = s.units := rfl
@[simp] theorem State.setRegF_msp (s : State) (k v : Nat) : (s.setRegF k v).msp = s.msp := rfl
@[simp] theorem State.setRegF_tacks (s : State) (k v : Nat) : (s.setRegF k v).tacks = s.tacks := rfl
@[simp] theorem State.setRegF_tackUpd (s : State) (k v : Nat) : (s.setRegF k v).tackUpd = s.tackUpd := rfl
@[simp] theorem State.setRegF_tens (s : State) (k v : Nat) : (s.setRegF k v).tens = s.tens := rfl
@[simp] theorem State.setRegF_wins (s : State) (k v : Nat) : (s.setRegF k v).wins = s.wins := rfl
@[simp] theorem State.setRegF_queues (s : State) (k v : Nat) : (s.setRegF k v).queues = s.queues := rfl
@[simp] theorem State.setRegF_mem (s : State) (k v : Nat) : (s.setRegF k v).mem = s.mem := rfl
@[simp] theorem State.setRegF_cbls (s : State) (k v : Nat) : (s.setRegF k v).cbls = s.cbls := rfl
@[simp] theorem State.setRegF_vcs (s : State) (k v : Nat) : (s.setRegF k v).vcs = s.vcs := rfl
@[simp] theorem State.setRegF_awls (s : State) (k v : Nat) : (s.setRegF k v).awls = s.awls := rfl
@[simp] theorem State.setRegF_ports (s : State) (k v : Nat) : (s.setRegF k v).ports = s.ports := rfl
@[simp] theorem State.setRegF_keys (s : State) (k v : Nat) : (s.setRegF k v).keys = s.keys := rfl
@[simp] theorem State.setRegF_ownFlt (s : State) (k v : Nat) : (s.setRegF k v).ownFlt = s.ownFlt := rfl
@[simp] theorem State.setRegF_routed (s : State) (k v : Nat) : (s.setRegF k v).routed = s.routed := rfl
@[simp] theorem State.setRegF_strs (s : State) (k v : Nat) : (s.setRegF k v).strs = s.strs := rfl
@[simp] theorem State.setRegF_twn (s : State) (k v : Nat) : (s.setRegF k v).twn = s.twn := rfl
@[simp] theorem State.setRegF_clk (s : State) (k v : Nat) : (s.setRegF k v).clk = s.clk := rfl
@[simp] theorem State.setRegF_tod (s : State) (k v : Nat) : (s.setRegF k v).tod = s.tod := rfl
@[simp] theorem State.setRegF_nextFx (s : State) (k v : Nat) : (s.setRegF k v).nextFx = s.nextFx := rfl
@[simp] theorem State.setRegF_srPend (s : State) (k v : Nat) : (s.setRegF k v).srPend = s.srPend := rfl
@[simp] theorem State.setRegF_jtag (s : State) (k v : Nat) : (s.setRegF k v).jtag = s.jtag := rfl
@[simp] theorem State.setRegF_once (s : State) (k v : Nat) : (s.setRegF k v).once = s.once := rfl
@[simp] theorem State.setRegF_issue (s : State) (k v : Nat) : (s.setRegF k v).issue = s.issue := rfl
@[simp] theorem State.setRegF_lastTen (s : State) (k v : Nat) : (s.setRegF k v).lastTen = s.lastTen := rfl
@[simp] theorem State.setRegF_cc (s : State) (k v : Nat) : (s.setRegF k v).cc = s.cc := rfl

/-- What is read back after the write of a register word. -/
@[simp] theorem State.setRegF_regF' (s : State) (k j v : Nat) : (s.setRegF k v).regF' j = if k = j then v else s.regF' j :=
  mget_mset _ _ _ _ _

/-! ### setTw -/

@[simp] theorem State.setTw_pending (s : State) (sel i w v : Nat) : (s.setTw sel i w v).pending = s.pending := rfl
@[simp] theorem State.setTw_freeCtr (s : State) (sel i w v : Nat) : (s.setTw sel i w v).freeCtr = s.freeCtr := rfl
@[simp] theorem State.setTw_now (s : State) (sel i w v : Nat) : (s.setTw sel i w v).now = s.now := rfl
@[simp] theorem State.setTw_ccnt (s : State) (sel i w v : Nat) : (s.setTw sel i w v).ccnt = s.ccnt := rfl
@[simp] theorem State.setTw_power (s : State) (sel i w v : Nat) : (s.setTw sel i w v).power = s.power := rfl
@[simp] theorem State.setTw_regs (s : State) (sel i w v : Nat) : (s.setTw sel i w v).regs = s.regs := rfl
@[simp] theorem State.setTw_regsF (s : State) (sel i w v : Nat) : (s.setTw sel i w v).regsF = s.regsF := rfl
@[simp] theorem State.setTw_latch (s : State) (sel i w v : Nat) : (s.setTw sel i w v).latch = s.latch := rfl
@[simp] theorem State.setTw_tabF (s : State) (sel i w v : Nat) : (s.setTw sel i w v).tabF = s.tabF := rfl
@[simp] theorem State.setTw_epc (s : State) (sel i w v : Nat) : (s.setTw sel i w v).epc = s.epc := rfl
@[simp] theorem State.setTw_flt (s : State) (sel i w v : Nat) : (s.setTw sel i w v).flt = s.flt := rfl
@[simp] theorem State.setTw_trc (s : State) (sel i w v : Nat) : (s.setTw sel i w v).trc = s.trc := rfl
@[simp] theorem State.setTw_units (s : State) (sel i w v : Nat) : (s.setTw sel i w v).units = s.units := rfl
@[simp] theorem State.setTw_msp (s : State) (sel i w v : Nat) : (s.setTw sel i w v).msp = s.msp := rfl
@[simp] theorem State.setTw_tacks (s : State) (sel i w v : Nat) : (s.setTw sel i w v).tacks = s.tacks := rfl
@[simp] theorem State.setTw_tackUpd (s : State) (sel i w v : Nat) : (s.setTw sel i w v).tackUpd = s.tackUpd := rfl
@[simp] theorem State.setTw_tens (s : State) (sel i w v : Nat) : (s.setTw sel i w v).tens = s.tens := rfl
@[simp] theorem State.setTw_wins (s : State) (sel i w v : Nat) : (s.setTw sel i w v).wins = s.wins := rfl
@[simp] theorem State.setTw_queues (s : State) (sel i w v : Nat) : (s.setTw sel i w v).queues = s.queues := rfl
@[simp] theorem State.setTw_mem (s : State) (sel i w v : Nat) : (s.setTw sel i w v).mem = s.mem := rfl
@[simp] theorem State.setTw_cbls (s : State) (sel i w v : Nat) : (s.setTw sel i w v).cbls = s.cbls := rfl
@[simp] theorem State.setTw_vcs (s : State) (sel i w v : Nat) : (s.setTw sel i w v).vcs = s.vcs := rfl
@[simp] theorem State.setTw_awls (s : State) (sel i w v : Nat) : (s.setTw sel i w v).awls = s.awls := rfl
@[simp] theorem State.setTw_ports (s : State) (sel i w v : Nat) : (s.setTw sel i w v).ports = s.ports := rfl
@[simp] theorem State.setTw_keys (s : State) (sel i w v : Nat) : (s.setTw sel i w v).keys = s.keys := rfl
@[simp] theorem State.setTw_ownFlt (s : State) (sel i w v : Nat) : (s.setTw sel i w v).ownFlt = s.ownFlt := rfl
@[simp] theorem State.setTw_routed (s : State) (sel i w v : Nat) : (s.setTw sel i w v).routed = s.routed := rfl
@[simp] theorem State.setTw_strs (s : State) (sel i w v : Nat) : (s.setTw sel i w v).strs = s.strs := rfl
@[simp] theorem State.setTw_twn (s : State) (sel i w v : Nat) : (s.setTw sel i w v).twn = s.twn := rfl
@[simp] theorem State.setTw_clk (s : State) (sel i w v : Nat) : (s.setTw sel i w v).clk = s.clk := rfl
@[simp] theorem State.setTw_tod (s : State) (sel i w v : Nat) : (s.setTw sel i w v).tod = s.tod := rfl
@[simp] theorem State.setTw_nextFx (s : State) (sel i w v : Nat) : (s.setTw sel i w v).nextFx = s.nextFx := rfl
@[simp] theorem State.setTw_srPend (s : State) (sel i w v : Nat) : (s.setTw sel i w v).srPend = s.srPend := rfl
@[simp] theorem State.setTw_jtag (s : State) (sel i w v : Nat) : (s.setTw sel i w v).jtag = s.jtag := rfl
@[simp] theorem State.setTw_once (s : State) (sel i w v : Nat) : (s.setTw sel i w v).once = s.once := rfl
@[simp] theorem State.setTw_issue (s : State) (sel i w v : Nat) : (s.setTw sel i w v).issue = s.issue := rfl
@[simp] theorem State.setTw_lastTen (s : State) (sel i w v : Nat) : (s.setTw sel i w v).lastTen = s.lastTen := rfl
@[simp] theorem State.setTw_cc (s : State) (sel i w v : Nat) : (s.setTw sel i w v).cc = s.cc := rfl

/-- What is read back after the write of a table word. -/
theorem State.setTw_tw (s : State) (sel i w sel' i' w' v : Nat) :
    (s.setTw sel i w v).tw sel' i' w' = if tabKey sel i w = tabKey sel' i' w' then v else s.tw sel' i' w' :=
  mget_mset _ _ _ _ _

/-! ### bump -/

@[simp] theorem State.bump_pending (s : State) (k n : Nat) : (s.bump k n).pending = s.pending := rfl
@[simp] theorem State.bump_freeCtr (s : State) (k n : Nat) : (s.bump k n).freeCtr = s.freeCtr := rfl
@[simp] theorem State.bump_now (s : State) (k n : Nat) : (s.bump k n).now = s.now := rfl
@[simp] theorem State.bump_ccnt (s : State) (k n : Nat) : (s.bump k n).ccnt = s.ccnt := rfl
@[simp] theorem State.bump_power (s : State) (k n : Nat) : (s.bump k n).power = s.power := rfl
@[simp] theorem State.bump_regsF (s : State) (k n : Nat) : (s.bump k n).regsF = s.regsF := rfl
@[simp] theorem State.bump_latch (s : State) (k n : Nat) : (s.bump k n).latch = s.latch := rfl
@[simp] theorem State.bump_tab (s : State) (k n : Nat) : (s.bump k n).tab = s.tab := rfl
@[simp] theorem State.bump_tabF (s : State) (k n : Nat) : (s.bump k n).tabF = s.tabF := rfl
@[simp] theorem State.bump_epc (s : State) (k n : Nat) : (s.bump k n).epc = s.epc := rfl
@[simp] theorem State.bump_flt (s : State) (k n : Nat) : (s.bump k n).flt = s.flt := rfl
@[simp] theorem State.bump_trc (s : State) (k n : Nat) : (s.bump k n).trc = s.trc := rfl
@[simp] theorem State.bump_units (s : State) (k n : Nat) : (s.bump k n).units = s.units := rfl
@[simp] theorem State.bump_msp (s : State) (k n : Nat) : (s.bump k n).msp = s.msp := rfl
@[simp] theorem State.bump_tacks (s : State) (k n : Nat) : (s.bump k n).tacks = s.tacks := rfl
@[simp] theorem State.bump_tackUpd (s : State) (k n : Nat) : (s.bump k n).tackUpd = s.tackUpd := rfl
@[simp] theorem State.bump_tens (s : State) (k n : Nat) : (s.bump k n).tens = s.tens := rfl
@[simp] theorem State.bump_wins (s : State) (k n : Nat) : (s.bump k n).wins = s.wins := rfl
@[simp] theorem State.bump_queues (s : State) (k n : Nat) : (s.bump k n).queues = s.queues := rfl
@[simp] theorem State.bump_mem (s : State) (k n : Nat) : (s.bump k n).mem = s.mem := rfl
@[simp] theorem State.bump_cbls (s : State) (k n : Nat) : (s.bump k n).cbls = s.cbls := rfl
@[simp] theorem State.bump_vcs (s : State) (k n : Nat) : (s.bump k n).vcs = s.vcs := rfl
@[simp] theorem State.bump_awls (s : State) (k n : Nat) : (s.bump k n).awls = s.awls := rfl
@[simp] theorem State.bump_ports (s : State) (k n : Nat) : (s.bump k n).ports = s.ports := rfl
@[simp] theorem State.bump_keys (s : State) (k n : Nat) : (s.bump k n).keys = s.keys := rfl
@[simp] theorem State.bump_ownFlt (s : State) (k n : Nat) : (s.bump k n).ownFlt = s.ownFlt := rfl
@[simp] theorem State.bump_routed (s : State) (k n : Nat) : (s.bump k n).routed = s.routed := rfl
@[simp] theorem State.bump_strs (s : State) (k n : Nat) : (s.bump k n).strs = s.strs := rfl
@[simp] theorem State.bump_twn (s : State) (k n : Nat) : (s.bump k n).twn = s.twn := rfl
@[simp] theorem State.bump_clk (s : State) (k n : Nat) : (s.bump k n).clk = s.clk := rfl
@[simp] theorem State.bump_tod (s : State) (k n : Nat) : (s.bump k n).tod = s.tod := rfl
@[simp] theorem State.bump_nextFx (s : State) (k n : Nat) : (s.bump k n).nextFx = s.nextFx := rfl
@[simp] theorem State.bump_srPend (s : State) (k n : Nat) : (s.bump k n).srPend = s.srPend := rfl
@[simp] theorem State.bump_jtag (s : State) (k n : Nat) : (s.bump k n).jtag = s.jtag := rfl
@[simp] theorem State.bump_once (s : State) (k n : Nat) : (s.bump k n).once = s.once := rfl
@[simp] theorem State.bump_issue (s : State) (k n : Nat) : (s.bump k n).issue = s.issue := rfl
@[simp] theorem State.bump_lastTen (s : State) (k n : Nat) : (s.bump k n).lastTen = s.lastTen := rfl

/-! ### setBit -/

@[simp] theorem State.setBit_pending (s : State) (k i : Nat) : (s.setBit k i).pending = s.pending := rfl
@[simp] theorem State.setBit_freeCtr (s : State) (k i : Nat) : (s.setBit k i).freeCtr = s.freeCtr := rfl
@[simp] theorem State.setBit_now (s : State) (k i : Nat) : (s.setBit k i).now = s.now := rfl
@[simp] theorem State.setBit_ccnt (s : State) (k i : Nat) : (s.setBit k i).ccnt = s.ccnt := rfl
@[simp] theorem State.setBit_power (s : State) (k i : Nat) : (s.setBit k i).power = s.power := rfl
@[simp] theorem State.setBit_regsF (s : State) (k i : Nat) : (s.setBit k i).regsF = s.regsF := rfl
@[simp] theorem State.setBit_latch (s : State) (k i : Nat) : (s.setBit k i).latch = s.latch := rfl
@[simp] theorem State.setBit_tab (s : State) (k i : Nat) : (s.setBit k i).tab = s.tab := rfl
@[simp] theorem State.setBit_tabF (s : State) (k i : Nat) : (s.setBit k i).tabF = s.tabF := rfl
@[simp] theorem State.setBit_epc (s : State) (k i : Nat) : (s.setBit k i).epc = s.epc := rfl
@[simp] theorem State.setBit_flt (s : State) (k i : Nat) : (s.setBit k i).flt = s.flt := rfl
@[simp] theorem State.setBit_trc (s : State) (k i : Nat) : (s.setBit k i).trc = s.trc := rfl
@[simp] theorem State.setBit_units (s : State) (k i : Nat) : (s.setBit k i).units = s.units := rfl
@[simp] theorem State.setBit_msp (s : State) (k i : Nat) : (s.setBit k i).msp = s.msp := rfl
@[simp] theorem State.setBit_tacks (s : State) (k i : Nat) : (s.setBit k i).tacks = s.tacks := rfl
@[simp] theorem State.setBit_tackUpd (s : State) (k i : Nat) : (s.setBit k i).tackUpd = s.tackUpd := rfl
@[simp] theorem State.setBit_tens (s : State) (k i : Nat) : (s.setBit k i).tens = s.tens := rfl
@[simp] theorem State.setBit_wins (s : State) (k i : Nat) : (s.setBit k i).wins = s.wins := rfl
@[simp] theorem State.setBit_queues (s : State) (k i : Nat) : (s.setBit k i).queues = s.queues := rfl
@[simp] theorem State.setBit_mem (s : State) (k i : Nat) : (s.setBit k i).mem = s.mem := rfl
@[simp] theorem State.setBit_cbls (s : State) (k i : Nat) : (s.setBit k i).cbls = s.cbls := rfl
@[simp] theorem State.setBit_vcs (s : State) (k i : Nat) : (s.setBit k i).vcs = s.vcs := rfl
@[simp] theorem State.setBit_awls (s : State) (k i : Nat) : (s.setBit k i).awls = s.awls := rfl
@[simp] theorem State.setBit_ports (s : State) (k i : Nat) : (s.setBit k i).ports = s.ports := rfl
@[simp] theorem State.setBit_keys (s : State) (k i : Nat) : (s.setBit k i).keys = s.keys := rfl
@[simp] theorem State.setBit_ownFlt (s : State) (k i : Nat) : (s.setBit k i).ownFlt = s.ownFlt := rfl
@[simp] theorem State.setBit_routed (s : State) (k i : Nat) : (s.setBit k i).routed = s.routed := rfl
@[simp] theorem State.setBit_strs (s : State) (k i : Nat) : (s.setBit k i).strs = s.strs := rfl
@[simp] theorem State.setBit_twn (s : State) (k i : Nat) : (s.setBit k i).twn = s.twn := rfl
@[simp] theorem State.setBit_clk (s : State) (k i : Nat) : (s.setBit k i).clk = s.clk := rfl
@[simp] theorem State.setBit_tod (s : State) (k i : Nat) : (s.setBit k i).tod = s.tod := rfl
@[simp] theorem State.setBit_nextFx (s : State) (k i : Nat) : (s.setBit k i).nextFx = s.nextFx := rfl
@[simp] theorem State.setBit_srPend (s : State) (k i : Nat) : (s.setBit k i).srPend = s.srPend := rfl
@[simp] theorem State.setBit_jtag (s : State) (k i : Nat) : (s.setBit k i).jtag = s.jtag := rfl
@[simp] theorem State.setBit_once (s : State) (k i : Nat) : (s.setBit k i).once = s.once := rfl
@[simp] theorem State.setBit_issue (s : State) (k i : Nat) : (s.setBit k i).issue = s.issue := rfl
@[simp] theorem State.setBit_lastTen (s : State) (k i : Nat) : (s.setBit k i).lastTen = s.lastTen := rfl

/-! ### setCc -/

@[simp] theorem State.setCc_pending (s : State) (c : CcSt) : (s.setCc c).pending = s.pending := rfl
@[simp] theorem State.setCc_freeCtr (s : State) (c : CcSt) : (s.setCc c).freeCtr = s.freeCtr := rfl
@[simp] theorem State.setCc_now (s : State) (c : CcSt) : (s.setCc c).now = s.now := rfl
@[simp] theorem State.setCc_ccnt (s : State) (c : CcSt) : (s.setCc c).ccnt = s.ccnt := rfl
@[simp] theorem State.setCc_power (s : State) (c : CcSt) : (s.setCc c).power = s.power := rfl
@[simp] theorem State.setCc_regs (s : State) (c : CcSt) : (s.setCc c).regs = s.regs := rfl
@[simp] theorem State.setCc_regsF (s : State) (c : CcSt) : (s.setCc c).regsF = s.regsF := rfl
@[simp] theorem State.setCc_latch (s : State) (c : CcSt) : (s.setCc c).latch = s.latch := rfl
@[simp] theorem State.setCc_tab (s : State) (c : CcSt) : (s.setCc c).tab = s.tab := rfl
@[simp] theorem State.setCc_tabF (s : State) (c : CcSt) : (s.setCc c).tabF = s.tabF := rfl
@[simp] theorem State.setCc_epc (s : State) (c : CcSt) : (s.setCc c).epc = s.epc := rfl
@[simp] theorem State.setCc_flt (s : State) (c : CcSt) : (s.setCc c).flt = s.flt := rfl
@[simp] theorem State.setCc_trc (s : State) (c : CcSt) : (s.setCc c).trc = s.trc := rfl
@[simp] theorem State.setCc_units (s : State) (c : CcSt) : (s.setCc c).units = s.units := rfl
@[simp] theorem State.setCc_msp (s : State) (c : CcSt) : (s.setCc c).msp = s.msp := rfl
@[simp] theorem State.setCc_tacks (s : State) (c : CcSt) : (s.setCc c).tacks = s.tacks := rfl
@[simp] theorem State.setCc_tackUpd (s : State) (c : CcSt) : (s.setCc c).tackUpd = s.tackUpd := rfl
@[simp] theorem State.setCc_tens (s : State) (c : CcSt) : (s.setCc c).tens = s.tens := rfl
@[simp] theorem State.setCc_wins (s : State) (c : CcSt) : (s.setCc c).wins = s.wins := rfl
@[simp] theorem State.setCc_queues (s : State) (c : CcSt) : (s.setCc c).queues = s.queues := rfl
@[simp] theorem State.setCc_mem (s : State) (c : CcSt) : (s.setCc c).mem = s.mem := rfl
@[simp] theorem State.setCc_cbls (s : State) (c : CcSt) : (s.setCc c).cbls = s.cbls := rfl
@[simp] theorem State.setCc_vcs (s : State) (c : CcSt) : (s.setCc c).vcs = s.vcs := rfl
@[simp] theorem State.setCc_awls (s : State) (c : CcSt) : (s.setCc c).awls = s.awls := rfl
@[simp] theorem State.setCc_ports (s : State) (c : CcSt) : (s.setCc c).ports = s.ports := rfl
@[simp] theorem State.setCc_keys (s : State) (c : CcSt) : (s.setCc c).keys = s.keys := rfl
@[simp] theorem State.setCc_ownFlt (s : State) (c : CcSt) : (s.setCc c).ownFlt = s.ownFlt := rfl
@[simp] theorem State.setCc_routed (s : State) (c : CcSt) : (s.setCc c).routed = s.routed := rfl
@[simp] theorem State.setCc_strs (s : State) (c : CcSt) : (s.setCc c).strs = s.strs := rfl
@[simp] theorem State.setCc_twn (s : State) (c : CcSt) : (s.setCc c).twn = s.twn := rfl
@[simp] theorem State.setCc_clk (s : State) (c : CcSt) : (s.setCc c).clk = s.clk := rfl
@[simp] theorem State.setCc_tod (s : State) (c : CcSt) : (s.setCc c).tod = s.tod := rfl
@[simp] theorem State.setCc_nextFx (s : State) (c : CcSt) : (s.setCc c).nextFx = s.nextFx := rfl
@[simp] theorem State.setCc_srPend (s : State) (c : CcSt) : (s.setCc c).srPend = s.srPend := rfl
@[simp] theorem State.setCc_jtag (s : State) (c : CcSt) : (s.setCc c).jtag = s.jtag := rfl
@[simp] theorem State.setCc_once (s : State) (c : CcSt) : (s.setCc c).once = s.once := rfl
@[simp] theorem State.setCc_issue (s : State) (c : CcSt) : (s.setCc c).issue = s.issue := rfl
@[simp] theorem State.setCc_lastTen (s : State) (c : CcSt) : (s.setCc c).lastTen = s.lastTen := rfl
@[simp] theorem State.setCc_cc (s : State) (c : CcSt) : (s.setCc c).cc = c := rfl

/-! ### tick1 -/

@[simp] theorem State.tick1_pending (s : State) : s.tick1.pending = s.pending := rfl
@[simp] theorem State.tick1_now (s : State) : s.tick1.now = s.now := rfl
@[simp] theorem State.tick1_ccnt (s : State) : s.tick1.ccnt = s.ccnt := rfl
@[simp] theorem State.tick1_power (s : State) : s.tick1.power = s.power := rfl
@[simp] theorem State.tick1_regs (s : State) : s.tick1.regs = s.regs := rfl
@[simp] theorem State.tick1_regsF (s : State) : s.tick1.regsF = s.regsF := rfl
@[simp] theorem State.tick1_latch (s : State) : s.tick1.latch = s.latch := rfl
@[simp] theorem State.tick1_tab (s : State) : s.tick1.tab = s.tab := rfl
@[simp] theorem State.tick1_tabF (s : State) : s.tick1.tabF = s.tabF := rfl
@[simp] theorem State.tick1_epc (s : State) : s.tick1.epc = s.epc := rfl
@[simp] theorem State.tick1_flt (s : State) : s.tick1.flt = s.flt := rfl
@[simp] theorem State.tick1_trc (s : State) : s.tick1.trc = s.trc := rfl
@[simp] theorem State.tick1_units (s : State) : s.tick1.units = s.units := rfl
@[simp] theorem State.tick1_msp (s : State) : s.tick1.msp = s.msp := rfl
@[simp] theorem State.tick1_tacks (s : State) : s.tick1.tacks = s.tacks := rfl
@[simp] theorem State.tick1_tackUpd (s : State) : s.tick1.tackUpd = s.tackUpd := rfl
@[simp] theorem State.tick1_tens (s : State) : s.tick1.tens = s.tens := rfl
@[simp] theorem State.tick1_wins (s : State) : s.tick1.wins = s.wins := rfl
@[simp] theorem State.tick1_queues (s : State) : s.tick1.queues = s.queues := rfl
@[simp] theorem State.tick1_mem (s : State) : s.tick1.mem = s.mem := rfl
@[simp] theorem State.tick1_cbls (s : State) : s.tick1.cbls = s.cbls := rfl
@[simp] theorem State.tick1_vcs (s : State) : s.tick1.vcs = s.vcs := rfl
@[simp] theorem State.tick1_awls (s : State) : s.tick1.awls = s.awls := rfl
@[simp] theorem State.tick1_ports (s : State) : s.tick1.ports = s.ports := rfl
@[simp] theorem State.tick1_keys (s : State) : s.tick1.keys = s.keys := rfl
@[simp] theorem State.tick1_ownFlt (s : State) : s.tick1.ownFlt = s.ownFlt := rfl
@[simp] theorem State.tick1_routed (s : State) : s.tick1.routed = s.routed := rfl
@[simp] theorem State.tick1_strs (s : State) : s.tick1.strs = s.strs := rfl
@[simp] theorem State.tick1_twn (s : State) : s.tick1.twn = s.twn := rfl
@[simp] theorem State.tick1_clk (s : State) : s.tick1.clk = s.clk := rfl
@[simp] theorem State.tick1_tod (s : State) : s.tick1.tod = s.tod := rfl
@[simp] theorem State.tick1_nextFx (s : State) : s.tick1.nextFx = s.nextFx := rfl
@[simp] theorem State.tick1_srPend (s : State) : s.tick1.srPend = s.srPend := rfl
@[simp] theorem State.tick1_jtag (s : State) : s.tick1.jtag = s.jtag := rfl
@[simp] theorem State.tick1_once (s : State) : s.tick1.once = s.once := rfl
@[simp] theorem State.tick1_issue (s : State) : s.tick1.issue = s.issue := rfl
@[simp] theorem State.tick1_lastTen (s : State) : s.tick1.lastTen = s.lastTen := rfl
@[simp] theorem State.tick1_cc (s : State) : s.tick1.cc = s.cc := rfl

end Sys2Proof.Machine
end

