-- ==== Sys2Proof/Laws/Memory.lean ====
section
/-! SUPPORT. Memory: what a read, a write and a report may change, and that every memory operation keeps the canonical
form. -/

namespace Sys2Proof.Machine

/-- Everything a report, an error log or a read may change is named here: registers, fault records on their way, trace
records, counts, error states, accepted accesses and what is noted of the present cc. Every byte, and every other part of the state, is as before. -/
def Reports (s t : State) : Prop :=
  t = { s with regs := t.regs, flt := t.flt, trc := t.trc, tens := t.tens, queues := t.queues, cbls := t.cbls, once := t.once
               freeCtr := t.freeCtr, mem := t.mem, cc := t.cc } ∧ t.mem.hbm = s.mem.hbm ∧ t.mem.sram = s.mem.sram

theorem Reports.refl (s : State) : Reports s s := ⟨rfl, rfl, rfl⟩

theorem Reports.trans {s t u : State} (h : Reports s t) (k : Reports t u) : Reports s u := by
  obtain ⟨h1, h2, h3⟩ := h
  obtain ⟨k1, k2, k3⟩ := k
  refine ⟨?_, k2.trans h2, k3.trans h3⟩
  rw [h1] at k1
  exact k1

theorem Reports.epc {s t : State} (h : Reports s t) : t.epc = s.epc := by rw [h.1]
theorem Reports.tod {s t : State} (h : Reports s t) : t.tod = s.tod := by rw [h.1]
theorem Reports.clk {s t : State} (h : Reports s t) : t.clk = s.clk := by rw [h.1]
theorem Reports.power {s t : State} (h : Reports s t) : t.power = s.power := by rw [h.1]
theorem Reports.pending {s t : State} (h : Reports s t) : t.pending = s.pending := by rw [h.1]
theorem Reports.ports {s t : State} (h : Reports s t) : t.ports = s.ports := by rw [h.1]
theorem Reports.tacks {s t : State} (h : Reports s t) : t.tacks = s.tacks := by rw [h.1]
theorem Reports.vcs {s t : State} (h : Reports s t) : t.vcs = s.vcs := by rw [h.1]
theorem Reports.units {s t : State} (h : Reports s t) : t.units = s.units := by rw [h.1]
theorem Reports.tabF {s t : State} (h : Reports s t) : t.tabF = s.tabF := by rw [h.1]

theorem setReg_reports (s : State) (k v : Nat) : Reports s (s.setReg k v) := ⟨rfl, rfl, rfl⟩
theorem bump_reports (s : State) (k n : Nat) : Reports s (s.bump k n) := ⟨rfl, rfl, rfl⟩
theorem setCc_reports (s : State) (c : CcSt) : Reports s (s.setCc c) := ⟨rfl, rfl, rfl⟩
theorem touch_reports (s : State) (w : Nat) : Reports s (touch s w) := by
  unfold touch
  split
  · exact Reports.refl s
  · exact setCc_reports _ _
theorem setBit_reports (s : State) (k i : Nat) : Reports s (s.setBit k i) := ⟨rfl, rfl, rfl⟩
theorem modTen_reports (s : State) (k : Nat) (f : TenSt → TenSt) : Reports s (s.modTen k f) := ⟨rfl, rfl, rfl⟩
theorem modQ_reports (s : State) (k : Nat) (f : QueueSt → QueueSt) : Reports s (s.modQ k f) := ⟨rfl, rfl, rfl⟩
theorem modFlight_reports (s : State) (q n : Nat) (f : Flight → Flight) : Reports s (s.modFlight q n f) := ⟨rfl, rfl, rfl⟩
theorem setCbl_reports (s : State) (k : Nat) (c : CblSt) : Reports s (s.setCbl k c) := ⟨rfl, rfl, rfl⟩
theorem setLineErr_reports (s : State) (l : Nat) (e : Err) : Reports s (s.setLineErr l e) := ⟨rfl, rfl, rfl⟩
theorem setWord_reports (s : State) (w : Nat) (v : Bool) (e : Err) : Reports s (s.setWord w v e) := ⟨rfl, rfl, rfl⟩
theorem addAcc_reports (s : State) (x : Acc) : Reports s (addAcc s x) := ⟨rfl, rfl, rfl⟩
theorem invalidate_reports (s : State) (l : Nat) : Reports s (invalidate s l) := ⟨rfl, rfl, rfl⟩
theorem clearValid_reports (s : State) (a n : Nat) : Reports s (clearValid s a n) := ⟨rfl, rfl, rfl⟩
theorem chainFault_reports (s : State) (q c : Nat) : Reports s (chainFault s q c) := ⟨rfl, rfl, rfl⟩

theorem traceHold_reports (s : State) (r : Nat × Nat) : Reports s (traceHold s r) := ⟨rfl, rfl, rfl⟩

theorem traceAdd_reports (s : State) (a b t d e : Nat) : Reports s (traceAdd s a b t d e) := by
  unfold traceAdd
  split
  · exact Reports.refl s
  · dsimp only
    split
    · exact traceHold_reports _ _
    · exact (traceHold_reports _ _).trans ((bump_reports _ _ _).trans (setBit_reports _ _ _))

theorem traceTen_reports (s : State) (a b t d e : Nat) : Reports s (traceTen s a b t d e) := by
  unfold traceTen
  repeat' first | exact Reports.refl s | exact traceAdd_reports _ _ _ _ _ _ | split

/-- R395, R398: a fault record changes only what reports change. -/
theorem recordFault_reports (s : State) (r : FaultRec) : Reports s (recordFault s r) := by
  unfold recordFault
  dsimp only
  split
  · exact Reports.trans (t := { s with flt := { s.flt with due := faultInsert (s.now + 4, { r with time := s.ccnt, epoch := s.epc.count }) s.flt.due } })
      ⟨rfl, rfl, rfl⟩ ((modTen_reports _ _ _).trans (traceTen_reports _ _ _ _ _ _))
  · exact ⟨rfl, rfl, rfl⟩

theorem flightFault_reports (s : State) (q n c u l d : Nat) : Reports s (flightFault s q n c u l d) := by
  unfold flightFault
  split
  · exact Reports.refl s
  · exact (recordFault_reports _ _).trans ((modFlight_reports _ _ _ _).trans (chainFault_reports _ _ _))

theorem flightOnce_reports (s : State) (q n c u l d : Nat) : Reports s (flightOnce s q n c u l d) := by
  unfold flightOnce
  repeat' first | exact Reports.refl s | exact flightFault_reports _ _ _ _ _ _ _ | split

theorem once_reports (s : State) (o : List Nat) : Reports s { s with once := o } := ⟨rfl, rfl, rfl⟩

/-- R239, R240: a record written once for its requester changes only what reports change. -/
theorem agentOnce_reports (s : State) (a : Agent) (c d : Nat) : Reports s (agentOnce s a c d) := by
  unfold agentOnce
  split
  · exact flightOnce_reports _ _ _ _ _ _ _
  · simp only
    split
    · exact Reports.refl s
    · split
      · exact (setCbl_reports _ _ _).trans (recordFault_reports _ _)
      · exact (setCbl_reports _ _ _).trans ((recordFault_reports _ _).trans ((modFlight_reports _ _ _ _).trans (chainFault_reports _ _ _)))
  · split
    · exact Reports.refl s
    · exact (once_reports _ _).trans (recordFault_reports _ _)
  · split
    · exact Reports.refl s
    · exact (once_reports _ _).trans (recordFault_reports _ _)
  · split
    · exact Reports.refl s
    · exact (once_reports _ _).trans ((recordFault_reports _ _).trans (chainFault_reports _ _ _))
  all_goals exact recordFault_reports _ _

theorem tick1_reports (s : State) : Reports s s.tick1 := ⟨rfl, rfl, rfl⟩

/-- R247: the error log is registers and one free value. -/
theorem logUE_reports (s : State) (a : Agent) (k u d : Nat) : Reports s (logUE s a k u d) := by
  unfold logUE
  split
  · exact setBit_reports _ _ _
  · exact (tick1_reports _).trans ((setReg_reports _ _ _).trans ((setBit_reports _ _ _).trans ((setReg_reports _ _ _).trans
      ((setReg_reports _ _ _).trans (setReg_reports _ _ _)))))

theorem rewrite_reports (s : State) (a : Agent) (l : Nat) (e : Err) : Reports s (rewrite s a l e) := by
  unfold rewrite
  split
  · exact Reports.refl s
  · exact addAcc_reports _ _

/-- R239: a read of a line changes no byte. -/
theorem readLine_reports (s : State) (a : Agent) (l : Nat) : Reports s (readLine s a l).2.2 := by
  unfold readLine
  simp only
  split
  · exact agentOnce_reports _ _ _ _
  · split
    · exact Reports.refl s
    · exact (bump_reports _ _ _).trans (rewrite_reports _ _ _ _)
    · exact (bump_reports _ _ _).trans ((logUE_reports _ _ _ _ _).trans ((agentOnce_reports _ _ _ _).trans (rewrite_reports _ _ _ _)))
    · exact bump_reports _ _ _

/-- What holds of every step of a fold over triples holds of its end. -/
theorem foldl_reports {α β : Type} (f : β → α → β) (st : β → State) (hf : ∀ b x, Reports (st b) (st (f b x))) :
    ∀ (l : List α) (b : β), Reports (st b) (st (l.foldl f b))
  | [], _ => Reports.refl _
  | x :: l, b => (hf b x).trans (foldl_reports f st hf l (f b x))

/-- R239: a read of HBM bytes changes no byte. -/
theorem readPhys_reports (s : State) (a : Agent) (pa n : Nat) : Reports s (readPhys s a pa n).2.2 := by
  unfold readPhys
  refine foldl_reports (β := List Byte × Bool × State) _ (fun b => b.2.2) (fun b i => ?_) _ ([], false, s)
  exact readLine_reports b.2.2 a _

theorem foldl_setWord_reports (g : Nat) (e : Err) : ∀ (l : List Nat) (s : State),
    Reports s (l.foldl (fun s i => s.setWord (g * 32 + i) true e) s)
  | [], s => Reports.refl s
  | x :: l, s => (setWord_reports s (g * 32 + x) true e).trans (foldl_setWord_reports g e l _)

theorem poisonGroup_reports (s : State) (g : Nat) : Reports s (poisonGroup s g) := by
  unfold poisonGroup
  exact Reports.trans (t := { s with
      mem := { s.mem with badPar := mset (fun _ => false) s.mem.badPar g false }
      cc := { s.cc with sram := s.cc.sram.map fun p =>
        if p.cell / 32 = g then { p with err := .poison, valid := true } else p } }) ⟨rfl, rfl, rfl⟩ (foldl_setWord_reports g .poison _ _)

theorem parityCheck_reports (s : State) (a : Agent) (w : Nat) : Reports s (parityCheck s a w).1 := by
  unfold parityCheck
  split
  · have h := (bump_reports s 0x0494 1).trans (logUE_reports (s.bump 0x0494 1) { a with unit := sramUnit w } (sramPlace w).1
      (sramPlace w).2.1 (sramPlace w).2.2)
    dsimp only
    split
    · exact h.trans (poisonGroup_reports _ _)
    · exact h.trans ((agentOnce_reports _ _ _ _).trans (poisonGroup_reports _ _))
  · exact Reports.refl s

/-- R233, R239: a read of a CBUF or local word changes no byte. -/
theorem readWord_reports (s : State) (a : Agent) (w : Nat) : Reports s (readWord s a w).2.2 := by
  unfold readWord
  simp only
  split
  · exact agentOnce_reports _ _ _ _
  · refine (touch_reports s w).trans ?_
    split
    · exact parityCheck_reports _ _ _
    · split
      · exact Reports.refl _
      · split
        · exact Reports.refl _
        · exact bump_reports _ _ _
        · have h := (bump_reports (touch s w) 0x0494 1).trans (logUE_reports ((touch s w).bump 0x0494 1)
            { a with unit := sramUnit w } (sramPlace w).1 (sramPlace w).2.1 (sramPlace w).2.2)
          dsimp only
          split
          · exact h
          · exact h.trans (agentOnce_reports _ _ _ _)
        · exact bump_reports _ _ _

/-- R233, R239: a read of CBUF or local bytes changes no byte. -/
theorem readSram_reports (s : State) (a : Agent) (addr n : Nat) : Reports s (readSram s a addr n).2.2 := by
  unfold readSram
  refine foldl_reports (β := List Byte × Bool × State) _ (fun b => b.2.2) (fun b i => ?_) _ ([], false, s)
  exact readWord_reports b.2.2 a _

/-! ### Writes -/

/-- What a write of HBM may change: what reports change, and the bytes of the lines `p` holds of. -/
def WritesHbm (p : Nat → Prop) (s t : State) : Prop :=
  ∃ m, Reports { s with mem := m } t ∧ m.sram = s.mem.sram ∧ (mwf zeroByte s.mem.hbm = true → mwf zeroByte m.hbm = true) ∧
    ∀ b, ¬ p (b / 64) → mget zeroByte m.hbm b = mget zeroByte s.mem.hbm b

theorem WritesHbm.of_reports {p : Nat → Prop} {s t : State} (h : Reports s t) : WritesHbm p s t :=
  ⟨s.mem, h, rfl, fun h => h, fun _ _ => rfl⟩

theorem Reports.sub {s t : State} (m : MemSt) (h : Reports s t) (hm : m.hbm = t.mem.hbm) (hs : m.sram = t.mem.sram) :
    Reports s { t with mem := m } := by
  obtain ⟨h1, h2, h3⟩ := h
  refine ⟨?_, hm.trans h2, hs.trans h3⟩
  rw [h1]

theorem WritesHbm.trans {p : Nat → Prop} {s t u : State} (h : WritesHbm p s t) (k : WritesHbm p t u) : WritesHbm p s u := by
  obtain ⟨m, ⟨h1, h2, h3⟩, hs, hw, hb⟩ := h
  obtain ⟨n, ⟨k1, k2, k3⟩, ks, kw, kb⟩ := k
  refine ⟨n, ⟨?_, k2, k3⟩, ?_, ?_, ?_⟩
  · rw [h1] at k1; exact k1
  · rw [ks, h3]; exact hs
  · intro w; exact kw (by rw [h2]; exact hw w)
  · intro b hp; rw [kb b hp, h2]; exact hb b hp

theorem bytesAt_length (m : List (Nat × Byte)) (a n : Nat) : (bytesAt m a n).length = n := by simp [bytesAt]

theorem putBytes_outside {m : List (Nat × Byte)} {l n b : Nat} {bs : List Byte} (hn : bs.length ≤ n) (hb : b / n ≠ l) (_hp : 0 < n) :
    mget zeroByte (putBytes m (l * n) bs) b = mget zeroByte m b := by
  rw [mget_putBytes, if_neg]
  rintro ⟨h1, h2⟩
  exact hb (Nat.div_eq_of_lt_le h1 (by rw [Nat.succ_mul]; omega))

/-- A line put into HBM with its error state. -/
theorem setLine_writes (s : State) (l : Nat) (c : Cell) : WritesHbm (· = l) s (s.setLine l c) :=
  ⟨(s.setLine l c).mem, ⟨rfl, rfl, rfl⟩, rfl, fun h => mwf_putBytes _ _ h, fun b hb =>
    putBytes_outside (n := 64) (by simp) hb (by decide)⟩

theorem placeLine_writes (s : State) (p : CellWr) (c : Cell) : WritesHbm (· = p.cell) s (placeLine s p c) :=
  (setLine_writes _ _ _).trans (WritesHbm.of_reports (setCc_reports _ _))

/-- R240, R241: everything a write of one line can do: its line's bytes, and reports. -/
theorem writeLine_writes (s : State) (a : Agent) (l : Nat) (new : List (Option Byte)) (poison : Bool) (mask : List Byte) :
    WritesHbm (· = l) s (writeLine s a l new poison mask) := by
  have pre : ∀ t : State, Reports s t → ∀ u, WritesHbm (· = l) t u → WritesHbm (· = l) s u :=
    fun t h u k => (WritesHbm.of_reports h).trans k
  have inv : Reports s (addAcc (invalidate s l) { hc := stackOf (l * 64), line := l, write := true, who := agentWho a }) :=
    (invalidate_reports _ _).trans (addAcc_reports _ _)
  unfold writeLine
  simp only
  split
  · exact WritesHbm.of_reports (agentOnce_reports _ _ _ _)
  · refine pre _ inv _ ?_
    refine WritesHbm.trans (WritesHbm.of_reports ?_) (placeLine_writes _ _ _)
    have last : ∀ (c : Bool) (t u : State), Reports t u → Reports t (if c = true then u.bump 0x04B0 1 else u) := by
      intro c t u h
      cases c
      · exact h
      · exact h.trans (bump_reports _ _ _)
    have lastP : ∀ (c : Prop) [Decidable c] (t u : State), Reports t u → Reports t (if c then u.bump 0x04B0 1 else u) := by
      intro c _ t u h
      by_cases hc : c
      · rw [if_pos hc]; exact h.trans (bump_reports _ _ _)
      · rw [if_neg hc]; exact h
    apply lastP
    split
    · exact Reports.refl _
    · split
      · exact Reports.refl _
      · exact bump_reports _ _ _
      · exact (bump_reports _ _ _).trans ((bump_reports _ _ _).trans ((logUE_reports _ _ _ _ _).trans (agentOnce_reports _ _ _ _)))
      · exact (bump_reports _ _ _).trans (agentOnce_reports _ _ _ _)

theorem WritesHbm.mono {p q : Nat → Prop} {s t : State} (h : WritesHbm p s t) (hpq : ∀ l, p l → q l) : WritesHbm q s t := by
  obtain ⟨m, r, hs, hw, hb⟩ := h
  exact ⟨m, r, hs, hw, fun b hq => hb b fun hp => hq (hpq _ hp)⟩

/-- A write of HBM bytes touches only the lines it meets. -/
theorem writePhys_writes (s : State) (a : Agent) (pa : Nat) (new : List (Option Byte)) (poison : Bool) :
    WritesHbm (fun l => pa / 64 ≤ l ∧ l < pa / 64 + (pa % 64 + new.length + 63) / 64) s (writePhys s a pa new poison) := by
  unfold writePhys
  have key : ∀ (xs : List (Nat × List (Option Byte))) (p : Nat → Prop) (s : State), (∀ x ∈ xs, p x.1) →
      WritesHbm p s (xs.foldl (fun s x => writeLine s a x.1 x.2 poison) s) := by
    intro xs p
    induction xs with
    | nil => intro s _; exact WritesHbm.of_reports (Reports.refl s)
    | cons x xs ih =>
      intro s h
      exact ((writeLine_writes s a x.1 x.2 poison []).mono (fun l hl => by subst hl; exact h x (by simp))).trans
        (ih _ fun y hy => h y (by simp [hy]))
  apply key
  intro x hx
  simp only [cut, List.mem_map, List.mem_range] at hx
  obtain ⟨i, hi, rfl⟩ := hx
  simp only
  omega

/-- What a write of CBUF or local memory may change: what reports change, and the bytes of the words `p` holds of. -/
def WritesSram (p : Nat → Prop) (s t : State) : Prop :=
  ∃ m, Reports { s with mem := m } t ∧ m.hbm = s.mem.hbm ∧ (mwf zeroByte s.mem.sram = true → mwf zeroByte m.sram = true) ∧
    ∀ b, ¬ p (b / 16) → mget zeroByte m.sram b = mget zeroByte s.mem.sram b

theorem WritesSram.of_reports {p : Nat → Prop} {s t : State} (h : Reports s t) : WritesSram p s t :=
  ⟨s.mem, h, rfl, fun h => h, fun _ _ => rfl⟩

theorem WritesSram.trans {p : Nat → Prop} {s t u : State} (h : WritesSram p s t) (k : WritesSram p t u) : WritesSram p s u := by
  obtain ⟨m, ⟨h1, h2, h3⟩, hs, hw, hb⟩ := h
  obtain ⟨n, ⟨k1, k2, k3⟩, ks, kw, kb⟩ := k
  refine ⟨n, ⟨?_, k2, k3⟩, ?_, ?_, ?_⟩
  · rw [h1] at k1; exact k1
  · rw [ks, h2]; exact hs
  · intro w; exact kw (by rw [h3]; exact hw w)
  · intro b hp; rw [kb b hp, h3]; exact hb b hp

theorem WritesSram.mono {p q : Nat → Prop} {s t : State} (h : WritesSram p s t) (hpq : ∀ l, p l → q l) : WritesSram q s t := by
  obtain ⟨m, r, hs, hw, hb⟩ := h
  exact ⟨m, r, hs, hw, fun b hq => hb b fun hp => hq (hpq _ hp)⟩

/-- A word put into CBUF or local memory with its valid bit and error state. -/
theorem putWord_writes (s : State) (w : Nat) (c : Cell) : WritesSram (· = w) s (s.putWord w c) :=
  ⟨(s.putWord w c).mem, ⟨rfl, rfl, rfl⟩, rfl, fun k => mwf_putBytes _ _ k, fun b hb =>
    putBytes_outside (n := 16) (by simp) hb (by decide)⟩

theorem placeWord_writes (s : State) (p : CellWr) (c : Cell) : WritesSram (· = p.cell) s (placeWord s p c) :=
  (putWord_writes _ _ _).trans (WritesSram.of_reports (setCc_reports _ _))

/-- R233, R240: everything a write of one word can do: its word's bytes, and reports. -/
theorem writeWord_writes (s : State) (a : Agent) (w : Nat) (new : List (Option Byte)) (poison : Bool) (mask : List Byte) :
    WritesSram (· = w) s (writeWord s a w new poison mask) := by
  have lastP : ∀ (c : Prop) [Decidable c] (t u : State), Reports t u → Reports t (if c then u.bump 0x04B0 1 else u) := by
    intro c _ t u h
    by_cases hc : c
    · rw [if_pos hc]; exact h.trans (bump_reports _ _ _)
    · rw [if_neg hc]; exact h
  unfold writeWord
  simp only
  split
  · exact WritesSram.of_reports (agentOnce_reports _ _ _ _)
  · refine (WritesSram.of_reports (touch_reports s w)).trans ?_
    split
    · refine WritesSram.trans (WritesSram.of_reports ?_) (placeWord_writes _ _ _)
      exact lastP (poison = true) _ _ (Reports.refl _)
    · refine WritesSram.trans (WritesSram.of_reports ?_) (placeWord_writes _ _ _)
      apply lastP
      have par := parityCheck_reports (touch s w) a w
      split
      · exact par.trans ((bump_reports _ _ _).trans (agentOnce_reports _ _ _ _))
      · split
        · exact par
        · split
          · exact par
          · exact par.trans (bump_reports _ _ _)
          · exact par.trans ((bump_reports _ _ _).trans ((bump_reports _ _ _).trans ((logUE_reports _ _ _ _ _).trans (agentOnce_reports _ _ _ _))))
          · exact par.trans ((bump_reports _ _ _).trans (agentOnce_reports _ _ _ _))

/-- A write of CBUF or local bytes touches only the words it meets. -/
theorem writeSram_writes (s : State) (a : Agent) (addr : Nat) (new : List (Option Byte)) (poison : Bool) :
    WritesSram (fun w => addr / 16 ≤ w ∧ w < addr / 16 + (addr % 16 + new.length + 15) / 16) s (writeSram s a addr new poison) := by
  unfold writeSram
  have key : ∀ (xs : List (Nat × List (Option Byte))) (p : Nat → Prop) (s : State), (∀ x ∈ xs, p x.1) →
      WritesSram p s (xs.foldl (fun s x => writeWord s a x.1 x.2 poison) s) := by
    intro xs p
    induction xs with
    | nil => intro s _; exact WritesSram.of_reports (Reports.refl s)
    | cons x xs ih =>
      intro s h
      exact ((writeWord_writes s a x.1 x.2 poison []).mono (fun l hl => by subst hl; exact h x (by simp))).trans
        (ih _ fun y hy => h y (by simp [hy]))
  apply key
  intro x hx
  simp only [cut, List.mem_map, List.mem_range] at hx
  obtain ⟨i, hi, rfl⟩ := hx
  simp only
  omega

/-! ### The canonical form -/

theorem Reports.wf {s t : State} (h : Reports s t) (w : Memory.wf s.mem = true) : Memory.wf t.mem = true := by
  simp only [Memory.wf, h.2.1, h.2.2] at *; exact w

theorem WritesHbm.wf {p : Nat → Prop} {s t : State} (h : WritesHbm p s t) (w : Memory.wf s.mem = true) : Memory.wf t.mem = true := by
  obtain ⟨m, ⟨_, h2, h3⟩, hs, hw, _⟩ := h
  simp only [Memory.wf, Bool.and_eq_true] at *
  rw [h2, h3]
  exact ⟨hw w.1, by rw [show ({ s with mem := m } : State).mem.sram = m.sram from rfl, hs]; exact w.2⟩

theorem WritesSram.wf {p : Nat → Prop} {s t : State} (h : WritesSram p s t) (w : Memory.wf s.mem = true) : Memory.wf t.mem = true := by
  obtain ⟨m, ⟨_, h2, h3⟩, hs, hw, _⟩ := h
  simp only [Memory.wf, Bool.and_eq_true] at *
  rw [h2, h3]
  exact ⟨by rw [show ({ s with mem := m } : State).mem.hbm = m.hbm from rfl, hs]; exact w.1, hw w.2⟩

/-- A write of HBM keeps the canonical form. -/
theorem writePhys_wf (s : State) (a : Agent) (pa : Nat) (new : List (Option Byte)) (poison : Bool) (w : Memory.wf s.mem = true) :
    Memory.wf (writePhys s a pa new poison).mem = true := (writePhys_writes s a pa new poison).wf w

/-- A write of CBUF or local memory keeps the canonical form. -/
theorem writeSram_wf (s : State) (a : Agent) (addr : Nat) (new : List (Option Byte)) (poison : Bool) (w : Memory.wf s.mem = true) :
    Memory.wf (writeSram s a addr new poison).mem = true := (writeSram_writes s a addr new poison).wf w

/-- The memory after reset is in canonical form. -/
theorem reset_memory_wf : Memory.wf State.reset.mem = true := by decide

end Sys2Proof.Machine
end

