-- ==== Sys2Proof/Tests/Slice0.lean ====
section
/-! SUPPORT. Tests: for each hypothesis of the obligations a concrete state and operands that meet it, an ill-formed term
for each check of WellFormed, the values the spec prints in its rules and worked cases, and single steps of commands. -/

set_option Elab.async false
open Sys2Proof Sys2Proof.Machine
namespace Sys2Proof.Tests

/-- The state after reset, which the spec gives: DEV_READY high, the epoch IDLE, every port DISABLED. -/
def r0 : State := State.reset

/-- Tenant 0 exists with VC 0, 8 tacks and a fault ring, window 0 maps its first 2 MiB to HBM at 2 MiB, queue 0 is its own, and an epoch
is open. -/
def rig : State :=
  { State.reset with
    tens := [(0, { valid := true })]
    wins := [(0, { valid := true })]
    queues := [(0, { valid := true })]
    twn := { run := 1 }
    epc := { state := .opened, count := 1, period := 4096, deadline := 8192 }
    tabF := [(tabKey 1 0 1, 1), (tabKey 1 0 3, 8 * 2 ^ 16 + 2 ^ 27), (tabKey 3 0 0, 2 ^ 31), (tabKey 3 0 2, 1), (tabKey 3 0 3, 1),
             (tabKey 5 0 0, 0x120)] }

/-- `rig` with queue 0's record replaced. -/
def rigQ (x : QueueSt) : State := { rig with queues := [(0, { x with valid := true })] }

/-! ### Witnesses: states and operands that meet the hypotheses of the obligations, clause by clause -/

theorem test_w_front : ({ r0 with pending := [.fltPop, .clear] } : State).pending = .fltPop :: [.clear] := rfl

theorem test_w_register_write : regAddrOk 0x0FFC = true ∧ r0.mspOn = true ∧ commandReg 0x0FFC = false ∧ clockReg 0x0100 = true ∧
    regAddrOk 0 = true ∧ commandReg 0 = false ∧ clockReg 0 = false ∧ 0x1000 % 4 = 0 ∧ 0x0FFC < 0x1000 ∧ 0x0FFF % 4 ≠ 0 := by decide

theorem test_w_register_commands : r0.mspOn = true ∧ bit (3#32).toNat 1 = true ∧ bit (1#32).toNat 0 = true ∧ (1#32).toNat % 4 = 1 ∧
    (0xFF02#32).toNat % 4 = 2 := by decide

theorem test_w_msp_off : ({ r0 with power := { r0.power with stage := .cold } } : State).mspOn = false ∧
    ({ r0 with clk := { r0.clk with change := some (32, 5) } } : State).mspOn = false ∧ regAddrOk 0x0FFC = true := by decide

theorem test_w_rc_read : regAddrOk 0x012C = true ∧ isRc 0x012C = true ∧ isRc 0x0100 = false ∧ r0.mspOn = true ∧
    (∀ e ∈ r0.cc.rc, e.1 ≠ regKey r0 0x012C) ∧ r0.reg (regKey r0 0x012C) + (2 ^ 32 - 1) < 2 ^ 32 := by decide

theorem test_w_latched : r0.mspOn = true ∧ r0.latch = [] ∧ 0x043C ∈ [0x001C, 0x020C, 0x018C, 0x0190, 0x0194, 0x01B4, 0x01B8, 0x01BC, 0x0434, 0x043C] := by
  decide

theorem test_w_porst_leaves_no_latch : ∃ t, exec .porstAssert r0 = .next t ∧ t.latch = [] := ⟨_, rfl, rfl⟩

theorem test_w_good_frame : regAddrOk 0x0108 = true ∧ r0.mspOn = true ∧
    ∃ u, exec (.registerWrite 0x0108 48#32) { r0 with msp := { r0.msp with committed := 0, sdo := [] } } = .next u :=
  ⟨by decide, by decide, _, rfl⟩

theorem test_w_bad_frame : regAddrOk 0x0108 = true ∧ r0.mspOn = true ∧ [0#8, 0#8, 0#8, 48#8].length = 4 ∧
    (0#8).toNat ≠ crc8 0 ([0x02#8] ++ beBytes 2 0x0108 ++ [0#8, 0#8, 0#8, 48#8]) := by decide +kernel

theorem test_w_table_window : r0.mspOn = true ∧ r0.msp.tabAt = none ∧ r0.msp.tabErr < 4 := by decide

theorem test_w_table_write :
    ({ write := true, wmask := 0xFF, sel := 1, index := 31, data := [] } : TabAccess).write = true ∧
    tabErrOf { write := true, wmask := 0xFF, sel := 1, index := 31, data := [] } = 0 ∧ 7 < tabWords 1 ∧ (1 : Nat) ≠ 0x0A ∧ (1 : Nat) ≠ 0x0C := by decide

theorem test_w_node : r0.mspOn = true ∧ (∀ p, p < 9 → (r0.port p).state = .disabled) ∧
    ∃ p, p < 9 ∧ (({ r0 with ports := [(8, { state := .down })] } : State).port p).state ≠ .disabled :=
  ⟨by decide, by decide, 8, by decide, by decide⟩

/-- TP in HELLO. -/
def tpHello : State := { r0 with ports := [(8, { state := .hello })] }

theorem test_w_twin_registers : r0.mspOn = true ∧ linkState (tpHello.port 8).state = true ∧ tpHello.mspOn = true ∧
    tpHello.reg 0x040C ≠ (1023#32).toNat % 2 ^ 10 ∧ bit (tpHello.reg 0x0400) 0 ≠ bit (1#32).toNat 0 ∧
    linkState (r0.port 8).state = false ∧ r0.twn.pstate ≠ 3 ∧ r0.twn.pstate ≠ 4 ∧
    ({ r0 with twn := { r0.twn with pstate := 4 } } : State).twn.pstate = 4 := by decide

theorem test_w_cclk : r0.mspOn = true ∧ r0.epc.state = .idle ∧ 32 ≤ (32#32).toNat % 64 ∧ (32#32).toNat % 64 ≤ 48 ∧ (32#32).toNat % 64 ≠ r0.clk.m ∧
    (48#32).toNat % 64 = r0.clk.m ∧ (31#32).toNat % 64 < 32 ∧ 48 < (49#32).toNat % 64 ∧ rig.mspOn = true ∧ rig.epc.state ≠ .idle := by decide

/-- A change to M = 32 ends in this cc, with a trigger held. -/
def changing : State := { r0 with now := 9, clk := { r0.clk with change := some (32, 9), held := true } }

theorem test_w_change_end : changing.clkOn = true ∧ changing.clk.change = some (32, 9) ∧ 9 ≤ changing.now ∧ changing.clk.held = true ∧ changing.live = true ∧
    ({ changing with clk := { changing.clk with held := false } } : State).clk.held = false := by decide

theorem test_w_held_writes : r0.mspOn = true ∧ r0.tod.hold = none ∧ ({ r0 with tod := { r0.tod with hold := some 0xFFFFF } } : State).mspOn = true := by
  decide

theorem test_w_porst_registers : ∃ t, exec .supplyFault r0 = .next t := ⟨_, rfl⟩

theorem test_w_apply : r0.mspOn = true ∧ (let s : State := { r0 with tod := { r0.tod with pend := 1 } }; s.tod.pend = 1 ∧ s.tod.nowAt ≤ s.now) ∧
    (let s : State := { r0 with tod := { r0.tod with pend := 2, ns := 999999999, frac := 2 ^ 48 - 1 } }; s.tod.pend = 2 ∧ rollsOver s = true) ∧
    (let s : State := { r0 with tod := { r0.tod with pend := 3, ppsDue := some 0 } }; s.tod.pend = 3 ∧ s.tod.ppsDue = some 0 ∧ 0 ≤ s.now) := by decide

theorem test_w_tod : todOk r0 = true ∧ r0.pending = [] ∧ r0.power.pllLock = true ∧ r0.tod.pend = 0 ∧ r0.nextFx = [] ∧
    (let s : State := { r0 with tod := { r0.tod with ns := 999999999, frac := 2 ^ 48 - 1 } }; todOk s = true ∧ rolloverNext s = true ∧ s.tod.pend ≠ 2) := by
  decide

theorem test_w_pps : r0.clkOn = true ∧ (15 < 16) ∧ (∀ p, r0.tod.lastPps = some p → p + 2 ^ 29 ≤ r0.now) ∧
    (let s : State := { r0 with now := 2 ^ 29 - 1, tod := { r0.tod with lastPps := some 0, out := true, fallAt := 5 } }
     s.clkOn = true ∧ (∃ p, s.tod.lastPps = some p ∧ s.now < p + 2 ^ 29) ∧ s.tod.out = true ∧ s.tod.fallAt ≤ s.now) :=
  ⟨by decide, by decide, by intro p h; simp [r0, State.reset] at h, by decide, ⟨0, by decide, by decide⟩, by decide, by decide⟩

/-- REFA is enabled, has passed its checks for CLK_QUAL_TIME, and nothing is selected. -/
def refReady : State := { r0 with now := 10 ^ 12, regs := [(0x010C, 16)] }

/-- REFA selected, REFB a better candidate whose hold-off is over. -/
def refSwitch : State :=
  { r0 with now := 10 ^ 12, regs := [(0x0100, 1), (0x010C, 16), (0x0110, 17)]
            clk := { sel := 1, holdover := false, refs := [(0, { qual := true, act := true }), (1, { qual := true, act := true })] } }

theorem test_w_references : r0.clkOn = true ∧ finePpm r0 < offsetMag 0x7FFF#16 ∧
    refReady.clkOn = true ∧ refEn refReady 0 = true ∧ (refReady.ref 0).qual = false ∧ (refReady.ref 0).okAt + qualCc refReady ≤ refReady.now ∧
    offsetMag 0#16 ≤ finePpm refReady ∧ windowPasses refReady 0 0#16 = true ∧ refReady.clk.switchEnd = none ∧ refReady.clk.holdover = true ∧
    (∀ x, x < 3 → x ≠ 0 → isCand refReady x = false) := by decide

theorem test_w_switch : refSwitch.clkOn = true ∧ bit (refSwitch.reg 0x0100) 0 = true ∧ refSwitch.clk.switchEnd = none ∧ refSwitch.clk.holdover = false ∧
    bestRef refSwitch ((List.range 3).filter (holdoffOver refSwitch)) = some 0 ∧
    (let s : State := { refSwitch with clk := { refSwitch.clk with switchEnd := some 7 } }
     s.clkOn = true ∧ s.clk.switchEnd = some 7 ∧ 7 ≤ s.now ∧ s.clk.holdover = false ∧ isCand s s.clk.sel = true) := by decide

/-! Epochs -/

theorem test_w_boundary : r0.mspOn = true ∧ r0.live = true ∧ ({ r0 with now := 5 } : State).epc.since ≠ ({ r0 with now := 5 } : State).now ∧
    r0.epc.state = .idle ∧ rig.epc.state = .opened ∧ rig.live = true ∧ rig.mspOn = true ∧
    ({ rig with epc := { rig.epc with state := .drain } } : State).epc.state ≠ .idle := by decide

/-- The open epoch's period and deadline end in this cc; the schedule instant has come. -/
def dueNow : State := { rig with now := 8192, regs := [(0x0218, 6)], epc := { rig.epc with armed := true } }

theorem test_w_triggers : dueNow.live = true ∧ dueNow.epc.state = .opened ∧ dueNow.epc.periodHit = false ∧ dueNow.epc.count ≠ 0 ∧
    dueNow.epc.openAt + dueNow.epc.period ≤ dueNow.now ∧ bit (dueNow.reg 0x0218) 1 = true ∧ bit (dueNow.reg 0x0218) 2 = true ∧
    dueNow.epc.armed = true ∧ dueNow.epc.schedHit = false ∧ todReached dueNow (instant dueNow - dueNow.reg 0x0234) = true ∧
    dueNow.epc.deadlineHit = false ∧ dueNow.epc.openAt + dueNow.epc.deadline ≤ dueNow.now := by decide

/-- A drain that a chain head not yet taken holds open, and one with nothing left. -/
def draining (fifo : List Chain) : State :=
  { dueNow with epc := { dueNow.epc with state := .drain, since := 8000 }, queues := [(0, { valid := true, fifo := fifo, chain := fifo.head? })] }

theorem test_w_deadline : (draining []).live = true ∧ (draining []).epc.state = .drain ∧ (draining []).epc.since ≠ (draining []).now ∧
    drained { draining [] with epc := { (draining []).epc with deadlineHit := true } } = true ∧
    (draining [{}]).epc.deadlineHit = false ∧ (draining [{}]).epc.openAt + (draining [{}]).epc.deadline ≤ (draining [{}]).now ∧
    drained { draining [{}] with epc := { (draining [{}]).epc with deadlineHit := true } } = false := by decide

theorem test_w_knot : let s : State := { rig with now := 256 }
    s.runs = true ∧ s.epc.state = .opened ∧ (s.now - s.epc.openAt) % 256 = 0 ∧ s.epc.openAt < s.now ∧ s.now < s.epc.openAt + s.epc.deadline ∧
    s.cc.knot = false ∧ (∀ k, k < 32 → (s.ten k).knotOnce = false) ∧ s.tenRun 0 = true ∧ (s.ten 0).abandoned = false := by decide

/-- `rig` in a state of the close sequence entered at 100, at 300. -/
def closing (st : EState) : State := { rig with now := 300, epc := { rig.epc with state := st, since := 100, runRead := true, formed := true } }

theorem test_w_close : (closing .drain).live = true ∧ drained (closing .drain) = true ∧ (closing .flush).epc.since + 16 ≤ (closing .flush).now ∧
    (closing .flush).mem.acc.any flushes = false ∧ (closing .flush).flt.ring = [] ∧ (closing .flush).trc.held = [] ∧
    (closing .commit).epc.formed = true ∧ (closing .commit).twn.commitAt = none := by decide

theorem test_w_open : let s : State := { closing .clear with epc := { (closing .clear).epc with cleared := true, applied := true } }
    let u : State := { closing .opening with epc := { (closing .opening).epc with waiting := true } }
    s.live = true ∧ s.epc.state = .clear ∧ s.epc.applied = true ∧ s.epc.since + 128 ≤ s.now ∧ s.epc.runRead = true ∧
    (closing .opening).epc.since + 48 ≤ (closing .opening).now ∧ schedHeld (closing .opening) = false ∧
    u.epc.state = .opening ∧ u.epc.waiting = true ∧ todReached u (instant u) = true := by decide

theorem test_w_clear : (closing .clear).live = true ∧ (closing .clear).epc.state = .clear ∧ (closing .clear).epc.cleared = false ∧
    (let s : State := { closing .clear with epc := { (closing .clear).epc with cleared := true } }
     s.live = true ∧ s.epc.state = .clear ∧ s.epc.cleared = true ∧ s.epc.applied = false ∧ s.epc.since + 96 ≤ s.now) := by decide

/-! Resets -/

/-- The Veper held in reset, in the stage `st` of its sequences, or in the test mode. -/
def held (st : Stage) (porst supply : Bool) : State :=
  { r0 with now := 4000, power := { stage := st, pllLock := false, bistDone := false, trainEnd := 0, trained := 1, zeroed := 0
                                    supplyLow := supply, porstLow := porst } }

theorem test_w_release : (held .porst true false).power.stage = .porst ∧ (held .porst true false).power.porstLow = true ∧
    (held .porst true true).power.supplyLow = true ∧ (held .porst false true).power.porstLow = false ∧ bit (8#4).toNat 3 = true ∧
    (held .porst true false).power.supplyLow = false := by decide

theorem test_w_cold : (held .locking false false).power.stage = .locking ∧ unitsOk [104] = true ∧ (held .cold false false).power.stage = .cold ∧
    (held .cold false false).power.bistDone = false ∧ bit (held .cold false false).power.trainEnd 3 = false ∧
    bit (held .cold false false).power.trained 0 = true ∧ bit (held .cold false false).power.zeroed 0 = false := by decide

theorem test_w_warm : r0.power.stage = .ready ∧ (held .warmHold false false).power.since + 3072 ≤ (held .warmHold false false).now ∧
    (held .warmReset false false).power.stage = .warmReset ∧ (held .warmSeq false false).power.stage = .warmSeq ∧ (105 : Nat) ≤ 105 := by decide

theorem test_w_test_mode : (held .test false false).power.stage = .test ∧ (held .test false false).power.pllLock = false ∧
    (∀ b x, Instr.clear ≠ .jtagAccess b x) ∧ Instr.clear ≠ .porstAssert ∧ Instr.clear ≠ .supplyFault ∧
    (∃ t, exec .clear (held .test false false) = .next t) ∧ ∃ t, exec (.jtagAccess 1 []) (held .test false false) = .next t :=
  ⟨by decide, by decide, (fun _ _ h => by cases h), (fun h => by cases h), (fun h => by cases h), ⟨_, rfl⟩, ⟨_, rfl⟩⟩

theorem test_w_jtag : r0.power.supplyLow = false ∧ (2 : Nat) ≤ (3 : Fin 4).val := by decide

/-! Memory -/

/-- A read of HC0's line 0 waits for its rewrite; every scrubber is due. -/
def scrubs : State :=
  { r0 with now := 2 ^ 40, mem := { acc := [{ hc := 0, line := 0, write := false, fix := some .clean }], hbmErr := [(0, .ce)] } }

theorem test_w_hbm : scrubs.linkOn = true ∧ takeAcc 0 0 [] scrubs.mem.acc = some ({ hc := 0, line := 0, write := false, fix := some .clean }, []) ∧
    bit (scrubs.reg 0x0480) 31 = true ∧ scrubs.isOn 91 = true ∧ (scrubs.hbmScrubAt 3).due ≤ scrubs.now ∧ bit (scrubs.reg 0x0480) 15 = true ∧
    (∀ x ∈ scrubs.mem.acc, x.line ≠ walkLine 3 (scrubs.hbmScrubAt 3).pos ∨ x.fix = none) ∧
    (scrubs.sramScrubAt 79).due ≤ scrubs.now ∧ scrubs.cc.scrub.contains 79 = false ∧ scrubs.eff 79 ≠ 0 ∧
    scrubs.cc.touched.contains (bankOf (sramFirst 79 + (scrubs.sramScrubAt 79).pos)) = false ∧
    (touch scrubs (sramFirst 79)).cc.touched.contains (bankOf (sramFirst 79 + (scrubs.sramScrubAt 79).pos)) = true ∧
    mget (fun _ => false) scrubs.mem.badPar ((sramFirst 79 + (scrubs.sramScrubAt 79).pos) / 32) = false := by decide

theorem test_w_scrub_restart : let s : State := { r0 with regs := [(0x0480, 0)] }
    s.mspOn = true ∧ bit (0x80000000#32).toNat 31 = true ∧ bit (s.reg 0x0480) 31 = false ∧ bit (0#32).toNat 31 = false := by decide

theorem test_w_lines : r0.eff (88 + stackOf (0x5FFFFFFF * 64)) = 3 ∧ (List.replicate 64 1#8).length = 64 ∧
    isFull (none :: List.replicate 63 (some 1#8)) = false ∧ (none :: List.replicate 63 (some 1#8)).length = 64 ∧ r0.lineErr 0 = .clean ∧
    ({ r0 with mem := { hbmErr := [(0, .poison)] } } : State).lineErr 0 = .poison ∧ ccBehind r0.cc.hbm 0x5FFFFFFF (hbmRank writerAgent) = false ∧
    hbmRank { kind := .cob 0 0, cls := 4, unit := 64 } < hbmRank twinAgent ∧ r0.errSeen 0 = .clean ∧ (∀ p ∈ r0.cc.hbm, p.cell ≠ 0) := by decide

theorem test_w_faults : (r0.flt.due.Pairwise fun a b => faultBefore a b = true) ∧ r0.mspOn = true ∧
    (let s : State := { rig with flt := { ring := [(0, {})] } }
     s.linkOn = true ∧ s.flt.ring = [(0, {})] ∧ s.cc.ringed = false ∧ s.tenRun 0 = true ∧ s.tfB 1 0 3 31 27 ≠ 0 ∧
     findWin s 0 (fringBase s 0 + 32 * (s.ten 0).fringWr) 32 = some 0 ∧ paOf s 0 0 (fringBase s 0 + 32 * (s.ten 0).fringWr) = 2 ^ 21 ∧
     winProt s 0 0 = false ∧ (2 ^ 21) % 32 = 0 ∧ s.eff (88 + stackOf (2 ^ 21 / 64 * 64)) = 3 ∧
     ccBehind s.cc.hbm (2 ^ 21 / 64) (hbmRank writerAgent) = false) ∧
    (let s : State := { r0 with flt := { ring := [(0, {})] } }; s.linkOn = true ∧ s.tenRun 0 = false) ∧
    (let s : State := { r0 with flt := { fifo := [{}] } }; s.flt.fifo = {} :: [] ∧ s.cc.fltIn < s.flt.fifo.length ∧ s.cc.fltFull = []) ∧
    (let s : State := { r0 with flt := { fifo := [{}, {}] }, cc := { fltIn := 1, fltFull := [{}] } }
     s.flt.fifo = {} :: [{}] ∧ s.cc.fltIn < s.flt.fifo.length ∧ s.cc.fltFull = {} :: []) ∧
    (let s : State := { r0 with flt := { fifo := [{}] }, cc := { fltIn := 1 } }; s.flt.fifo.length ≤ s.cc.fltIn) :=
  ⟨List.Pairwise.nil, by decide, by decide, by decide, by decide, by decide, by decide⟩

theorem test_w_trace : let s : State := { rig with trc := { held := [(1, 2)], valid := true }, regsF := [] }
    s.linkOn = true ∧ s.trc.held = (1, 2) :: [] ∧ s.trc.valid = true ∧
    xlate s (traceTenant s) (traceBase s + 16 * (s.trc.wr % traceSlots s)) 16 = some (2 ^ 21) ∧ (2 ^ 21) % 16 = 0 ∧
    s.eff (88 + stackOf (2 ^ 21 / 64 * 64)) = 3 ∧ ccBehind s.cc.hbm (2 ^ 21 / 64) (hbmRank writerAgent) = false := by decide

theorem test_w_containment : r0.linkOn = true ∧ r0.power.contained = false ∧ isWork (.add 0) = true ∧ isWork (.cblHalt 15) = true ∧
    changing.frozen = true ∧ ({ r0 with power := { r0.power with contained := true } } : State).power.contained = true ∧
    (held .warmSeq false false).ready = false := by decide

/-! Queues and descriptors -/

/-- The sixteen words of a descriptor with an opcode, LAST and its parameters. -/
def dsc (op : Nat) (last : Bool) (p0 p1 p2 : Nat) : List Nat :=
  [2 ^ 56 + (if last then 256 else 0) + op, 0, 0, 0, 0, 0, 0, 0, 0, p0, p1, p2, 0, 0, 0, 0x1000]

/-- Queue 0 of `rig` with that descriptor at its front, ready for 100 cc. -/
def fronted (x : QueueSt) (w : List Nat) : State :=
  { rigQ { x with chain := some {}, fetch := [{ words := some w, phase := .ready }] } with now := 100 }

/-- The descriptor at the front of `fronted`. -/
def frontOfRig (w : List Nat) : Front := { f := { words := some w, phase := .ready }, w := w, ps := [dw w 9, dw w 10, dw w 11, dw w 12, dw w 13] }

/-- A SUBMIT of the chain at tenant address 128 to queue 0, and port 0 UP with control rights of tenant 0. -/
def submitMsg : Msg :=
  { type := 0x12, dst := 0, src := 0, len := 24, payload := leBytes 8 0 ++ leBytes 8 0 ++ leBytes 8 128 }
def portUp : State := { rig with ports := [(0, { state := .up })], tab := [(tabKey 9 0 0, 2 ^ 28), (tabKey 9 0 2, 1), (tabKey 9 0 3, 1), (tabKey 9 0 4, 1), (tabKey 9 0 5, 1)] }

theorem test_w_submit : let s := portUp; let m := submitMsg; let p : Fin 8 := 0
    s.live = true ∧ (s.port p).state = .up ∧ rxNext s p 2 m = true ∧ submitLate s p (bits (mword m 0) 5 0) = false ∧
    egressRoom s p (submitHeads (submitChain m p (s.port p).links).rsp) 0 = true ∧ submitFits s p m = true ∧
    s.epc.state = .opened ∧ bit (s.tw 9 p 4) (bits (mword m 0) 36 32) = true ∧ s.ownsQ (bits (mword m 0) 36 32) (bits (mword m 0) 5 0) = true ∧
    (s.port p).qrate = 0 ∧ bits (mword m 1) 39 0 = 0 ∧ s.qOn (bits (mword m 0) 5 0) = true ∧ (s.ten (bits (mword m 0) 36 32)).abandoned = false ∧
    fifoRoom (s.q (bits (mword m 0) 5 0)) (submitChain m p (s.port p).links) = true ∧ (s.q (bits (mword m 0) 5 0)).stopped = false := by decide

theorem test_w_chain_head : let s := rigQ { fifo := [{ addr := 128 }] }
    (s.q 0).fifo = [{ addr := 128 }] ∧ qLive s 0 = true ∧ (s.q 0).chain = none ∧ waitingAt s 0 = none ∧ s.qTimed 0 = false ∧ ({ addr := 128 } : Chain).inline = none ∧
    (let u := rigQ { fifo := [{ inline := some [] }] }; (u.q 0).fifo = { inline := some [] } :: [] ∧ qLive u 0 = true ∧ u.qTimed 0 = false ∧ waitingAt u 0 = none) ∧
    (let t : State := { s with tabF := [(tabKey 1 0 1, 1), (tabKey 5 0 0, 0x160)] }; qLive t 0 = true ∧ t.qTimed 0 = true ∧ (t.q 0).granted = none) := by decide

theorem test_w_fetch : let s := rigQ { chain := some {}, next := some (2 ^ 21 - 128, 7) }
    (s.q 0).next = some (2 ^ 21 - 128, 7) ∧ (s.q 0).chain = some {} ∧ qLive s 0 = true ∧ (s.q 0).fetch.length < 5 ∧
    (s.q 0).nextAt ≤ s.now ∧ fetchedNow s 0 = false ∧ noBad (s.q 0).fetch = true ∧
    (2 ^ 21 - 128) % 128 = 0 ∧ xlate s (s.qTen 0) (2 ^ 21 - 128) 128 = some (2 ^ 22 - 128) ∧ dcacheHolds s ((2 ^ 22 - 128) / 128) = false ∧
    (let u : State := { s with mem := { dcache := [(2 ^ 22 - 128) / 128] } }
     dcacheHolds u ((2 ^ 22 - 128) / 128) = true ∧ dcacheErr u ((2 ^ 22 - 128) / 128) = .clean ∧ ∀ p ∈ u.cc.hbm, p.cell / 2 ≠ (2 ^ 22 - 128) / 128) ∧
    (let t := rigQ { chain := some {}, next := some (2 ^ 21, 7) }; xlate t (t.qTen 0) (2 ^ 21) 128 = none ∧ qLive t 0 = true ∧ (t.q 0).fetch = []) := by
  decide

/-- A descriptor of tag 1 and opcode `op` at tenant address 128, in memory, asked for 12 cc ago. -/
def stored (op : Nat) : State :=
  { rigQ { chain := some {}, fetch := [{ addr := 128 }] } with
    now := 12, mem := { hbm := putBytes [] (2 ^ 21 + 128) (leBytes 8 (2 ^ 56 + 2 ^ 24 + op)) } }

theorem test_w_return : let s := stored 0x05; let w := descWords (s.lineRaw ((2 ^ 21 + 128) / 64) ++ s.lineRaw ((2 ^ 21 + 128) / 64 + 1))
    (s.q 0).fetch = [{ addr := 128 }] ∧ ({ addr := 128 } : Fetch).phase = .asked ∧ ({ addr := 128 } : Fetch).words = none ∧ noBad [] = true ∧
    ({ addr := 128 } : Fetch).at_ + 12 ≤ s.now ∧ qLive s 0 = true ∧ xlate s (s.qTen 0) 128 128 = some (2 ^ 21 + 128) ∧ (2 ^ 21 + 128) % 128 = 0 ∧
    fieldsOk s (s.qTen 0) w = true ∧ isCtl (dOpcode w) = true ∧ tackOk s (s.qTen 0) (dOpcode w) (dParams w) (dPsrEn w) = true ∧
    order7 s 0 w [none, none, none, none, none] = none := by decide +kernel

/-- SR_LOAD names source 0 alone, whose record is not cached. -/
theorem test_w_return_operand : let s := { stored 0x08 with tabF := rig.tabF ++ [(tabKey 1 0 5, 1)] }; let w := (dsc 0x08 true 0 0 0).set 1 (2 ^ 60)
    fieldsOk s (s.qTen 0) w = true ∧ isCtl (dOpcode w) = false ∧ operands w ≠ [] ∧
    (∀ o ∈ operands w, cachedRec s (s.qTen 0) (dIndex w o) = none ∧ dIndex w o < s.lastSize (s.qTen 0)) := by decide +kernel

theorem test_w_return_poisoned : let s : State := { stored 0x05 with mem := { hbmErr := [((2 ^ 21 + 128) / 64 + 1, .poison)] } }
    xlate s (s.qTen 0) 128 128 = some (2 ^ 21 + 128) ∧ s.eff (88 + stackOf ((2 ^ 21 + 128) / 64 * 64)) = 3 ∧
    s.eff (88 + stackOf (((2 ^ 21 + 128) / 64 + 1) * 64)) = 3 ∧ s.lineErr ((2 ^ 21 + 128) / 64 + 1) = .poison ∧ qLive s 0 = true ∧
    (∀ p ∈ s.cc.hbm, p.cell ≠ (2 ^ 21 + 128) / 64 ∧ p.cell ≠ (2 ^ 21 + 128) / 64 + 1) := by decide +kernel

/-- The same with nothing in memory: a descriptor of zeros. -/
theorem test_w_return_bad : let s := rigQ { chain := some {}, fetch := [{ addr := 128 }] }
    fieldsOk s (s.qTen 0) (descWords (s.lineRaw ((2 ^ 21 + 128) / 64) ++ s.lineRaw ((2 ^ 21 + 128) / 64 + 1))) = false := by decide +kernel

/-- The records of operands 0 and 4 are loading, the latter `d` in HBM. -/
def loadingTwo (d : LastRec) : State :=
  { rigQ { chain := some {}, fetch := [{ words := some (dsc 0x90 true 0 0 0), phase := .loading [0, 4] }] } with
    mem := { hbm := putBytes [] (2 ^ 21) (d.flatMap (leBytes 8)) } }

/-- A Last record in HBM of `ty`, one dimension of `n` elements, from window 0's base; `own` for owner entry 0. -/
def rec1 (ty n : Nat) (own : Bool) : LastRec := [16 * ty + 2 ^ 9 + (if own then 2 ^ 17 else 0), 0, n + 10 * 2 ^ 48, 0, 0, 1, 0, 0]

theorem test_w_record : let s := loadingTwo []; let f : Fetch := { words := some (dsc 0x90 true 0 0 0), phase := .loading [0, 4] }
    (s.q 0).fetch = [f] ∧ f.phase = .loading [0, 4] ∧ [0, 4].contains 4 = true ∧ ([0, 4].filter (· != 4)) ≠ [] ∧ qLive s 0 = true ∧
    xlate s (s.qTen 0) (s.lastBase (s.qTen 0) + 64 * dIndex (f.words.getD []) 4) 64 = some (2 ^ 21) ∧ (2 ^ 21) % 64 = 0 ∧
    f.recs.length = 5 ∧ (let t := loadingTwo [1 + 2 ^ 9, 0, 64, 0, 0, 1, 0, 0]; recCheck t (t.qTen 0) false (recWords (t.lineRaw (2 ^ 21 / 64))) = none) := by decide +kernel

theorem test_w_data : let w := dsc 0x10 true 0 0 0; let s := fronted {} w
    dataOpcode (.add 0) = some (0, 0x10) ∧ frontOf s 0 = some (frontOfRig w) ∧ dOpcode w = 0x10 ∧ issueBad s 0 (frontOfRig w) = none ∧
    s.qTimed 0 = false ∧ dOpcode w ≠ 0x11 ∧ dataOpcode (.evCount 0) = some (0, 0xA1) := by decide

/-- The same descriptor with P0 from a scalar register, whose shapes then fail. -/
theorem test_w_issue_fault : let w := (dsc 0x92 true 0 0 0).set 14 (2 ^ 32); let s := fronted {} w
    dataOpcode (.gather 0) = some (0, 0x92) ∧ frontOf s 0 = some (frontOfRig w) ∧ dOpcode w = 0x92 ∧ (issueBad s 0 (frontOfRig w)).isSome = true := by decide

theorem test_w_scalar : let w := dsc 0x08 true 0 0 0; let s := fronted {} w
    frontOf s 0 = some (frontOfRig w) ∧ issueBad s 0 (frontOfRig w) = none ∧ dOpcode w = 0x08 ∧ srOpen s 0x08 0 = none ∧
    ((srOpen (issueIt s 0 (frontOfRig w) id) 0x08 0).all fun f => srNeeds (issueIt s 0 (frontOfRig w) id) 0 f == []) = true ∧
    (let v := dsc 0x09 true 0 0 0; let t := fronted {} v
     frontOf t 0 = some (frontOfRig v) ∧ issueBad t 0 (frontOfRig v) = none ∧ dOpcode v = 0x09 ∧ srOpen t 0x09 0 = none ∧
     ((srOpen (issueIt t 0 (frontOfRig v) id) 0x09 0).all fun f => srNeeds (issueIt t 0 (frontOfRig v) id) 0 f == []) = true) := by decide

/-- A read of granule 0 issues beside a held read of it. -/
theorem test_w_scoreboard : let w := (dsc 0x10 true 0 0 0).set 3 (2 ^ 61)
    let s := fronted { flight := [{ entries := [(false, .hbm 0 1)], need := 1 }] } w
    frontOf s 0 = some (frontOfRig w) ∧ s.qTimed 0 = false ∧ s.qOn 0 = true ∧ (s.q 0).flight.length = 1 := by decide

/-- A LOOP that is the last of a body of `n` turns left, and a BRANCH that ends its chain. -/
theorem test_w_last : (∀ n ∈ [0, 1, 2], let s := fronted { loops := [{ left := n }] } (dsc 0x01 true 0x2000 (2 ^ 32 + 0x10) 0)
      (frontOf s 0).isSome = true ∧ dLast (dsc 0x01 true 0x2000 (2 ^ 32 + 0x10) 0) = true ∧ (s.q 0).loops = { left := n } :: []) ∧
    dLast (dsc 0x02 true 0x2000 0 0) = true ∧ (frontOf (fronted {} (dsc 0x02 true 0x2000 0 0)) 0).isSome = true ∧
    (frontOf (fronted {} (dsc 0x03 true 0 0 0)) 0).isSome = true ∧ ((fronted {} (dsc 0x03 true 0 0 0)).q 0).loops = [] := by decide

/-- A LOOP of `n` turns (immediate), with `d` loops open. -/
def looped (n d : Nat) (last : Bool) : State :=
  fronted { loops := List.replicate d {} } (dsc 0x01 last 0x2000 (n * 2 ^ 32 + 7 * 256 + 0x10) 0)

theorem test_w_loop : frontOf (looped (2 ^ 32 - 1) 3 false) 0 = some (frontOfRig (dsc 0x01 false 0x2000 ((2 ^ 32 - 1) * 2 ^ 32 + 7 * 256 + 0x10) 0)) ∧
    issueBad (looped (2 ^ 32 - 1) 3 false) 0 (frontOfRig (dsc 0x01 false 0x2000 ((2 ^ 32 - 1) * 2 ^ 32 + 7 * 256 + 0x10) 0)) = none ∧
    loopCount ((looped (2 ^ 32 - 1) 3 false).q 0) ((2 ^ 32 - 1) * 2 ^ 32 + 7 * 256 + 0x10) ≠ 0 ∧
    frontOf (looped 0 3 false) 0 = some (frontOfRig (dsc 0x01 false 0x2000 (7 * 256 + 0x10) 0)) ∧ loopCount ((looped 0 3 false).q 0) (7 * 256 + 0x10) = 0 ∧
    dLast (dsc 0x01 false 0x2000 (7 * 256 + 0x10) 0) = false ∧ 4 ≤ ((looped 1 4 false).q 0).loops.length ∧
    (frontOf (looped 1 4 false) 0).isSome = true := by decide

/-- A BRANCH on comparator 0, which compares 0 with 0 for equality: taken with SENSE 1. -/
theorem test_w_branch : let w := dsc 0x02 false 0x2000 256 0; let v := dsc 0x02 false 0x2000 0 0; let u := dsc 0x02 false 0 (256 + 512) 0
    frontOf (fronted {} w) 0 = some (frontOfRig w) ∧ issueBad (fronted {} w) 0 (frontOfRig w) = none ∧ dOpcode w = 0x02 ∧ dLast w = false ∧
    (cmpHolds ((fronted {} w).q 0) 0 == bit 256 8) = true ∧ bit 256 9 = false ∧
    frontOf (fronted {} v) 0 = some (frontOfRig v) ∧ (cmpHolds ((fronted {} v).q 0) 0 == bit 0 8) = false ∧ bit 0 10 = false ∧
    frontOf (fronted {} u) 0 = some (frontOfRig u) ∧ bit (256 + 512) 9 = true := by decide

theorem test_w_epoch_end : let w := dsc 0x05 true 0 0 0
    frontOf (fronted {} w) 0 = some (frontOfRig w) ∧ dOpcode w = 0x05 ∧ issueBad (fronted {} w) 0 (frontOfRig w) = none := by decide

/-- Queue 0 stands at a WAIT for tack 0 to reach 3, until cc 50. -/
def standing (goes : Option Nat) (v : Nat) : State :=
  { rigQ { flight := [{ words := dsc 0x03 false 0 0 0, wait := some { tack := 0, thresh := 3, consume := true, until_ := some 50, toNext := goes, goes := goes } }] } with
    now := 50, tacks := [(0, { value := v })] }

theorem test_w_wait : let w := dsc 0x03 false (2 ^ 32 + 3 * 2 ^ 16 + 7) 5 0
    frontOf (fronted {} w) 0 = some (frontOfRig w) ∧ dOpcode w = 0x03 ∧ issueBad (fronted {} w) 0 (frontOfRig w) = none ∧
    waitingAt (standing none 3) 0 = some ({ words := dsc 0x03 false 0 0 0, wait := some { tack := 0, thresh := 3, consume := true, until_ := some 50 } },
      { tack := 0, thresh := 3, consume := true, until_ := some 50 }) ∧ (standing none 3).runs = true ∧ 3 ≤ ((standing none 3).tack 0).value ∧
    ((standing none 2).tack 0).value < 3 ∧ 50 ≤ (standing none 2).now ∧ (waitingAt (standing (some 0x3000) 2) 0).isSome = true ∧
    takenBefore (standing none 3) 0 0 0 = false ∧ (waitingAt (standing (some 0x3000) 2) 0).all (fun x => x.2.goes.isSome) = true := by decide

theorem test_w_set : ∀ k, k < 6 → (let w := dsc 0x04 false (k + 3 * 2 ^ 16) 0 0
    frontOf (fronted {} w) 0 = some (frontOfRig w) ∧ dOpcode w = 0x04 ∧ issueBad (fronted {} w) 0 (frontOfRig w) = none ∧ dLast w = false ∧
    bits ((frontOfRig w).ps.getD 0 0) 3 0 = k) := by decide

theorem test_w_launch : let w := dsc 0x06 true 128 (2 ^ 16 + 2 ^ 15) 0; let s := fronted {} w
    frontOf s 0 = some (frontOfRig w) ∧ dOpcode w = 0x06 ∧ issueBad s 0 (frontOfRig w) = none ∧ bit ((frontOfRig w).ps.getD 1 0) 15 = true ∧
    s.isOn 79 = true ∧ (xlate s (s.qTen 0) (bits ((frontOfRig w).ps.getD 0 0) 39 0) (128 * bits ((frontOfRig w).ps.getD 1 0) 25 16)).isSome = true := by decide

/-! Cobblers -/

/-- Cobbler 0 of `rig` at word `w` with c1 = x, c2 = y and c3 = z. -/
def cobbler (w x y z : Nat) : State :=
  { rig with cbls := [(0, { running := true, len := 1, started := true, regs := [0, x, y, z] ++ List.replicate 12 0
                            lines := [{ bytes := some (leBytes 4 w) }] })] }

/-- An instruction word of Table 09.2, and one with an immediate. -/
def cw (op rd rs1 rs2 fn : Nat) : Nat := op * 2 ^ 26 + rd * 2 ^ 22 + rs1 * 2 ^ 18 + rs2 * 2 ^ 14 + fn
def ci (op rd rs1 imm : Nat) : Nat := op * 2 ^ 26 + rd * 2 ^ 22 + rs1 * 2 ^ 18 + imm

/-- Every register operation of Table 09.3 is ready at some state. -/
theorem test_w_cobbler_registers : ∀ op ∈ List.range' 0x01 18, cblOk (cobbler (cw op 3 1 2 0) 5 0 0) = true ∧
    cblReady (cobbler (cw op 3 1 2 0) 5 0 0) 0 op (cw op 3 1 2 0) = true := by decide

theorem test_w_cobbler_immediates : ∀ op ∈ List.range' 0x14 8, cblReady (cobbler (ci op 3 1 31) 5 0 0) 0 op (ci op 3 1 31) = true := by decide

theorem test_w_cobbler_jumps : (∀ op ∈ List.range' 0x31 6, cblReady (cobbler (ci op 1 2 0x3FFFF) 5 5 0) 0 op (ci op 1 2 0x3FFFF) = true) ∧
    cblReady (cobbler (0x1C * 2 ^ 26 + 2 ^ 22 + 0x3FFFFF) 0 0 0) 0 0x1C (0x1C * 2 ^ 26 + 2 ^ 22 + 0x3FFFFF) = true ∧
    cblReady (cobbler (0x37 * 2 ^ 26 + 2 ^ 22 + 1) 0 0 0) 0 0x37 (0x37 * 2 ^ 26 + 2 ^ 22 + 1) = true ∧
    cblReady (cobbler (ci 0x38 3 1 4) 8 0 0) 0 0x38 (ci 0x38 3 1 4) = true ∧
    cblReady (cobbler (ci 0x38 3 1 4) 0xFFFFFFFF 0 0) 0 0x38 (ci 0x38 3 1 4) = true ∧
    (BitVec.ofNat 32 0xFFFFFFFF + (BitVec.ofNat 18 (ci 0x38 3 1 4)).signExtend 32).toNat % 4 ≠ 0 := by decide

/-- A range of few words is without error when each of them is. -/
theorem sramQuiet_of (s : State) (a n : Nat) (h : ∀ i, i < (a % 16 + n + 15) / 16 → s.eff (sramUnit (a / 16 + i)) ≠ 0 ∧
    mget (fun _ => false) s.mem.badPar ((a / 16 + i) / 32) = false ∧ (s.wordValid (a / 16 + i) = true → s.wordErr (a / 16 + i) = .clean) ∧
    ∀ p ∈ s.cc.sram, p.cell ≠ a / 16 + i) :
    sramQuiet s a n := by
  intro w h1 h2
  have := h (w - a / 16) (by omega)
  rwa [Nat.add_sub_cancel' h1] at this

/-- A range of few lines is without error when each of them is. -/
theorem hbmQuiet_of (s : State) (a n : Nat) (h : ∀ i, i < (a % 64 + n + 63) / 64 → s.eff (88 + stackOf ((a / 64 + i) * 64)) = 3 ∧
    s.lineErr (a / 64 + i) = .clean ∧ ∀ p ∈ s.cc.hbm, p.cell ≠ a / 64 + i) :
    hbmQuiet s a n := by
  intro w h1 h2
  have := h (w - a / 64) (by omega)
  rwa [Nat.add_sub_cancel' h1] at this

/-- The top word of local memory is reached, an address past it is not, and a word at an odd place of the top is misaligned. -/
theorem test_w_local : (∀ op ∈ List.range' 0x20 8, cblReady (cobbler (ci op 3 1 0) 0xFFFC 0 0) 0 op (ci op 3 1 0) = true) ∧
    localLoad (.cblLw 0) = some (0, 0x24, 4, false) ∧ localStore (.cblSw 0) = some (0, 0x27, 4) ∧ 0xFFFC + 4 ≤ 65536 ∧ 0xFFFC % 4 = 0 ∧
    cblReady (cobbler (ci 0x24 3 1 0) 0xFFFD 0 0) 0 0x24 (ci 0x24 3 1 0) = true ∧ 0xFFFD < 65536 ∧ 0xFFFD % 4 ≠ 0 ∧
    cblReady (cobbler (ci 0x22 3 1 0) 65536 0 0) 0 0x22 (ci 0x22 3 1 0) = true ∧ sramQuiet (cobbler (ci 0x24 3 1 0) 0xFFFC 0 0) (2 ^ 27 + 0xFFFC) 4 :=
  ⟨by decide, by decide, by decide, by decide, by decide, by decide, by decide, by decide, by decide, sramQuiet_of _ _ _ (by decide)⟩

/-- The last word of VC 0's CBUF; a VC outside the mask. -/
theorem test_w_cbuf : (match cbufPlace (cobbler (ci 0x28 3 1 0) 0x1FFFFC 0 0) 0 0x1FFFFC 4 4 with | .ok p => p == 0x1FFFFC | .error _ => false) = true ∧
    cblReady (cobbler (ci 0x28 3 1 0) 0x1FFFFC 0 0) 0 0x28 (ci 0x28 3 1 0) = true ∧ cblReady (cobbler (ci 0x29 3 1 0) 0x1FFFFC 0 0) 0 0x29 (ci 0x29 3 1 0) = true ∧
    (match cbufPlace (cobbler (ci 0x28 3 1 0) 0x200000 0 0) 0 0x200000 4 4 with | .ok _ => false | .error c => c == 0x32) = true ∧
    cblReady (cobbler (ci 0x28 3 1 0) 0x200000 0 0) 0 0x28 (ci 0x28 3 1 0) = true ∧ cblReady (cobbler (ci 0x29 3 1 0) 0x200000 0 0) 0 0x29 (ci 0x29 3 1 0) = true ∧
    (match cbufPlace (cobbler (cw 0x2A 3 1 0 63) 0 0 64) 0 0 1024 16 with | .ok p => p == 0 | .error _ => false) = true ∧ copyBad 64 1024 = none ∧ copyBad 0xFFF0 1024 = some 0x32 ∧ copyBad 8 1024 = some 0x31 ∧
    cblReady (cobbler (cw 0x2A 3 1 0 63) 0 0 64) 0 0x2A (cw 0x2A 3 1 0 63) = true ∧ cblReady (cobbler (cw 0x2B 3 1 0 63) 0 0 64) 0 0x2B (cw 0x2B 3 1 0 63) = true ∧
    sramQuiet (cobbler (ci 0x28 3 1 0) 0x1FFFFC 0 0) 0x1FFFFC 4 ∧ sramQuiet (cobbler (cw 0x2A 3 1 0 63) 0 0 64) 0 1024 ∧
    sramQuiet (cobbler (cw 0x2A 3 1 0 63) 0 0 64) (localAddr 0 64) 1024 :=
  ⟨by decide, by decide, by decide, by decide, by decide, by decide, by decide, by decide, by decide, by decide,
    by decide, by decide, sramQuiet_of _ _ _ (by decide), sramQuiet_of _ _ _ (by decide), sramQuiet_of _ _ _ (by decide)⟩

theorem test_w_cobbler_hbm : (match hbmPlace (cobbler (cw 0x2C 3 1 2 0) 0x1FFFFC 0 0) 0 0x1FFFFC 0 4 4 with | .ok a => a == 0x1FFFFC | .error _ => false) = true ∧
    xlate (cobbler (cw 0x2C 3 1 2 0) 0x1FFFFC 0 0) 0 0x1FFFFC 4 = some 0x3FFFFC ∧
    (∀ op ∈ [0x2C, 0x2D], cblReady (cobbler (cw op 3 1 2 0) 0x1FFFFC 0 0) 0 op (cw op 3 1 2 0) = true) ∧
    (let s := cobbler (cw 0x2D 3 1 2 0) 0x1FFFFC 0 0; s.tenRun 0 = true ∧ findWin s 0 0x1FFFFC 4 = some 0 ∧ winProt s 0 0 = false ∧ paOf s 0 0 0x1FFFFC = 0x3FFFFC) ∧
    (∀ op ∈ [0x2E, 0x2F], cblReady (cobbler (cw op 3 1 2 63) 64 0 0) 0 op (cw op 3 1 2 63) = true) ∧
    (match hbmPlace (cobbler (cw 0x2E 3 1 2 63) 64 0 0) 0 64 0 1024 16 with | .ok a => a == 64 | .error _ => false) = true ∧
    (match hbmPlace (cobbler (cw 0x2C 3 1 2 0) 0x200000 0 0) 0 0x200000 0 4 4 with | .ok _ => false | .error c => c == 0x32) = true ∧
    (∀ op ∈ [0x2C, 0x2D], cblReady (cobbler (cw op 3 1 2 0) 0x200000 0 0) 0 op (cw op 3 1 2 0) = true) ∧
    hbmQuiet (cobbler (cw 0x2C 3 1 2 0) 0x1FFFFC 0 0) 0x3FFFFC 4 ∧ hbmQuiet (cobbler (cw 0x2F 3 1 2 63) 64 0 0) (2 ^ 21 + 64) 1024 :=
  ⟨by decide, by decide, by decide, by decide, by decide, by decide, by decide, by decide, hbmQuiet_of _ _ _ (by decide), hbmQuiet_of _ _ _ (by decide)⟩

/-- Cobbler 0 with an operation outstanding, its program running or ended. -/
def operating (o : CblOp) : State := { cobbler 0 0 0 0 with cbls := [(0, { running := !o.dead, ops := [o] })] }

theorem test_w_operations : (let o : CblOp := { kind := 0, dest := 15, data := List.replicate 4 1#8 };
      ((operating o).cbl 0).ops.find? (fun x => x.id == 0) = some o ∧ (operating o).live = true ∧ noAcc (operating o) (.cobbler 0 0) = true ∧ cblOk (operating o) = true) ∧
    (let o : CblOp := { kind := 2, n := 1, dest := 0xFFF0, data := List.replicate 16 1#8 };
      ((operating o).cbl 0).ops.find? (fun x => x.id == 0) = some o ∧ o.data.length = 16 * o.n ∧ 0 < o.n ∧ o.dest % 16 = 0 ∧ o.bad = none ∧ noAcc (operating o) (.cobbler 0 0) = true) ∧
    (let o : CblOp := { kind := 3, dead := true }; ((operating o).cbl 0).ops.find? (fun x => x.id == 0) = some o ∧ noAcc (operating o) (.cobbler 0 0) = true) ∧
    cblReady (cobbler (cw 0x30 0 0 0 0) 0 0 0) 0 0x30 (cw 0x30 0 0 0 0) = true := by decide

theorem test_w_cobbler_tacks : (∀ fn ∈ [0, 1], cblReady (cobbler (cw 0x39 0 1 2 fn) 7 3 0) 0 0x39 (cw 0x39 0 1 2 fn) = true) ∧
    (cobbler 0 7 3 0).ownsTack 0 7 = true ∧ (cobbler 0 8 3 0).ownsTack 0 8 = false ∧
    cblReady (cobbler (cw 0x3A 3 1 2 0) 7 3 0) 0 0x3A (cw 0x3A 3 1 2 0) = true ∧ cblReady (cobbler (cw 0x3A 3 1 2 0) 8 3 0) 0 0x3A (cw 0x3A 3 1 2 0) = true ∧
    (let u : Waiting := { tack := 7, thresh := 1, until_ := some 0 }
     let s (v : Nat) : State := { rig with tacks := [(7, { value := v })], cbls := [(0, { running := true, twait := some u, twaitRd := 3 })] }
     let s1 := s 1
     (s1.cbl 0).twait = some u ∧ s1.runs = true ∧ takenBefore s1 7 64 0 = false ∧ u.thresh ≤ ((s 1).tack 7).value ∧ ((s 0).tack 7).value < u.thresh ∧ 0 ≤ (s 0).now ∧ cblOk (s 0) = true) := by decide

theorem test_w_cobbler_queues : (∀ op ∈ [0x3B], cblReady (cobbler (cw op 3 1 0 15) 0 0 0) 0 op (cw op 3 1 0 15) = true) ∧
    cblReady (cobbler (cw 0x3C 3 1 2 7) 0 0 0) 0 0x3C (cw 0x3C 3 1 2 7) = true ∧ (cobbler 0 0 0 0).ownsQ 0 0 = true ∧ (cobbler 0 1 0 0).ownsQ 0 1 = true ∧
    ({ cobbler (cw 0x3B 3 1 0 15) 1 0 0 with tabF := rig.tabF ++ [(tabKey 5 1 0, 0x121)] } : State).ownsQ 0 1 = false ∧
    cblReady (cobbler (cw 0x3D 3 1 2 0) 128 255 0) 0 0x3D (cw 0x3D 3 1 2 0) = true ∧ cblSubmitStatus (cobbler (cw 0x3D 3 1 2 0) 128 255 0) 0 0 (255 * 2 ^ 32 + 128) = 0 ∧
    cblSubmitStatus (cobbler (cw 0x3D 3 1 2 0) 127 255 0) 0 0 (255 * 2 ^ 32 + 127) ≠ 0 ∧
    cblReady (cobbler (cw 0x3D 3 1 2 0) 128 256 0) 0 0x3D (cw 0x3D 3 1 2 0) = true ∧
    cblReady (cobbler (cw 0x3E 0 0 0 0) 0 0 0) 0 0x3E (cw 0x3E 0 0 0 0) = true := by decide

/-- Cobbler 15 has an SRRD, or a SUBMIT, whose cc has come. -/
theorem test_w_cobbler_late : ∀ b ∈ [false, true], let l : CblLate := { submit := b, rd := 15 }
    let s : State := { rig with cbls := [(15, { running := true, late := [l] })] }
    cblOk s = true ∧ s.runs = true ∧ (∀ j, j < 16 → j ≠ 15 → (s.cbl j).late = []) ∧ (s.cbl 15).late = [l] ∧ l.due ≤ s.now := by decide

theorem test_w_cobbler_fetch : cWord (cobbler 0xFFFFFFFF 0 0 0) 0 = some 0xFFFFFFFF ∧ cLegal 0xFFFFFFFF = false ∧ 2 ≤ (cobbler 0 0 0 0).eff 64 ∧
    (let s : State := { rig with now := 12, cbls := [(0, { running := true, len := 1, lines := [{ no := 0 }] })] }
     (s.cbl 0).lines.find? (fun l => l.bytes.isNone) = some { no := 0 } ∧ s.runs = true ∧ (s.cbl 0).running = true ∧ 0 + 12 ≤ s.now ∧
     xlate s 0 0 128 = some (2 ^ 21) ∧ (2 ^ 21) % 128 = 0 ∧ dcacheHolds s (2 ^ 21 / 128) = false ∧ dcacheErr s (2 ^ 21 / 128) = .clean) ∧
    cblPath (cobbler 0 0 0 0) 0 4 = true := by decide

theorem test_w_lines_quiet : hbmQuiet rig (2 ^ 21) 128 ∧ hbmQuiet (stored 0x05) (2 ^ 21 + 128) 128 ∧ hbmQuiet portUp (2 ^ 22 - 64) 64 :=
  ⟨hbmQuiet_of _ _ _ (by decide), hbmQuiet_of _ _ _ (by decide), hbmQuiet_of _ _ _ (by decide)⟩


/-! Values, tiles, Awl units, retirement and events -/

/-- Every opcode of the element statement meets its premises, 1/3, −2 and 5 being finite values. -/
theorem test_w_elements : let a : Machine.Num := { num := 1, den := 3 }; let b : Machine.Num := { neg := true, num := 2 }; let c : Machine.Num := { num := 5 }
    a.fin = true ∧ b.fin = true ∧ c.fin = true ∧ 0 < a.den ∧ 0 < b.den ∧ 0 < c.den ∧ b.num ≠ 0 ∧
    (∀ op ∈ [0x10, 0x11, 0x12, 0x13, 0x14, 0x15, 0x16, 0x20, 0x21, 0x25, 0x26], dOpcode (dsc op true 0 0 0) = op) := by decide

/-- Each format holds its largest code that is not a NaN. -/
theorem test_w_formats : ∀ f ∈ formats, (fmtDecode f 1).nan = false ∧ 1 < 2 ^ (1 + f.e + f.m) := by decide

/-- 1 + 2^-11 of FP16 rounds to 1, without saturation. -/
theorem test_w_rounding : let x : Machine.Num := { num := 2049, den := 2048 }
    fmtFP16 ∈ formats ∧ x.fin = true ∧ 0 < x.den ∧ (fmtDecode fmtFP16 0x3C01).fin = true ∧ (fmtEncode fmtFP16 false x).bits = 0x3C00 ∧
    (fmtEncode fmtFP16 false x).sat = false ∧ (fmtDecode fmtFP16 (fmtEncode fmtFP16 false x).bits).fin = true := by decide

/-- NEG of FP32 of 64 elements in flight, its source OWN or not, its one tile dealt or not. -/
def negFlight (own dealt : Bool) : Flight :=
  { words := (((dsc 0x21 true 0 0 0).set 1 (2 ^ 60)).set 2 (2 ^ 40)), recs := [some (rec1 0 64 own), none, none, none, some (rec1 0 64 false)]
    tiles := 1, dealt := if dealt then 1 else 0 }

/-- `rig` with that flight, VC 63 of tenant 0; owner entry 0 is REMOTE at port 0. -/
def tiled (own dealt : Bool) : State :=
  { rigQ { flight := [negFlight own dealt], nextSeq := 1 } with
    now := 12
    vcs := if dealt then [(63, { tiles := [{}, { no := 1 }] })] else [(63, { tiles := [{}, {}, {}] })]
    tab := [(tabKey 7 0 0, 2 ^ 31), (tabKey 7 0 1, 64)]
    tabF := [(tabKey 1 0 1, 0), (tabKey 1 0 2, 2 ^ 31), (tabKey 1 0 3, 8 * 2 ^ 16 + 2 ^ 27), (tabKey 3 0 0, 2 ^ 31), (tabKey 3 0 2, 1),
             (tabKey 3 0 3, 1), (tabKey 5 0 0, 0x120)] }

theorem test_w_tile_deal : let s := tiled false false; let f := negFlight false false
    s.runs = true ∧ dealNow s 0 = some (f, 63) ∧ s.qTimed 0 = false ∧ turnOf s 63 = some (s.qTen 0) := by decide

theorem test_w_tile_execute : (tiled false true).runs = true ∧ ((tiled false true).vc 63).tiles = [{}, { no := 1 }] ∧
    (tiled false true).flightAt 0 0 = some (negFlight false true) ∧ awlTurn (tiled false true) 63 {} = true ∧
    linesHere (negFlight false true) (tileNeeds (tiled false true) 0 63 (negFlight false true) 0) = true ∧
    clsOf (negFlight false true).words ≠ .red ∧ clsOf (negFlight false true).words ≠ .redsfu ∧ dOpcode (negFlight false true).words ≠ 0x93 ∧
    (negFlight false true).tiles ≤ (negFlight false true).done + 1 ∧
    (tiled true true).runs = true ∧ (tiled true true).flightAt 0 0 = some (negFlight true true) ∧
    linesHere (negFlight true true) (tileNeeds (tiled true true) 0 63 (negFlight true true) 0) = false := by decide +kernel

/-- A SCATTER of queue 0 in flight and its job at home 0, `n` contributions of tile 1 held there; AWL7's messages to AWL0 are `ms`. -/
def scattering (ms held : List ScMsg) (sus : List Tile) (tiles applied : Nat) : State :=
  { rigQ { flight := [{ words := dsc 0x93 true 0 0 0, tiles := tiles }], nextSeq := 1 } with
    awls := [(0, { jobs := [{ held := held, applied := applied }] }), (7, { out := [(0, ms)], suspended := sus })] }

theorem test_w_contribution : let m : ScMsg := {}; let s := scattering [m] [] [] 2 0; let n : ScMsg := { tile := 1 }; let t := scattering [n] [] [] 2 0
    s.runs = true ∧ nextMsg s 7 0 = some m ∧ m.marker = false ∧ jobOf (s.awl 0) m = some {} ∧ accepts (s.awl 0) m = true ∧ atHead (s.awl 0) {} m = true ∧
    nextMsg t 7 0 = some n ∧ jobOf (t.awl 0) n = some {} ∧ accepts (t.awl 0) n = true ∧ atHead (t.awl 0) {} n = false := by decide

/-- The SCATTER's destination record is `d`, its COMB `c`; owner entry 0 is REMOTE. -/
def scatterTo (d : LastRec) (c : Nat) : Flight :=
  { words := (dsc 0x93 true 0 0 0).set 0 (2 ^ 56 + c * 2 ^ 52 + 0x193), tiles := 1, recs := [none, none, none, none, some d] }
def scatterState (f : Flight) (m : List ScMsg) (j : ScJob) : State :=
  { scattering m [] [] 1 1 with
    queues := [(0, { valid := true, flight := [f], nextSeq := 1 })], tab := (tiled true true).tab, tabF := (tiled true true).tabF
    awls := [(0, { jobs := [j] }), (7, { out := [(0, m)] })] }

/-- A COMB that combines, a WRITE that waits for the write-back and one that does not; a table that needs a remote line. -/
theorem test_w_contribution_kinds : (let f := scatterTo (rec1 0 64 false) 1; let s := scatterState f [{}] {}; s.flightAt 0 0 = some f ∧ scComb f ≠ 0) ∧
    (let f := scatterTo (rec1 0 64 true) 0; let s := scatterState f [{}] {}
     s.flightAt 0 0 = some f ∧ scComb f = 0 ∧ writeWaits (viewAt s f (dstMark 0)) (s.qTen 0) 0 (rec1 0 64 true) (unflat (rSizes (rec1 0 64 true)) 0) = true) ∧
    (let f := scatterTo (rec1 0 64 false) 0; let s := scatterState f [{}] {}
     s.flightAt 0 0 = some f ∧ writeWaits (viewAt s f (dstMark 0)) (s.qTen 0) 0 (rec1 0 64 false) (unflat (rSizes (rec1 0 64 false)) 0) = false) ∧
    (let f := scatterTo (rec1 0 64 true) 1; let s := scatterState f [] { applied := 1, table := [{}] }
     s.flightAt 0 0 = some f ∧ f.tiles ≤ 1 ∧ linesHere f (wbNeeds s 0 f (wbKept s 0 f { applied := 1, table := [{}] })) = false) := by decide +kernel

/-- The buffer holds 7,168: a contribution of a later tile is refused. -/
theorem test_w_contribution_refused : let n : ScMsg := { tile := 1 }; let s := scattering [n] (List.replicate 7168 n) [] 2 0
    nextMsg s 7 0 = some n ∧ n.marker = false ∧ accepts (s.awl 0) n = false :=
  ⟨rfl, rfl, by
    have h : ∀ l : List ScMsg, l.length = 7168 → accepts ((scattering [({ tile := 1 } : ScMsg)] l [] 2 0).awl 0) { tile := 1 } = false := fun l hl => by
      show (_ || decide (List.sum [l.length] < 7168)) = false
      simp [hl, atHead]
    exact h _ List.length_replicate⟩

theorem test_w_end_marker : let m : ScMsg := { marker := true }; let s := scattering [m] [] [] 2 0; let n : ScMsg := { marker := true, tile := 1 }
    nextMsg s 7 0 = some m ∧ jobOf (s.awl 0) m = some {} ∧ atHead (s.awl 0) {} m = true ∧
    nextMsg (scattering [n] [] [] 2 0) 7 0 = some n ∧ atHead ((scattering [n] [] [] 2 0).awl 0) {} n = false := by decide

theorem test_w_tile_resume : let n : ScMsg := { tile := 1 }; let s := scattering [n] [] [{ no := 1 }] 2 0
    (s.awl 7).suspended = [{ no := 1 }] ∧ nextMsg s 7 0 = none ∧
    (∀ z, z < 8 → ((awlOut s 7 z).find? fun m => ofTile m { no := 1 }).all (fun m => m.marker || accepts (s.awl z) m) = true) := by decide

theorem test_w_writeback : let s := scattering [] [] [] 1 1; let f : Flight := { words := dsc 0x93 true 0 0 0, tiles := 1 }
    s.runs = true ∧ (s.awl 0).jobs = [{ applied := 1 }] ∧ s.flightAt 0 0 = some f ∧ f.tiles ≤ 1 ∧ linesHere f (wbNeeds s 0 f { applied := 1 }) = true ∧
    (∀ z, z < 8 → z ≠ 0 → (s.awl z).jobs.any (fun x => x.queue == 0 && x.seq == 0) = false) := by decide

/-- A reduction (RSUM) all of whose tiles have run. -/
theorem test_w_combine : let f : Flight := { words := (dsc 0x50 true 0 0 0).set 0 (2 ^ 56 + 2 ^ 48 + 0x150), tiles := 1, done := 1, recs := [some (rec1 0 4 false), none, none, none, some (rec1 0 1 false)] }
    let s := rigQ { flight := [f] }
    s.runs = true ∧ (s.q 0).flight.find? (fun f => (clsOf f.words == .red || clsOf f.words == .redsfu) && !f.combined && decide (f.tiles ≤ f.done)) = some f ∧
    s.flightAt 0 f.seq = some f := by decide

/-- A SET of tack 5 and a NEG with SR_OUT 3, ready to retire. -/
theorem test_w_retire : let f : Flight := { words := dsc 4 false (5 * 2 ^ 16) 65535 0, params := [5 * 2 ^ 16, 65535, 0, 0, 0] }; let s := rigQ { flight := [f] }
    let g : Flight := { words := (dsc 0x21 false 0 0 0).set 14 (2 ^ 55 + 3 * 2 ^ 48), complete := true, srOut := some 7 }; let t := rigQ { flight := [g] }
    s.runs = true ∧ (s.q 0).flight = [f] ∧ flightDone s 0 f = true ∧ dOpcode f.words = 4 ∧ bits (f.params.getD 0 0) 3 0 < 2 ∧ f.abandoned = false ∧
    dSrOut f.words = none ∧ dNotify f.words = false ∧
    t.runs = true ∧ flightDone t 0 g = true ∧ dOpcode g.words ≠ 4 ∧ dSrOut g.words = some 3 ∧ srValue g = some 7 := by decide

theorem test_w_tack : let s : State := { rig with tacks := [(1023, { value := 65535 })] }
    (s.tack 1023).value ≤ 65535 ∧ (65535 : Nat) < (s.tack 1023).value + 1 ∧ (s.tack 0).value ≤ 65535 := by decide

/-- VC 63's event plane in step 1 of `rig`, with those due events. -/
def eventing (filed : List DelayEv) (extra : List Nat) (st : EState) : State :=
  { rig with epc := { rig.epc with state := st, closeAt := 0 }, vcs := [(63, { evValid := true, delivEnd := false, delay := [(1, filed)], extra := extra })] }

theorem test_w_deliver : let s := eventing [{ addr := 64 }] [] .opened; let t := eventing [] [64] .opened
    delivering s 63 = true ∧ dueCount s 63 ≠ 0 ∧ dueFiled s 63 s.epc.count = [{ addr := 64 }] ∧
    delivering t 63 = true ∧ dueCount t 63 ≠ 0 ∧ dueFiled t 63 t.epc.count = [] ∧ (t.vc 63).extra.head? = some 64 ∧
    axonOf ((List.range 32).map fun i => s.sramByte (evAbase s 63 + 32 * 1 + i)) 64 = none := by decide +kernel

theorem test_w_deliver_quiet : sramQuiet (eventing [{ addr := 64 }] [] .opened) (evAbase (eventing [{ addr := 64 }] [] .opened) 63 + 32) 32 :=
  sramQuiet_of _ _ _ (by decide +kernel)

theorem test_w_delivery_end : let s := eventing [{ addr := 64 }] [64] .drain; let t := { eventing [] [] .drain with regsF := [(0x0780, 1)] }
    s.runs = true ∧ s.epc.state = .drain ∧ (s.vc 63).evValid = true ∧ (s.vc 63).delivEnd = false ∧ s.isOn 63 = true ∧ bit (s.regF' 0x0780) 0 = false ∧
    t.runs = true ∧ t.epc.state = .drain ∧ bit (t.regF' 0x0780) 0 = true ∧ dueCount t 63 = 0 ∧ (t.vc 63).delivEnd = false ∧
    t.epc.closeAt + t.reg 0x0784 ≤ { t with now := 2 ^ 32 }.now := by decide

/-! Links -/

/-- `rig` with port `p` in a state. -/
def atPort (p : Nat) (x : PortSt) : State := { rig with ports := [(p, x)], now := 2 ^ 20 }

theorem test_w_flit_slot : (∀ st ∈ [PState.align, .hello, .up, .fenced], (atPort 8 { state := st }).linkOn = true ∧
    (((atPort 8 { state := st }).port 8).state = .align ∨ linkState ((atPort 8 { state := st }).port 8).state = true)) := by decide

/-- A flit of 256 bytes: header, content, and the CRC-32 of the rest, changed by `d`. -/
def flitOf (hdr : Nat) (d : Byte) : List Byte :=
  let b := leBytes 8 hdr ++ List.replicate 244 0
  b ++ ((leBytes 4 (crc32 b)).map (· ^^^ d))

/-- A MSG flit of SEQ 4095, channel EV, no message boundary. -/
def msgHdr (seq : Nat) : Nat := 2 ^ 60 + seq * 2 ^ 48 + 3 * 2 ^ 32

theorem test_w_flit_receive : let s := atPort 0 { state := .up, rxSeq := 4095, gap := true, nak := true }; let fl := flitOf (msgHdr 4095) 0
    s.linkOn = true ∧ (s.port 0).state = .up ∧ fl.length = 256 ∧ word64At fl 0 = msgHdr 4095 ∧ crc32 (fl.take 252) = leNat (fl.drop 252) ∧
    (s.port 0).authEn = false ∧ bits (msgHdr 4095) 63 60 = 1 ∧ flitReserved fl = false ∧ bit (msgHdr 4095) 35 = false ∧
    bits (msgHdr 4095) 59 48 = (s.port 0).rxSeq := by decide +kernel

theorem test_w_flit_duplicate : let s := atPort 0 { state := .up, rxSeq := 0 }; let fl := flitOf (msgHdr 3584) 0
    fl.length = 256 ∧ word64At fl 0 = msgHdr 3584 ∧ crc32 (fl.take 252) = leNat (fl.drop 252) ∧
    bits (msgHdr 3584) 59 48 ≠ (s.port 0).rxSeq ∧ ((s.port 0).rxSeq + 4096 - bits (msgHdr 3584) 59 48) % 4096 = 512 := by decide +kernel

theorem test_w_flit_corrupt : let s := atPort 0 { state := .up }; let fl := flitOf (msgHdr 0) 1
    fl.length = 256 ∧ crc32 (fl.take 252) ≠ leNat (fl.drop 252) ∧ (s.port 0).gap = false := by decide +kernel

theorem test_w_replay : let s := atPort 8 { state := .hello, gap := true, heldFl := [{}], replays := 7 }
    let t := { s with ports := [(8, { (s.port 8) with replays := 8 })], regs := mset zeroNat s.regs 0x0464 8 }
    s.linkOn = true ∧ linkState (s.port 8).state = true ∧ (s.port 8).gap = true ∧ (s.port 8).nakAt ≤ s.now ∧ (s.port 8).heldFl ≠ [] ∧
    (s.port 8).ackAt ≤ s.now ∧ (s.port 8).replays < atLeast1 (bits (t.lreg 8 0x031C 0x0464) 7 0) ∧
    atLeast1 (bits (t.lreg 8 0x031C 0x0464) 7 0) ≤ (t.port 8).replays ∧ (t.port 8).heldFl ≠ [] := by decide

theorem test_w_port_commands : r0.mspOn = true ∧ (∀ p : Fin 8, (r0.port p).state = .disabled) ∧
    (atPort 8 { state := .down }).mspOn = true ∧ ((atPort 8 { state := .down }).port 8).state ≠ .disabled ∧ twinEn r0 = false ∧ (r0.port 8).state = .disabled ∧
    (r0.port 7).state ≠ .quarantined ∧ ((atPort 7 { state := .quarantined }).port 7).state = .quarantined ∧ (atPort 7 { state := .quarantined }).mspOn = true := by
  decide

theorem test_w_port_timers : let s (st : PState) (l : Nat) : State := atPort 0 { state := st, locked := l }
    (s .down 0).linkOn = true ∧ ((s .down 0).port 0).limit ≤ (s .down 0).now ∧ 2 ≤ ((s .down 0).unit 92).force ∧
    ((s .training 7).port 0).state = .training ∧ (fullLanes 0).testBit 3 = true ∧ (7 ||| 2 ^ 3) = fullLanes 0 ∧ (1 ||| 2 ^ 3) ≠ fullLanes 0 ∧
    gainsLock (List.replicate 3 .clean) = true ∧ gainsLock [.clean, .clean] = false ∧ losesLock (List.replicate 8 .bad) = true ∧ losesLock (List.replicate 7 .bad) = false ∧
    ((s .training 0).port 0).limit ≤ (s .training 0).now ∧ bestSet 0 0 = 0 ∧ bestSet 0 ((s .training 4).port 0).locked ≠ 0 ∧
    ((s .align 0).port 0).limit ≤ (s .align 0).now ∧ ((s .hello 0).port 0).limit ≤ (s .hello 0).now ∧ (s .hello 0).linkOn = true := by decide

theorem test_w_lanes : let f : Lctrl := { ltype := 3, lanes := 12 }; let g : Lctrl := { ltype := 4 }
    let s := atPort 0 { state := .up, lanes := 0xF, lcRx := [f] }; let o := atPort 0 { state := .up, lanes := 1, lcRx := [f] }
    let n := atPort 0 { state := .up, lanes := 0xF, newLanes := some 3, mapDone := true, heldFl := [{}], lcRx := [g] }
    s.linkOn = true ∧ linkState (s.port 0).state = true ∧ (fullLanes 0).testBit 3 = true ∧ (s.port 0).lanes.testBit 3 = true ∧
    laneFails s 0 (List.replicate 8 .bad) = true ∧
    bestSet 0 ((s.port 0).lanes &&& (fullLanes 0 ^^^ 2 ^ 3)) = 3 ∧ (o.port 0).lanes.testBit 0 = true ∧ bestSet 0 ((o.port 0).lanes &&& (fullLanes 0 ^^^ 2 ^ 0)) = 0 ∧
    (s.port 0).lcRx = f :: [] ∧ f.ltype = 3 ∧ bestSet 0 ((s.port 0).lanes &&& f.lanes) = 12 ∧ (o.port 0).lcRx = f :: [] ∧ bestSet 0 ((o.port 0).lanes &&& f.lanes) = 0 ∧
    (n.port 0).lcRx = g :: [] ∧ g.ltype = 4 ∧ (n.port 0).newLanes = some 3 ∧ (n.port 0).mapDone = true ∧ (n.port 0).lctrl.any (fun e => e.1 == 4) = false ∧
    (n.port 0).cwSeq = 0 ∧ (n.port 0).replays < atLeast1 (bits (n.lreg 0 0x031C 0x0464) 7 0) := by decide

theorem test_w_align : let f : Lctrl := { ltype := 1, lanes := 3, crMg := 4, crRs := 4, crRq := 4, crEv := 255 }; let g : Lctrl := { ltype := 2, lanes := 3 }
    let s := atPort 0 { state := .align, lanes := 0xF, lcRx := [f] }; let d := atPort 0 { state := .align, lanes := 3, alignRx := true, doneTx := true, lcRx := [g] }
    s.linkOn = true ∧ (s.port 0).state = .align ∧ (s.port 0).lcRx = f :: [] ∧ f.ltype = 1 ∧ (s.port 0).authEn = false ∧ f.auth = false ∧
    4 ≤ f.crMg ∧ 4 ≤ f.crRs ∧ 4 ≤ f.crRq ∧ 4 ≤ f.crEv ∧ (s.port 0).lanes &&& f.lanes ≠ 0 ∧
    ({ f with auth := true } : Lctrl).auth ≠ (s.port 0).authEn ∧ ({ f with crEv := 3 } : Lctrl).crEv < 4 ∧ (s.port 0).lanes &&& ({ f with lanes := 0x30 } : Lctrl).lanes = 0 ∧
    (d.port 0).lcRx = g :: [] ∧ g.ltype = 2 ∧ (d.port 0).alignRx = true ∧ g.lanes = (d.port 0).lanes ∧ (d.port 0).doneTx = true ∧
    ((atPort 0 { state := .align, lanes := 3, alignRx := true, lcRx := [g] }).port 0).doneTx = false := by decide

/-- A HELLO of node 5 that echoes nonce 9, for TP in HELLO, whose partner is node 5. -/
def helloFive (code : Nat) : Msg :=
  { type := 0x01, src := 5, len := 32, payload := leBytes 8 (code * 2 ^ 32 + 5) ++ leBytes 8 11 ++ leBytes 8 9 ++ leBytes 8 0 }
def helloTp : State := { atPort 8 { state := .hello, nonce := 9 } with regs := mset zeroNat (mset zeroNat rig.regs 0x040C 5) 0x0400 0 }

theorem test_w_hello : let s := helloTp; let m := helloFive 0x0C1A6402
    s.linkOn = true ∧ (s.port 8).state = .hello ∧ rxNext s 8 0 m = true ∧ rxNext s 8 0 (helloFive 0) = true ∧ helloFits (takeRx s 8 0 m) m = true ∧ mword m 2 ≠ 0 ∧
    helloCause ((takeRx s 8 0 m).modPort 8 fun y => { y with peerNonce := mword m 1, echoed := y.echoed && y.peerNonce == mword m 1 }) 8 m = 0 ∧
    helloFits (takeRx s 8 0 (helloFive 0)) (helloFive 0) = true ∧
    helloCause ((takeRx s 8 0 (helloFive 0)).modPort 8 fun y => { y with peerNonce := 11, echoed := y.echoed && y.peerNonce == 11 }) 8 (helloFive 0) = 5 ∧
    (s.port 8).helloAt ≤ s.now := by decide

theorem test_w_heartbeat : let s := atPort 0 { state := .fenced }; let m : Msg := { type := 0x02, len := 8, payload := leBytes 8 0 }
    s.linkOn = true ∧ linkState (s.port 0).state = true ∧ (s.port 0).hbTxAt ≤ s.now ∧ (s.port 0).hbRxAt ≤ s.now ∧ msgFits s m 0x02 8 = true ∧
    bits (mword m 0) 43 40 = 0 ∧ rxNext s 0 0 m = true := by decide

theorem test_w_strikes : let s := atPort 0 { state := .up, stallAt := some 7, chans := [(0, { tx := [{}] })], strikes := 250 }
    s.linkOn = true ∧ stalls (s.port 0) = true ∧ (s.port 0).stallAt = some 7 ∧ 7 ≤ s.now ∧ s.twB 9 0 0 27 20 = 0 ∧ (s.port 0).refillAt ≤ s.now ∧
    (s.now - s.power.porstAt) % 2 ^ 20 = 0 ∧ s.power.porstAt < s.now ∧ s.cc.leaked = false ∧ linkState (s.port 0).state = true ∧ (s.port 0).state = .up ∧
    (let u : State := s.setCc { s.cc with leaked := true }; u.linkOn = true ∧ u.cc.leaked = true) := by decide +kernel

/-- A READ that came on channel EV, at an UP port or behind a fence; a SUBMIT_RSP and a CTRL_ACK of the right form. -/
theorem test_w_malformed : ∀ st ∈ [PState.up, .fenced], let m : Msg := { type := 0x10, len := 8, payload := leBytes 8 0 }
    let s := atPort 0 { state := st, chans := [(3, { rx := [{ msg := m }] })] }; let a : Msg := { type := 0x22, len := 24, payload := List.replicate 24 0 }
    let c : Msg := { type := 0x23, len := 8, payload := List.replicate 8 0 }
    linkState (s.port 0).state = true ∧ badHead s 0 m = some 3 ∧ s.twB 9 0 0 27 20 = 0 ∧ rxNext s 0 1 a = true ∧ lateFits s a = true ∧ rxNext s 0 1 c = true ∧
    lateFits s c = true := by decide +kernel

/-- Queue 0's oldest descriptor has asked port 0 for two lines, unsent or sent. -/
def asking (write : Bool) (due : Option Nat) : State :=
  { rigQ { flight := [{ remote := 1 }], nextSeq := 1 } with
    now := 2 ^ 20 - 1, ports := [(0, { state := .up, rsvHeads := 255, rsvUnits := 1022, reqs := [{ txn := 7, write := write, who := .flight 0 0, nlines := 2, due := due }] })] }

theorem test_w_requests : let s := asking false none; let t := asking false (some (2 ^ 20)); let w := asking true (some (2 ^ 20))
    let r : Req := { txn := 7, who := .flight 0 0, nlines := 2 }; let rd : Req := { r with due := some (2 ^ 20) }; let wd : Req := { rd with write := true }
    let m : Msg := { type := 0x20, txn := 7, tag := 0, len := 136, payload := leBytes 8 3 ++ List.replicate 128 9 }; let a : Msg := { type := 0x21, txn := 7, tag := 0 }
    s.linkOn = true ∧ (s.port 0).reqs.find? (fun r => r.due.isNone) = some r ∧ s.halted = false ∧ (s.port 0).state = .up ∧ (s.port 0).rsvHeads < 256 ∧
    (s.port 0).rsvUnits + r.nlines ≤ 1024 ∧
    (t.port 0).reqs.find? (fun r => r.txn == 7) = some rd ∧ rd.due = some (2 ^ 20) ∧ 2 ^ 20 ≤ ({ t with now := 2 ^ 20 } : State).now ∧
    rxNext t 0 1 m = true ∧ rxNext w 0 1 a = true ∧
    (t.port 0).reqs.find? (fun r => r.txn == m.txn && r.due.any fun d => decide (t.now < d)) = some rd ∧ rd.who = .flight 0 0 ∧ t.flightAt 0 0 = some { remote := 1 } ∧
    m.status = 0 ∧ m.tenant = rd.tenant ∧ m.tag = rd.tag ∧ rd.write = false ∧ msgFits t m 0x20 (8 + 64 * rd.nlines) = true ∧ mword m 0 < 2 ^ rd.nlines ∧
    (let u : State := { s with ports := [(0, { (s.port 0) with state := .down })] }; (u.port 0).state ≠ .up ∧ (u.port 0).reqs.find? (fun r => r.due.isNone) = some r) ∧
    (let e : Msg := { m with status := 2, len := 8, payload := List.replicate 8 0 }; e.status ≠ 0 ∧ msgFits t e 0x20 8 = true ∧ mword e 0 = 0 ∧ rxNext t 0 1 e = true) ∧
    msgFits w { a with status := 2 } 0x21 0 = true ∧ rxNext w 0 1 { a with status := 2 } = true ∧
    (w.port 0).reqs.find? (fun r => r.txn == a.txn && r.due.any fun d => decide (w.now < d)) = some wd ∧ wd.write = true ∧ msgFits w a 0x21 0 = true ∧ a.tag = wd.tag := by decide +kernel

/-! Partners -/

/-- A READ of `n` + 1 lines at tenant address `a` of tenant `t`. -/
def readMsg (t a n : Nat) : Msg := { type := 0x10, tenant := t, len := 8, payload := leBytes 8 (n * 2 ^ 48 + a) }

/-- Port 0 UP with tenant 0's rights and QRATE `q`, its bucket empty. -/
def quota (q : Nat) : State := { portUp with ports := [(0, { state := .up, qrate := q })] }

theorem test_w_partner : let s := portUp; let m := readMsg 0 (2 ^ 21 - 64) 0
    s.linkOn = true ∧ (s.port 0).state = .up ∧ rxNext s 0 2 m = true ∧ s.halted = false ∧ egressRoom s 0 1 (readLines m) = true ∧
    s.twB 9 0 0 27 20 = 0 ∧ m.fits = true ∧ (readFits s m && m.src == expNode s 0 && m.status == 0 && m.fault == 0) = true ∧
    bit (s.tw 9 0 2) m.tenant = true ∧ isReplica s m.tenant = false ∧ (s.port 0).qrate = 0 ∧ linesOf s 0 (bits (mword m 0) 39 0) (readLines m) = some [2 ^ 22 - 64] ∧
    someOff s [2 ^ 22 - 64] = false ∧ journals s = false ∧ (2 ^ 22 - 64) % 64 = 0 ∧ m.src = expNode s 0 ∧
    readFits s (readMsg 0 32 0) = false ∧ bit (s.tw 9 0 2) (readMsg 31 0 0).tenant = false ∧ readFits s (readMsg 31 0 0) = true ∧
    linesOf s 0 (bits (mword (readMsg 0 (2 ^ 21 - 64) 1) 0) 39 0) 2 = none ∧ readFits s (readMsg 0 (2 ^ 21 - 64) 1) = true ∧
    isReplica { s with twn := { mode := 1 } } 0 = true := by decide

theorem test_w_partner_quota : rxNext (quota 1) 0 2 (readMsg 0 0 0) = true ∧ takeToken (quota 1) 0 0 = none ∧ bit ((quota 1).tw 9 0 2) 0 = true ∧ (quota 1).linkOn = true := by decide

/-- HC0 OFF. -/
theorem test_w_partner_off : let s := { portUp with units := [(88, { obs := 0, force := 0 })] }
    s.linkOn = true ∧ linesOf s 0 0 1 = some [2 ^ 21] ∧ (someOff s [2 ^ 21] || someOff s [2 ^ 21 + 64] || someOff s [2 ^ 21 + 128] || someOff s [2 ^ 21 + 192]) = true := by
  decide

/-- A WRITE of one line. -/
def writeMsg : Msg := { type := 0x11, len := 80, payload := leBytes 8 0 ++ leBytes 8 0 ++ List.replicate 64 7 }

theorem test_w_partner_write : writeFits portUp writeMsg = true ∧ writeMsg.fits = true ∧ egressRoom portUp 0 1 0 = true ∧ bit (portUp.tw 9 0 3) 0 = true ∧
    rxNext portUp 0 2 writeMsg = true ∧ linesOf portUp 0 (bits (mword writeMsg 0) 39 0) (readLines writeMsg) = some [2 ^ 21] ∧ [2 ^ 21].Nodup ∧ (2 ^ 21) % 64 = 0 ∧ someOff portUp [2 ^ 21] = false := by decide

/-- A TACK_SET of tack 7 with 65,535, MODE WRITE or not. -/
def tackMsg (write : Bool) : Msg := { type := 0x13, len := 8, payload := leBytes 8 (0xFFFF * 2 ^ 48 + (if write then 2 ^ 40 else 0) + 7) }
/-- `portUp` with tack 7's configuration. -/
def tackCfg (v : Nat) : State := { portUp with tabF := portUp.tabF ++ [(tabKey 6 7 0, v)] }

theorem test_w_tack_set : let s := tackCfg (2 ^ 31 + 2 ^ 30); let m := tackMsg true; let k := 7
    s.linkOn = true ∧ (s.port 0).state = .up ∧ s.halted = false ∧ m.src = expNode s 0 ∧ egressRoom s 0 1 0 = true ∧ (s.port 0).qrate = 0 ∧
    rxNext s 0 2 m = true ∧ rxNext s 0 2 (tackMsg false) = true ∧ isReplica s m.tenant = false ∧ bits (mword m 0) 9 0 = k ∧ msgFits s m 0x13 8 = true ∧ bits (mword m 0) 47 42 = 0 ∧ bits (mword m 0) 39 10 = 0 ∧ bit (s.tw 9 0 4) m.tenant = true ∧
    s.ownsTack m.tenant k = true ∧ bit (s.tf 6 k 0) 31 = true ∧ bit (mword m 0) 40 = true ∧ bit (s.tf 6 k 0) 30 = true ∧
    bit ((tackCfg 0).tf 6 k 0) 31 = false ∧ bit ((tackCfg (2 ^ 31)).tf 6 k 0) 30 = false ∧ (tackCfg (2 ^ 31)).ownsTack 0 k = true ∧
    msgFits s (tackMsg false) 0x13 8 = true ∧ bit (mword (tackMsg false) 0) 40 = false := by decide

theorem test_w_epoch_ctrl : let s := { portUp with regs := mset zeroNat portUp.regs 0x0218 1 }; let m : Msg := { type := 0x14, len := 8, payload := leBytes 8 1 }
    rxNext s 0 2 m = true ∧ msgFits s m 0x14 8 = true ∧ mword m 0 = 1 ∧ m.tenant = 0 ∧ bit (s.tw 9 0 0) 28 = true ∧ bit (s.reg 0x0218) 0 = true ∧ s.epc.state = .opened ∧
    s.linkOn = true ∧ (s.port 0).state = .up ∧ m.src = expNode s 0 ∧ bit (({ portUp with regs := mset zeroNat portUp.regs 0x0218 0 } : State).reg 0x0218) 0 = false := by decide

/-- A batch of two events due in step `d` of tenant 0 or `t`, for VC 63 with REMOTE_EN. -/
def batchMsgTo (t d : Nat) : Msg :=
  { type := 0x30, len := 16, payload := leBytes 8 (2 * 2 ^ 50 + t * 2 ^ 40 + d) ++ leBytes 4 64 ++ leBytes 4 128 }
def batchUp (used : Nat) : State :=
  { portUp with
    vcs := [(63, { evValid := true, delivEnd := false, delay := if used = 0 then [] else [(1, List.replicate used {})] })]
    tabF := portUp.tabF ++ [(tabKey 8 (64 * 63 + 63) 0, 2 ^ 30)] }

theorem test_w_batch : let s := batchUp 0; let m := batchMsgTo 0 1
    s.linkOn = true ∧ (s.port 0).state = .up ∧ rxNext s 0 3 m = true ∧ s.halted = false ∧ s.frozen = false ∧ batchFits s m = true ∧ m.status = 0 ∧ m.fault = 0 ∧ delivOver s 63 = false ∧
    bit (s.tw 9 0 5) (bits (mword m 0) 44 40) = true ∧ hubOn s = true ∧ evEnabled s 0 63 = true ∧ evRemote s 63 = true ∧ s.isOn 63 = true ∧
    bits (mword m 0) 39 0 = s.epc.count ∧ (s.vc 63).delivEnd = false ∧
    batchFits s (batchMsgTo 0 17) = true ∧ s.epc.count < 17 ∧ 17 ≤ s.epc.count + 16 ∧ (delaySlot s 63 (17 % 16)).length + 2 ≤ 4096 ∧
    batchFits s (batchMsgTo 1 1) = true ∧ bit (s.tw 9 0 5) (bits (mword (batchMsgTo 1 1) 0) 44 40) = false := by decide

/-- Stream channel 7 of tenant 0 at port 0: FRAME mode, 2^10-byte slots; its frame open, `b` bytes in it. -/
def streamUp (b : Nat) (unpub : List Unpub) : State :=
  { portUp with
    strs := [(7, { valid := true, frame := some { bytes := b }, unpub := unpub, wr := 2 ^ 32 - 1 })]
    tabF := portUp.tabF ++ [(tabKey 0x0B 7 2, 2 * 2 ^ 19 + 10 * 2 ^ 14)] }
def streamMsg : Msg := { type := 0x31, len := 16, payload := leBytes 8 7 ++ leBytes 8 (2 ^ 64 - 1) }

theorem test_w_stream : let s := streamUp 956 []; let m := streamMsg
    s.linkOn = true ∧ (s.port 0).state = .up ∧ rxNext s 0 3 m = true ∧ s.halted = false ∧ streamFits s 0 m = true ∧ stageRoom s 7 (msgFlits s 0 3 m) = true ∧ m.status = 0 ∧ m.fault = 0 ∧
    bits (mword m 0) 2 0 = 7 ∧ strEvent s 7 = false ∧ bit (mword m 0) 8 = false ∧ bit (mword m 0) 9 = false ∧
    (s.str 7).frame = some { bytes := 956 } ∧ strSlot s 7 - 64 - 956 = 4 := by decide

theorem test_w_publish : ∀ k ∈ [0, 2 ^ 15], let u : Unpub := { n := 1, words := [k, 0, 2 * 2 ^ 19 + 10 * 2 ^ 14] }; let s := streamUp 0 [u, {}]; let o := strView s 7 u.words
    (s.str 7).unpub = u :: [{}] ∧ s.live = true ∧ noAcc s (.stream 7) = true ∧ bit (o.tf 0x0B 7 0) 15 = decide (k ≠ 0) ∧ s.tenRun (strTen o 7) = true ∧
    findWin s (strTen o 7) (strBase o 7) 64 = some 0 ∧ winProt s (strTen o 7) 0 = false ∧ paOf s (strTen o 7) 0 (strBase o 7) = 2 ^ 21 ∧ (2 ^ 21) % 64 = 0 ∧
    s.eff (88 + stackOf (2 ^ 21)) = 3 ∧ ccBehind s.cc.hbm (2 ^ 21 / 64) (hbmRank (strAgent o 7)) = false := by decide

/-! The twin -/

/-- TP UP with partner node 5; tenant 0 a replica tenant, the RX ring of 2 MiB at 4 MiB. -/
def twinUp : State :=
  { portUp with
    ports := [(8, { state := .up })], regs := mset zeroNat portUp.regs 0x040C 5
    regsF := mset zeroNat portUp.regsF 0x0424 (2 ^ 16 + 2), twn := { mode := 1, pstate := 2, outDir := 1 } }

/-- A JRNL of one line at tenant address `a`. -/
def jrnlMsg (a : Nat) : Msg :=
  { type := 0x40, src := 5, len := 96, payload := leBytes 8 1 ++ leBytes 8 a ++ leBytes 8 0 ++ leBytes 8 0 ++ List.replicate 64 3 }

theorem test_w_journal : let s := twinUp; let m := jrnlMsg 64
    s.linkOn = true ∧ s.halted = false ∧ (s.port 8).state = .up ∧ m.src = peerNode s 8 ∧ m.fault = 0 ∧ m.status = 0 ∧ jrnlFits s m = true ∧ rxNext s 8 2 m = true ∧
    (∀ p ∈ s.cc.hbm, p.rank ≤ hbmRank twinAgent) ∧ isReplica s (jrecOf m).tenant = true ∧ jrnlMapped s (jrecOf m) = true ∧ jrnlTagOk s m (jrecOf m) = true ∧
    jrnlBad s m (jrecOf m) = false ∧ rxUsed s + jrecLen (jrecOf m) ≤ ringBytes s 0x0424 ∧
    (let u : State := { s with regsF := [] }; ringBytes u 0x0424 < rxUsed u + jrecLen (jrecOf m)) ∧
    jrnlFits s (jrnlMsg (2 ^ 21)) = true ∧ jrnlBad s (jrnlMsg (2 ^ 21)) (jrecOf (jrnlMsg (2 ^ 21))) = true := by decide

/-- COMMIT of epoch 9 for `n` records. -/
def commitMsg (n : Nat) : Msg := { type := 0x41, src := 5, len := 16, payload := leBytes 8 9 ++ leBytes 8 (n * 2 ^ 32) }
/-- `twinUp` with one record received. -/
def twinRx : State := { twinUp with twn := { twinUp.twn with rx := [{ addr := 64, lines := [List.replicate 64 3] }], gotRecs := 1 } }

theorem test_w_commit : egressRoom twinRx 8 1 0 = true ∧ rxNext twinRx 8 2 (commitMsg 1) = true ∧ rxNext twinRx 8 2 (commitMsg 2) = true ∧ rxNext twinUp 8 2 (commitMsg 0) = true ∧ commitFits twinRx (commitMsg 1) = true ∧ commitStatus twinRx (commitMsg 1) = 0 ∧
    twinRx.twn.apply ++ twinRx.twn.rx = [{ addr := 64, lines := [List.replicate 64 3] }] ∧ commitStatus twinRx (commitMsg 2) = 1 ∧
    commitStatus twinUp (commitMsg 0) = 0 ∧ twinUp.twn.apply = [] ∧ twinUp.twn.rx = [] ∧ commitFits twinUp (commitMsg 0) = true ∧ commitFits twinRx (commitMsg 2) = true := by decide

/-- `twinUp` with one record and its COMMIT, or two records, to apply. -/
def twinApplying (c : JRec) : State := { twinUp with twn := { twinUp.twn with run := 1, apply := [{ addr := 64, lines := [List.replicate 64 3] }, c] } }

theorem test_w_replica_apply : let s := twinApplying { commit := true, epoch := 9 }; let r : JRec := { addr := 64, lines := [List.replicate 64 3] }
    s.live = true ∧ s.twn.apply = [r, { commit := true, epoch := 9 }] ∧ r.lines ≠ [] ∧ (∀ x ∈ r.lines, x.length = 64) ∧
    (∀ i, i < r.lines.length → findWin s r.tenant (r.addr + 64 * i) 64 = some 0) ∧ paOf s r.tenant 0 r.addr = 2 ^ 21 + 64 ∧ (2 ^ 21 + 64) % 64 = 0 ∧
    (∀ i, i < r.lines.length → s.eff (88 + stackOf (2 ^ 21 + 64 + 64 * i)) = 3) ∧ (∀ p ∈ s.cc.hbm, p.rank ≤ hbmRank twinAgent) ∧ (twinApplying {}).twn.apply = [r, {}] := by decide

/-- `twinUp` with the COMMIT of epoch 9 unanswered since cc 0. -/
def committing (now : Nat) : State := { twinUp with now := now, twn := { twinUp.twn with commitAt := some 0, commitEp := 9, commitSeed := true } }
/-- COMMIT_ACK of epoch 9. -/
def ackMsg (c : Nat) : Msg := { type := 0x42, src := 5, len := 8, payload := leBytes 8 (c * 2 ^ 56 + 9) }

theorem test_w_commit_ack : let s := committing 0
    s.twn.commitAt = some 0 ∧ commitLate s = false ∧ rxNext s 8 1 (ackMsg 0) = true ∧ rxNext s 8 1 (ackMsg 4) = true ∧ (ackMsg 0).type = 0x42 ∧ (ackMsg 0).txn = s.twn.commitTxn ∧ msgFits s (ackMsg 0) 0x42 8 = true ∧ bits (mword (ackMsg 0) 0) 55 40 = 0 ∧
    bits (mword (ackMsg 0) 0) 39 0 = s.twn.commitEp ∧ bits (mword (ackMsg 0) 0) 63 56 = 0 ∧ msgFits s (ackMsg 4) 0x42 8 = true ∧ bits (mword (ackMsg 4) 0) 63 56 = 4 ∧
    commitLate (committing (2 ^ 40)) = true ∧ (committing (2 ^ 40)).twn.pstate = 2 ∧ (committing (2 ^ 40)).linkOn = true := by decide

theorem test_w_pair_messages : let d : Msg := { type := 0x44, src := 5, len := 8, payload := leBytes 8 2 }; let t : Msg := { type := 0x43, src := 5, len := 16, payload := List.replicate 16 0 }
    let s := twinUp; let u := { twinUp with twn := { twinUp.twn with sentTs := some {} } }
    rxNext s 8 0 d = true ∧ rxNext s 8 2 t = true ∧ msgFits s d 0x44 8 = true ∧ mword d 0 = 2 ∧ msgFits s t 0x43 16 = true ∧ bits (mword t 0) 56 40 = 0 ∧ bits (mword t 1) 31 0 = 0 ∧ t.tenant = 0 ∧ t.txn = 0 ∧
    s.twn.pstate = 2 ∧ u.twn.sentTs.isSome = true ∧ ({ u with twn := { u.twn with pstate := 3 } } : State).twn.pstate ≠ 1 := by decide

/-- `twinUp` with tenant 0 in the run set, its window 0 protected or not, the walk at line `l` of it. -/
def seeding (prot : Bool) (l : Nat) : State :=
  { twinUp with
    twn := { twinUp.twn with run := 1, seedDone := false, seedLine := l }
    tabF := [(tabKey 3 0 0, 2 ^ 31 + if prot then 2 ^ 30 else 0), (tabKey 3 0 2, 1), (tabKey 3 0 3, 1)] }

theorem test_w_seed_walk : (seeding true 32736).live = true ∧ (seeding true 32736).twn.pstate = 2 ∧ (seeding true 32736).twn.outDir = 1 ∧
    (seeding true 32736).twn.seedDone = false ∧ (seeding true 32736).twn.tx.any (fun r => !r.seed) = false ∧
    (∀ p ∈ (seeding true 32736).cc.hbm, p.rank ≤ hbmRank twinAgent) ∧ (seeding true 32736).twn.seedWin ≤ 0 ∧ seedEntry (seeding true 32736) 0 = true ∧ (∀ e, e < 128 → seedEntry (seeding false 0) e = false) ∧
    (seeding false 0).live = true := by decide

/-! Invariants -/

/-- The state after reset meets every invariant, and its step, a cycle, answers a next state. -/
theorem test_w_invariants : Memory.wf r0.mem = true ∧ queueOk r0 = true ∧ clockOk r0 = true ∧ todOk r0 = true ∧ powerOk r0 = true ∧ cblOk r0 = true ∧
    r0.pending = [] ∧ (match step r0 with | .next t => t.now == 1 && t.pending.isEmpty | _ => false) = true := by decide +kernel

theorem test_w_cycles : r0.pending = [] ∧ journals r0 = false ∧ journals twinUp = true ∧ 0 < ringBytes { twinUp with regsF := [(0x0420, 2 ^ 16)] } 0x0420 ∧
    twinUp.pending = [] := by decide

/-! ### Well-formedness: an ill-formed term for each check, which the check refuses -/

theorem test_ill_register : (Instr.registerWrite 0x1000 0).wellFormed = false ∧ (Instr.registerWrite 2 0).wellFormed = false ∧
    (Instr.rcRead 0x1000).wellFormed = false ∧ (Instr.latchedGroupRead 0x001C).wellFormed = false ∧ (Instr.registerWrite 0x0FFC 0).wellFormed = true := by decide

theorem test_ill_frames : (Instr.mspWrite [] 8).wellFormed = false ∧ (Instr.mspWrite [] 7).wellFormed = true ∧
    (Instr.flitReceive 0 (List.replicate 255 0)).wellFormed = false ∧ (Instr.flitReceive 0 (List.replicate 256 0)).wellFormed = true := by decide +kernel

theorem test_ill_units : (Instr.bistComplete [105]).wellFormed = false ∧ (Instr.warmSequenceEnd [104, 105]).wellFormed = false ∧
    (Instr.warmSequenceEnd [104]).wellFormed = true := by decide

theorem test_ill_checks : (Instr.refCheckFail 0 4 0).wellFormed = false ∧ (Instr.refCheckFail 0 5 0).wellFormed = false ∧
    (Instr.refCheckFail 2 5 0).wellFormed = true ∧ (Instr.requestTimeout 0 (2 ^ 16)).wellFormed = false := by decide

theorem test_ill_messages : (∀ m ∈ ([{ type := 256 }, { dst := 1024 }, { src := 1024 }, { tenant := 32 }, { tag := 2 ^ 24 }, { txn := 2 ^ 16 }, { status := 256 },
    { fault := 256 }, { rsvd := 2 ^ 15 }, { len := 2 ^ 16 }, { payload := [0] }] : List Msg),
    (Instr.read 0 m).wellFormed = false ∧ (Instr.tdown m).wellFormed = false) ∧ (Instr.read 0 {}).wellFormed = true := by decide

theorem test_ill_lctrl : (∀ f ∈ ([{ ltype := 256 }, { lanes := 256 }, { crMg := 256 }, { crRs := 256 }, { crRq := 256 }, { crEv := 256 }, { session := 2 ^ 32 },
    { keyId := 2 }] : List Lctrl), (Instr.align 0 f).wellFormed = false ∧ (Instr.laneMapDone 0 f).wellFormed = false) ∧ (Instr.align 0 {}).wellFormed = true := by decide

/-! ### Values the spec prints -/

/-- R369: the check value of the CRC-8, and the headers its text gives. -/
theorem test_crc8 : crc8 0 [0x31, 0x32, 0x33, 0x34, 0x35, 0x36, 0x37, 0x38, 0x39] = 0xF4 ∧ crc8 0 [0x05] = 0x1B ∧ crc8 0 [0x03, 0x00, 0x00] = 0xBD := by decide +kernel

/-- The published check value of the IEEE 802.3 frame check sequence (R258), over "123456789". -/
theorem test_crc32 : crc32 [0x31, 0x32, 0x33, 0x34, 0x35, 0x36, 0x37, 0x38, 0x39] = 0xCBF43926 := by decide +kernel

/-- FIPS 197, Appendix B: the cipher example (R269, R441). -/
theorem test_aes : aes128 0x2B7E151628AED2A6ABF7158809CF4F3C 0x3243F6A8885A308D313198A2E0370734 = 0x3925841D02DC09FBDC118597196A0B32 := by decide +kernel

/-- Worked case 06.1: the element bytes under OVF 0 and OVF 1, and the scale bytes under RULE 0 and RULE 1. -/
theorem test_case_06_1 :
    let xs : List Machine.Num := [{ num := 470 }, { num := 300 }, { neg := true, num := 1 }, { num := 1, den := 100 }, { num := 7, den := 10000 }, { neg := true, num := 7, den := 10000 }]
    (mxEncode 0x05 false false false xs).1 = 0x7F ∧ (mxEncode 0x05 false false false xs).2.map (·.bits) = [0x7E, 0x79, 0xB8, 0x05, 0x00, 0x80] ∧
    ((mxEncode 0x05 false false false xs).2.filter (·.sat)).length = 1 ∧ ((mxEncode 0x05 true false false xs).2.map (·.bits)).headD 0 = 0x7F ∧
    (mxEncode 0x05 false false true xs).1 = 0x80 := by decide +kernel

/-- Worked case 07.1: the record's words, its footprint, and the element (5, 10, 70) with its scale byte. -/
def case071 : LastRec := [0x0000000007094651, 0x0012600200000000, 0x0000000038000038, 0x0000000000000060, 0, 0x0000070000000020, 0x0000000000018800, 0]

theorem test_case_07_1 : recForm case071 = true ∧ rSizes case071 = [56, 56, 96] ∧ hiOffset case071 = 301055 ∧ spanBytes case071 = 301056 ∧ scaleBytes case071 = 9408 ∧
    elemOffset case071 [5, 10, 70] = 218790 ∧
    (locAt case071 { base := 0x0200000000 } (elemOffset case071 [5, 10, 70])).bit / 8 = 0x02000356A6 ∧
    (locAt case071 { base := 0x0200000000 } (elemOffset case071 [5, 10, 70])).scale = some 0x020004B2B5 := by decide +kernel

/-- Worked case 11.1: the byte lies in stack 0. -/
theorem test_case_11_1 : stackOf 0x05400356A6 = 0 := by decide

/-- Worked case 15.1: the words of the record's header, its length and initialisation vector. -/
theorem test_case_15_1 : let r : JRec := { auth := true, tenant := 3, epoch := 0x123456, addr := 0x0200001000, jcount := 0x4D, lines := List.replicate 4 (List.replicate 64 0) }
    ((jrecMsg r0 { r with auth := false, jcount := 0x4D }).payload.take 32 =
      leBytes 8 0x0318000000123456 ++ leBytes 8 0x0000000200001000 ++ leBytes 8 0 ++ leBytes 8 0x4D) ∧ jrecLen { r with tag := List.replicate 12 0 } = 304 := by decide +kernel

/-- Worked case 19.1: word 0 of the record. -/
theorem test_case_19_1 : faultWord0 { tag := 0x0051C3, code := 0x21, unit := 82, tenant := 6, tv := true, queue := 21, qv := true, level := 1 } = 0x0051C321A46AB200 := by decide

/-- Worked case 06.2: INT32 requantised to INT8, the clip before the rounding. -/
theorem test_case_06_2 : let one (x : Int) : Enc := encodeElem 0x0B false false (nMin (nMax (nAdd (nMul (nInt x) { num := 1, den := 1024 }) { neg := true, num := 13, den := 4 }) (nInt (-128))) (nInt 127))
    ([131000, 140000, 5888, -2561, 16777217] : List Int).map (fun x => (one x).bits) = [125, 127, 2, 250, 127] ∧ (one 140000).sat = false := by decide +kernel

/-! ### Single steps of commands -/

/-- A property of the next state a command answers. -/
def nextHas (o : Out) (p : State → Bool) : Bool := match o with | .next t => p t | _ => false

/-- An empty queue: one cycle of CCLK. -/
theorem test_tick : nextHas (step { r0 with pending := [] }) (fun t => t.now == 1 && t.ccnt == 1) = true := by decide +kernel

/-- The front command runs, the rest of the queue waits. -/
theorem test_front : nextHas (step { r0 with pending := [.todCancel, .fltPop] }) (fun t => t.pending == [.fltPop]) = true := by decide

/-- No row of the table gives bits: no word spells a command. -/
theorem test_no_bits : decodeTableWord 32 0 = none ∧ decodeTableWord 0 0 = none ∧ r0.withFetchWord 32 0xFFFFFFFF = r0 := ⟨rfl, rfl, rfl⟩

/-- Worked case 18.1: EPC_TRIG_EN bit 2 by a WRITE frame of 8 bytes, its CRC as R369 computes it. -/
theorem test_msp_write : let f : List Byte := [0x02, 0x02, 0x18, 0x00, 0x00, 0x00, 0x04]
    nextHas (exec (.mspWrite (f ++ [BitVec.ofNat 8 (crc8 0 f)]) 0) r0) (fun t => t.reg 0x0218 == 4 && t.msp.outcome == 0) = true ∧
    nextHas (exec (.mspWrite (f ++ [BitVec.ofNat 8 (crc8 0 f + 1)]) 0) r0) (fun t => t.reg 0x0218 == r0.reg 0x0218 && t.msp.outcome == 1 && t.msp.wrDiscard) = true := by decide +kernel

/-- Worked case 18.1: the seconds word is held for the EPC_SCHED_NS write. -/
theorem test_sched_seconds : nextHas (exec (.epcSchedSecWrite false 5010) r0) (fun t => t.epc.instSec == r0.epc.instSec && !t.epc.armed) = true := by decide

theorem test_boundary_from_idle : nextHas (exec (.epcCtrlBoundary true) r0) (fun t => t.epc.state == .clear) = true := by decide

theorem test_boundary_from_open : nextHas (exec (.epcCtrlBoundary true) rig) (fun t => t.epc.state == .drain) = true := by decide

theorem test_node_refused : nextHas (exec (.glbNodeWrite 7) (atPort 0 { state := .down })) (fun t => t.nextFx == [] && bit (t.reg 0x0004) 8) = true ∧
    nextHas (exec (.glbNodeWrite 7) r0) (fun t => t.nextFx == [.node 7]) = true := by decide

/-- Worked case 09.1: the image words of LUI and BNE. -/
theorem test_lui : nextHas (exec (.cblLui 0) (cobbler 0x71400804 0 0 0)) (fun t => cReg t 0 5 == 0x201000 && (t.cbl 0).pc == 4) = true := by decide

theorem test_addi : nextHas (exec (.cblAddi 0) (cobbler 0x518000C8 0 0 0)) (fun t => cReg t 0 6 == 200) = true := by decide

theorem test_bne : let s := cobbler 0xC883FFFA 0 5 0
    nextHas (exec (.cblBne 0) { s with cbls := s.cbls.map fun e => (e.1, { e.2 with pc := 0x20, lines := [{ bytes := some (List.replicate 32 0 ++ leBytes 4 0xC883FFFA) }] }) })
      (fun t => (t.cbl 0).pc == 0x08) = true := by decide

/-- R190, Table 09.3: division by zero, and −2^31 / −1. -/
theorem test_div : nextHas (exec (.cblDiv 0) (cobbler (cw 0x0F 3 1 2 0) 7 0 0)) (fun t => cReg t 0 3 == 0xFFFFFFFF) = true ∧
    nextHas (exec (.cblDiv 0) (cobbler (cw 0x0F 3 1 2 0) 0x80000000 0xFFFFFFFF 0)) (fun t => cReg t 0 3 == 0x80000000) = true := by decide

/-- c0 stays 0. -/
theorem test_c0 : nextHas (exec (.cblAdd 0) (cobbler (cw 0x01 0 1 2 0) 5 6 0)) (fun t => cReg t 0 0 == 0) = true := by decide

theorem test_warm_stop : nextHas (exec (.warmrstAssert) rig) (fun t => t.power.stage == .warmHold) = true := by decide

theorem test_bist_unit : (match exec (.bistComplete [105]) { r0 with power := { r0.power with stage := .cold, bistDone := false } } with
    | .fault (.noSuchUnit n) => n == 105 | _ => false) = true := by decide

/-- R367: a word past 0x0FFC reads as 0. -/
theorem test_past_the_map : nextHas (exec (.rcRead 0x1000) r0) (fun t => t.msp.sdo == [0, 0, 0, 0]) = true := by decide

/-- R288, R293: a READ of two lines whose second lies outside the window is answered NO_WINDOW, 8 bytes. -/
theorem test_read_no_window : nextHas (exec (.read 0 (readMsg 0 (2 ^ 21 - 64) 1)) portUp) (fun t =>
    ((t.port 0).chan 1).tx.map (fun x => (msgParse x.bytes).status) == [2] && t.mem.hbm == []) = true := by decide +kernel

/-- R105, Table 05.6: e, sin 1 and erf 1 as FP32, and the patterns within 1 ulp of e. -/
theorem test_sfu_exp : let e := sfuExact 0x30 0 (nInt 1)
    sfuNearest e = 0x402DF854 ∧ sfuWithin 1 0x402DF855 e = true ∧ sfuWithin 1 0x402DF856 e = false := by decide +kernel
theorem test_sfu_sin : sfuNearest (sfuExact 0x3C 0 (nInt 1)) = 0x3F576AA4 := by decide +kernel
theorem test_sfu_erf : sfuNearest (sfuExact 0x3B 0 (nInt 1)) = 0x3F57BB3D := by decide +kernel

/-- R210: an event that maps to no axon is counted in EVT_UNMAPPED. -/
theorem test_unmapped : nextHas (exec (.eventDeliver 63) (eventing [{ addr := 64 }] [] .opened)) (fun t => t.reg 0x07C8 == 1) = true := by decide +kernel

end Sys2Proof.Tests
end

section
/-! PROOFS. The step, the reset state, and the resets of the power-up chapter. -/

namespace Sys2Proof.Machine

/-- Settles O1: `step` matches on the queue. -/
theorem stepRunsFrontCommand : Obligations.StepRunsFrontCommand := by
  intro s c cs h
  rw [step, h]

/-! ### The reset state -/

theorem reset_queueOk : queueOk State.reset = true := rfl
theorem reset_clockOk : clockOk State.reset = true := by decide
theorem reset_todOk : todOk State.reset = true := by decide
theorem reset_powerOk : powerOk State.reset = true := rfl
theorem reset_cblOk : cblOk State.reset = true := rfl

/-- No port is listed after reset: each reads as the record of a DISABLED port. -/
theorem reset_port_disabled (p : Nat) : (State.reset.port p).state = .disabled := rfl

/-- Settles O56: each invariant is evaluated on the reset state. -/
theorem resetMeetsTheInvariants : Obligations.ResetMeetsTheInvariants :=
  ⟨reset_memory_wf, reset_queueOk, reset_clockOk, reset_todOk, reset_powerOk, reset_cblOk, rfl, rfl, rfl,
    reset_port_disabled, rfl, rfl⟩

/-! ### PORST_N and the supplies -/

/-- R411: a release of PORST_N in reset. -/
theorem execPorstRelease_held {s : State} (straps : BitVec 4) (hst : s.power.stage = .porst) (hl : s.power.porstLow = true) :
    execPorstRelease straps s =
      let s' := { s with power := { s.power with porstLow := false, straps := straps.toNat } }
      .next (if s.power.supplyLow then s' else release s' straps.toNat) := by
  simp [execPorstRelease, hst, hl]

/-- R410: a return of the supplies in reset. -/
theorem execSupplyReturn_held {s : State} (hst : s.power.stage = .porst) (hl : s.power.supplyLow = true) :
    execSupplyReturn s =
      let s' := { s with power := { s.power with supplyLow := false } }
      .next (if s.power.porstLow then s' else release s' s.power.straps) := by
  simp [execSupplyReturn, hst, hl]

/-- Settles O19: the asserting commands answer `porstState`; a release depends on whether the other hold remains. -/
theorem porstResetsAndReleaseStarts : Obligations.PorstResetsAndReleaseStarts := by
  refine ⟨fun s => ⟨?_, ?_⟩, fun s hst => ⟨?_, ?_⟩⟩
  · exact ⟨porstState s s.power.supplyLow true, rfl, rfl, rfl, rfl, rfl, rfl, rfl, rfl, rfl⟩
  · exact ⟨porstState s true s.power.porstLow, rfl, rfl, rfl, rfl, rfl, rfl⟩
  · intro straps hl
    refine ⟨_, execPorstRelease_held straps hst hl, ?_⟩
    cases s.power.supplyLow with
    | false => exact ⟨rfl, rfl, nofun, fun _ => rfl, rfl⟩
    | true => exact ⟨rfl, rfl, fun _ => hst, nofun, rfl⟩
  · intro hl
    refine ⟨_, execSupplyReturn_held hst hl, ?_⟩
    cases s.power.porstLow with
    | false => exact ⟨rfl, rfl, nofun, fun _ => rfl, rfl⟩
    | true => exact ⟨rfl, rfl, fun _ => hst, nofun, rfl⟩

end Sys2Proof.Machine
end

section
/-! PROOFS. A register read (R1, R372, R381): its value, and the reduction of an RC register. -/

namespace Sys2Proof.Machine

/-- The registers that hold RC counters, listed. -/
def rcRegs : List Nat :=
  [0x012C, 0x0130, 0x01C4, 0x0220, 0x0244, 0x0330, 0x0334, 0x0338, 0x033C, 0x0340, 0x0344, 0x0444, 0x0448, 0x046C,
    0x0508, 0x0594, 0x0700, 0x07C0, 0x07C4, 0x07C8,
    0x0490, 0x0494, 0x0498, 0x049C, 0x04A0, 0x04A4, 0x04A8, 0x04AC, 0x04B0, 0x04B4, 0x04B8,
    0x0790, 0x0794, 0x0798, 0x079C, 0x07A0, 0x07A4, 0x07A8, 0x07AC, 0x07B0, 0x07B4, 0x07B8]

theorem mem_rcRegs {a : Nat} (h : isRc a = true) : a ∈ rcRegs := by
  have early : ∀ k < 11, 0x0490 + 4 * k ∈ rcRegs := by decide
  have late : ∀ k < 11, 0x0790 + 4 * k ∈ rcRegs := by decide
  simp only [isRc, Bool.or_eq_true, Bool.and_eq_true, decide_eq_true_eq, List.contains_iff_mem] at h
  rcases h with (h | ⟨⟨hlo, hhi⟩, h4⟩) | ⟨⟨hlo, hhi⟩, h4⟩
  · exact List.mem_append_left (rcRegs.drop 20) h
  · rw [show a = 0x0490 + 4 * ((a - 0x0490) / 4) by omega]
    exact early _ (by omega)
  · rw [show a = 0x0790 + 4 * ((a - 0x0790) / 4) by omega]
    exact late _ (by omega)

/-- An RC register opens no latched group and is not among the computed registers: it reads as its word stood before this cc. -/
theorem regRead_of_isRc {a : Nat} (h : isRc a = true) (s : State) :
    latchGroup s a = [] ∧ regRead s a = s.rcBefore (regKey s a) := by
  have hmem := mem_rcRegs h
  clear h
  unfold rcRegs at hmem
  fin_cases hmem <;> exact ⟨rfl, rfl⟩

/-! ### What a word read does -/

theorem latchAt_of_latchGroup_nil {s : State} {a : Nat} (h : latchGroup s a = []) : latchAt s a = s := by
  simp [latchAt, h]

theorem rcReduce_of_not_isRc (s : State) (key : Nat) {a : Nat} (v : Nat) (h : isRc a = false) : rcReduce s key a v = s := by
  simp [rcReduce, h]

theorem wordAddr_of_regAddrOk {a : Nat} (h : regAddrOk a = true) : wordAddr a = true := by
  simp only [regAddrOk, Bool.and_eq_true] at h
  exact h.1

/-- The value `v` goes out on MSP_SDO, high byte first (R371). -/
def State.drives (s : State) (v : Nat) : State := { s with msp := { s.msp with sdo := beBytes 4 v } }

/-- R372: a read of a register word by an MSP that answers. -/
theorem readWord1_on {s : State} {a : Nat} (hon : s.mspOn = true) (ha : wordAddr a = true) :
    readWord1 s a = rcReduce ((latchAt s a).drives (regRead s a)) (regKey s a) a (regRead s a) := by
  simp [readWord1, hon, ha, State.drives, latchAt]

/-- R372: a read of a register without RC fields that opens no latched group drives its value and does nothing more. -/
theorem exec_rcRead_plain {s : State} {a : Nat} (hon : s.mspOn = true) (ha : wordAddr a = true) (hrc : isRc a = false)
    (hg : latchGroup s a = []) : exec (.rcRead a) s = .next (s.drives (regRead s a)) := by
  show Host.Outcome.next (readWord1 s a) = _
  rw [readWord1_on hon ha, rcReduce_of_not_isRc _ _ _ hrc, latchAt_of_latchGroup_nil hg]

/-- R381: a read of an RC register drives its value from before this cc and reduces it by that. -/
theorem exec_rcRead_rc {s : State} {a : Nat} (hon : s.mspOn = true) (ha : wordAddr a = true) (hrc : isRc a = true) :
    exec (.rcRead a) s =
      .next (rcReduce (s.drives (s.rcBefore (regKey s a))) (regKey s a) a (s.rcBefore (regKey s a))) := by
  obtain ⟨hg, hr⟩ := regRead_of_isRc hrc s
  show Host.Outcome.next (readWord1 s a) = _
  rw [readWord1_on hon ha, latchAt_of_latchGroup_nil hg, hr]

/-- A register other than WLT_PSEL is not stored under WLT_PSEL's key. -/
theorem regKey_ne_psel (s : State) {a : Nat} (h : a ≠ 0x0300) : regKey s a ≠ 0x0300 := by
  unfold regKey bankKey
  split <;> omega

/-- The key behind an address depends on WLT_PSEL alone. -/
theorem regKey_congr {s t : State} (h : t.reg 0x0300 = s.reg 0x0300) (a : Nat) : regKey t a = regKey s a := by
  rw [regKey, regKey, h]

/-! ### The counters of this cc -/

/-- The value an RC register held before this cc, as a look-up whose default is its word. -/
theorem rcBefore_eq (s : State) (k : Nat) : s.rcBefore k = mget (fun _ => s.reg k) s.cc.rc k := rfl

/-- What is known of another counter's value before this cc outlives a reduction. -/
theorem mget_reduce_ne (d : Nat → Nat) (m : List (Nat × Nat)) {k j : Nat} (v : Nat) (hne : j ≠ k) :
    mget d (m.map fun e => if e.1 = k then (k, e.2 - v) else e) j = mget d m j := by
  induction m with
  | nil => rfl
  | cons e m ih =>
    obtain ⟨k', x⟩ := e
    by_cases hk : k' = k
    · subst hk; simp [ih, hne.symm]
    · simp [hk, ih]

/-- A counter reduced by its value from before this cc stood at 0 before this cc. -/
theorem mget_reduce_self (m : List (Nat × Nat)) (k r : Nat) :
    mget (fun _ => r - mget (fun _ => r) m k) (m.map fun e => if e.1 = k then (k, e.2 - mget (fun _ => r) m k) else e) k = 0 := by
  have key : ∀ (m : List (Nat × Nat)) (v : Nat), v = mget (fun _ => r) m k →
      mget (fun _ => r - v) (m.map fun e => if e.1 = k then (k, e.2 - v) else e) k = 0 := by
    intro m v hv
    induction m with
    | nil => simp [hv]
    | cons e m ih =>
      obtain ⟨k', x⟩ := e
      by_cases hk : k' = k
      · simp_all
      · simp only [mget_cons, if_neg hk] at hv
        simpa [hk] using ih hv
  exact key m _ rfl

/-- A counter not raised in this cc stood before it as it stands. -/
theorem rcBefore_of_not_raised {s : State} {k : Nat} (h : ∀ e ∈ s.cc.rc, e.1 ≠ k) : s.rcBefore k = s.reg k := by
  have key : ∀ (m : List (Nat × Nat)) (d : Nat → Nat), (∀ e ∈ m, e.1 ≠ k) → mget d m k = d k := by
    intro m d hm
    induction m with
    | nil => rfl
    | cons e m ih =>
      simp only [List.forall_mem_cons] at hm
      rw [mget_cons, if_neg hm.1, ih hm.2]
  exact key _ _ h

@[simp] theorem State.bump_reg (s : State) (k j n : Nat) :
    (s.bump k n).reg j = if k = j then sat32 (s.reg k + n) else s.reg j := by
  simp [State.bump, State.setReg, State.setCc, State.reg, mget_mset]

/-- R372: the events of a cc leave what a counter held before it. -/
@[simp] theorem State.bump_rcBefore_self (s : State) (k n : Nat) : (s.bump k n).rcBefore k = s.rcBefore k := by
  simp [State.bump, State.rcBefore, State.setCc]

/-- An RC register's word falls by `v`. -/
theorem rcReduce_reg {s : State} {a : Nat} (h : isRc a = true) (k v j : Nat) :
    (rcReduce s k a v).reg j = if k = j then s.reg k - v else s.reg j := by
  simp [rcReduce, h, State.setReg, State.setCc, State.reg, mget_mset]

/-- R381: a second read in the same cc finds 0. -/
theorem rcReduce_rcBefore_self {s : State} {a : Nat} (h : isRc a = true) (k : Nat) :
    (rcReduce s k a (s.rcBefore k)).rcBefore k = 0 := by
  rw [rcBefore_eq, rcReduce_reg h, if_pos rfl, rcReduce, if_pos h]
  exact mget_reduce_self s.cc.rc k (s.reg k)

theorem rcReduce_rcBefore_ne {s : State} {a : Nat} (h : isRc a = true) {k j : Nat} (v : Nat) (hne : j ≠ k) :
    (rcReduce s k a v).rcBefore j = s.rcBefore j := by
  rw [rcBefore_eq, rcReduce_reg h, if_neg hne.symm, rcReduce, if_pos h]
  exact mget_reduce_ne _ s.cc.rc v hne

/-- A reduction changes the registers and what is noted of the counters of this cc. -/
theorem rcReduce_frame (s : State) (k a v : Nat) :
    rcReduce s k a v = { s with regs := (rcReduce s k a v).regs, cc := { s.cc with rc := (rcReduce s k a v).cc.rc } } := by
  unfold rcReduce
  split <;> rfl

/-- WLT_PSEL is no counter: what is stored under a counter's key does not move a bank's key. -/
theorem regKey_of_isRc {s t : State} {a : Nat} (h : isRc a = true)
    (ht : ∀ k, k ≠ regKey s a → t.reg k = s.reg k) : regKey t a = regKey s a :=
  regKey_congr (ht _ (regKey_ne_psel s (by rintro rfl; exact absurd h (by decide))).symm) a

/-- Settles O3: a plain register's read is its value and nothing more; an RC register's read is `rcReduce`. -/
theorem rcReadDeliversAndReduces : Obligations.RcReadDeliversAndReduces := by
  intro s a hok hon
  have ha := wordAddr_of_regAddrOk hok
  refine ⟨exec_rcRead_plain hon ha, rfl, fun hrc => ?_, fun n hrc hnew hlt => ?_⟩
  · have hother : ∀ v k, k ≠ regKey s a → (rcReduce (s.drives v) (regKey s a) a v).reg k = s.reg k := fun v k hk => by
      rw [rcReduce_reg hrc, if_neg hk.symm]; rfl
    have hzero := rcReduce_rcBefore_self (s := s.drives (s.rcBefore (regKey s a))) hrc (regKey s a)
    refine ⟨_, exec_rcRead_rc hon ha hrc, ?_, ?_, ?_, ?_, ?_, ?_⟩
    · rw [rcReduce_frame]; rfl
    · rw [rcReduce_reg hrc, if_pos rfl]; rfl
    · rw [(regRead_of_isRc hrc _).2, regKey_of_isRc hrc (hother _)]; exact hzero
    · intro n; rw [State.bump_rcBefore_self]; exact hzero
    · exact fun k hk => ⟨hother _ k hk, rcReduce_rcBefore_ne hrc _ hk⟩
    · rw [rcReduce_frame]; rfl
  · have hkey : regKey (s.bump (regKey s a) n) a = regKey s a :=
      regKey_of_isRc hrc fun k hk => by rw [State.bump_reg, if_neg hk.symm]
    have hbefore : (s.bump (regKey s a) n).rcBefore (regKey s a) = s.reg (regKey s a) := by
      rw [State.bump_rcBefore_self, rcBefore_of_not_raised hnew]
    have hon' : (s.bump (regKey s a) n).mspOn = true := hon
    refine ⟨_, exec_rcRead_rc hon' ha hrc, ?_, ?_⟩
    · rw [rcReduce_frame, hkey, hbefore]; rfl
    · rw [hkey, hbefore, rcReduce_reg hrc, if_pos rfl]
      show (s.bump _ n).reg _ - _ = n
      rw [State.bump_reg, if_pos rfl, sat32, if_pos hlt]
      omega

end Sys2Proof.Machine
end

section
/-! PROOFS. A register write (R1 to R6, R365 to R370). -/

namespace Sys2Proof.Machine

/-! ### Which bits a plain write leaves -/

/-- Numbers that share no bit add as they are laid together. -/
theorem add_eq_or_of_and_eq_zero {x y : Nat} (h : x &&& y = 0) : x + y = x ||| y := by
  have hlt : x + y < 2 ^ (x + y) := Nat.lt_two_pow_self
  have hx : x % 2 ^ (x + y) = x := Nat.mod_eq_of_lt (by omega)
  have hy : y % 2 ^ (x + y) = y := Nat.mod_eq_of_lt (by omega)
  have hand : BitVec.ofNat (x + y) x &&& BitVec.ofNat (x + y) y = 0#(x + y) := by
    apply BitVec.eq_of_toNat_eq
    simp [hx, hy, h]
  have := congrArg BitVec.toNat (BitVec.add_eq_or_of_and_eq_zero _ _ hand)
  simpa [hx, hy, Nat.mod_eq_of_lt hlt] using this

/-- Bits taken from a number that holds them. -/
theorem sub_and_eq_ldiff (x m : Nat) : x - (x &&& m) = Nat.ldiff x m := by
  have hdis : (x &&& m) &&& Nat.ldiff x m = 0 := by
    apply Nat.eq_of_testBit_eq
    intro i
    cases hm : m.testBit i <;> simp [Nat.testBit_and, Nat.testBit_ldiff, hm]
  have hall : x &&& m ||| Nat.ldiff x m = x := by
    apply Nat.eq_of_testBit_eq
    intro i
    cases hx : x.testBit i <;> simp [Nat.testBit_and, Nat.testBit_or, Nat.testBit_ldiff, hx]
  have := add_eq_or_of_and_eq_zero hdis
  omega

/-- The W1C bits set in this cc, bit by bit. -/
theorem testBit_setNow (s : State) (k i : Nat) : (setNow s k).testBit i = s.cc.sets.contains (k, i) := by
  have key : ∀ (l : List (Nat × Nat)) (m : Nat),
      (l.foldl (fun m e => if e.1 = k then m ||| 2 ^ e.2 else m) m).testBit i = (m.testBit i || l.contains (k, i)) := by
    intro l
    induction l with
    | nil => simp
    | cons e l ih =>
      obtain ⟨k', j⟩ := e
      intro m
      rw [List.foldl_cons, ih]
      by_cases hk : k' = k
      · simp [hk, Nat.testBit_or, Nat.testBit_two_pow, Bool.or_assoc, eq_comm]
      · simp [hk, Ne.symm hk]
  rw [setNow, key, Nat.zero_testBit, Bool.false_or]

/-- No register holds both RW and W1C bits. -/
theorem rwMask_eq_zero_of_w1cMask {a : Nat} (h : w1cMask a ≠ 0) : rwMask a = 0 := by
  unfold w1cMask at h
  split at h <;> trivial

/-- The word a plain write stores: RW bits from `w`, W1C bits written 1 cleared but for those set in this cc. -/
def plainWord (s : State) (a w : Nat) : Nat :=
  Nat.ldiff (Nat.ldiff (s.reg (regKey s a)) (rwMask a)) (Nat.ldiff (w &&& w1cMask a) (setNow s (regKey s a))) ||| (w &&& rwMask a)

theorem plainWrite_eq (s : State) (a w : Nat) : plainWrite s a w = s.setReg (regKey s a) (plainWord s a w) := by
  have hsub : (s.reg (regKey s a) &&& w &&& w1cMask a) - (s.reg (regKey s a) &&& w &&& w1cMask a &&& setNow s (regKey s a)) =
      Nat.ldiff (s.reg (regKey s a)) (rwMask a) &&& Nat.ldiff (w &&& w1cMask a) (setNow s (regKey s a)) := by
    rw [sub_and_eq_ldiff]
    apply Nat.eq_of_testBit_eq
    intro i
    by_cases hz : w1cMask a = 0
    · simp [hz, Nat.testBit_ldiff]
    · simp [rwMask_eq_zero_of_w1cMask hz, Nat.testBit_ldiff, Bool.and_assoc]
  have hdis : Nat.ldiff (Nat.ldiff (s.reg (regKey s a)) (rwMask a)) (Nat.ldiff (w &&& w1cMask a) (setNow s (regKey s a))) &&&
      (w &&& rwMask a) = 0 := by
    apply Nat.eq_of_testBit_eq
    intro i
    cases hr : (rwMask a).testBit i <;> simp [Nat.testBit_ldiff, hr]
  rw [plainWrite, hsub, sub_and_eq_ldiff (s.reg _) (rwMask a), sub_and_eq_ldiff, add_eq_or_of_and_eq_zero hdis, plainWord]

/-- R1, R5: the bits of the word a plain write stores. -/
theorem bit_plainWord (s : State) (a w i : Nat) :
    bit (plainWord s a w) i =
      if bit (rwMask a) i then bit w i
      else bit (s.reg (regKey s a)) i && !(bit (w1cMask a) i && bit w i && !s.cc.sets.contains (regKey s a, i)) := by
  simp only [bit, plainWord, Nat.testBit_or, Nat.testBit_and, Nat.testBit_ldiff, testBit_setNow]
  by_cases hr : (rwMask a).testBit i = true
  · simp [hr]
  · simp [hr, Bool.and_comm]

/-! ### What a move of the clock selection may change -/

/-- The clock selection, with its counts, PPS_OUT and the CLKU's observed state: what a write of a CLK register or of
TOD_PPSO may move beside its own word (R344, R345, R350, R362). -/
def MovesClock (s t : State) : Prop :=
  t = { s with regs := t.regs, cc := t.cc, clk := t.clk, tod := t.tod, units := t.units } ∧
  ∀ k, k ∉ [0x0104, 0x012C, 0x0130] → t.reg k = s.reg k

theorem MovesClock.refl (s : State) : MovesClock s s := ⟨rfl, fun _ _ => rfl⟩

theorem MovesClock.trans {s t u : State} (h : MovesClock s t) (k : MovesClock t u) : MovesClock s u := by
  obtain ⟨h1, h2⟩ := h
  obtain ⟨k1, k2⟩ := k
  refine ⟨?_, fun j hj => (k2 j hj).trans (h2 j hj)⟩
  rw [h1] at k1
  exact k1

theorem setRef_movesClock (s : State) (r : Nat) (x : RefSt) : MovesClock s (s.setRef r x) := ⟨rfl, fun _ _ => rfl⟩

theorem clk_movesClock (s : State) (c : ClkSt) : MovesClock s { s with clk := c } := ⟨rfl, fun _ _ => rfl⟩

theorem setReg_movesClock (s : State) {k : Nat} (v : Nat) (hk : k ∈ [0x0104, 0x012C, 0x0130]) : MovesClock s (s.setReg k v) :=
  ⟨rfl, fun j hj => by rw [State.setReg_reg, if_neg (fun h : k = j => hj (h ▸ hk))]⟩

theorem setCc_movesClock (s : State) (c : CcSt) : MovesClock s (s.setCc c) := ⟨rfl, fun _ _ => rfl⟩

theorem bump_movesClock (s : State) {k : Nat} (n : Nat) (hk : k ∈ [0x0104, 0x012C, 0x0130]) : MovesClock s (s.bump k n) :=
  (setReg_movesClock s _ hk).trans (setCc_movesClock _ _)

theorem setBit_movesClock (s : State) {k : Nat} (i : Nat) (hk : k ∈ [0x0104, 0x012C, 0x0130]) : MovesClock s (s.setBit k i) :=
  (setReg_movesClock s _ hk).trans (setCc_movesClock _ _)

theorem setObs_movesClock (s : State) (u o c : Nat) : MovesClock s (setObs s u o c) := by
  unfold setObs
  split
  · exact MovesClock.refl s
  · exact ⟨rfl, fun _ _ => rfl⟩

/-- R346, R350: a switch starts. -/
theorem startSwitch_movesClock (s : State) (r : Nat) : MovesClock s (startSwitch s r) :=
  (clk_movesClock _ _).trans ((bump_movesClock _ 1 (by decide)).trans
    ((setBit_movesClock _ 8 (by decide)).trans (setObs_movesClock _ _ _ _)))

/-- R345, R350: holdover is entered. -/
theorem enterHoldover_movesClock (s : State) : MovesClock s (enterHoldover s) :=
  (clk_movesClock _ _).trans ((bump_movesClock _ 1 (by decide)).trans
    ((setBit_movesClock _ 8 (by decide)).trans (setObs_movesClock _ _ _ _)))

theorem reftDrop_movesClock (s : State) : MovesClock s (reftDrop s) := by
  unfold reftDrop
  split
  · exact MovesClock.refl s
  · exact setRef_movesClock _ _ _

/-- R344, R345: the selection follows the references. -/
theorem clkEval_movesClock (s : State) : MovesClock s (clkEval s) := by
  unfold clkEval
  split
  · exact MovesClock.refl s
  · refine (reftDrop_movesClock s).trans ?_
    generalize reftDrop s = u
    dsimp only
    split
    · exact MovesClock.refl u
    · split
      · split
        · exact startSwitch_movesClock _ _
        · split
          · exact MovesClock.refl u
          · exact enterHoldover_movesClock u
      · exact MovesClock.refl u

/-- What every step of a fold moves of the clock, its end moves. -/
theorem foldl_movesClock {α : Type} {f : State → α → State} (hf : ∀ s x, MovesClock s (f s x)) :
    ∀ (l : List α) (s : State), MovesClock s (l.foldl f s)
  | [], s => MovesClock.refl s
  | x :: l, s => (hf s x).trans (foldl_movesClock hf l _)

/-- R344: a write of a CLK register moves the selection only. -/
theorem clkWritten_movesClock (old s : State) : MovesClock s (clkWritten old s) := by
  refine MovesClock.trans (foldl_movesClock (fun s r => ?_) _ s) ((foldl_movesClock (fun s r => ?_) _ _).trans (clkEval_movesClock _))
  · split
    · exact MovesClock.refl s
    · exact setRef_movesClock _ _ _
  · split
    · exact setRef_movesClock _ _ _
    · exact MovesClock.refl s

/-- R362: PPS_OUT follows TOD_PPSO.EN. -/
theorem ppsoFollow_movesClock (s : State) : MovesClock s (ppsoFollow s) := by
  unfold ppsoFollow
  split
  · exact MovesClock.refl s
  · exact ⟨rfl, fun _ _ => rfl⟩

/-! ### What a committed word does -/

/-- R1: a register without a command of its own that moves no clock is stored. -/
theorem regCommit_plain {a : Nat} (s : State) (w : Word) (hcmd : commandReg a = false) (hclk : clockReg a = false) :
    regCommit s a w = plainWrite s a w.toNat := by
  unfold regCommit
  dsimp only
  split <;> trivial

/-- R344, R362: a CLK register or TOD_PPSO is stored, and the clock selection or PPS_OUT follows. -/
theorem regCommit_clock {a : Nat} (s : State) (w : Word) (hclk : clockReg a = true) :
    regKey s a = a ∧ a ∉ [0x0104, 0x012C, 0x0130] ∧ MovesClock (plainWrite s a w.toNat) (regCommit s a w) := by
  simp only [clockReg, List.contains_iff_mem, List.mem_cons, List.not_mem_nil, or_false] at hclk
  rcases hclk with rfl | rfl | rfl | rfl | rfl
  · exact ⟨rfl, by decide, clkWritten_movesClock _ _⟩
  · exact ⟨rfl, by decide, clkWritten_movesClock _ _⟩
  · exact ⟨rfl, by decide, clkWritten_movesClock _ _⟩
  · exact ⟨rfl, by decide, clkWritten_movesClock _ _⟩
  · exact ⟨rfl, by decide, ppsoFollow_movesClock _⟩

/-- R1: what a word written to a register without a command of its own leaves of it, and of the others. -/
theorem regCommit_stores (s : State) {a : Nat} (w : Word) (hcmd : commandReg a = false) :
    (∀ i, bit ((regCommit s a w).reg (regKey s a)) i =
      if bit (rwMask a) i then bit w.toNat i
      else bit (s.reg (regKey s a)) i && !(bit (w1cMask a) i && bit w.toNat i && !s.cc.sets.contains (regKey s a, i))) ∧
    MovesClock (plainWrite s a w.toNat) (regCommit s a w) := by
  have hmoves : MovesClock (plainWrite s a w.toNat) (regCommit s a w) ∧
      (regCommit s a w).reg (regKey s a) = (plainWrite s a w.toNat).reg (regKey s a) := by
    cases hclk : clockReg a with
    | false => rw [regCommit_plain s w hcmd hclk]; exact ⟨MovesClock.refl _, rfl⟩
    | true =>
      obtain ⟨hkey, hnot, hmv⟩ := regCommit_clock s w hclk
      exact ⟨hmv, hmv.2 _ (hkey.symm ▸ hnot)⟩
  refine ⟨fun i => ?_, hmoves.1⟩
  rw [hmoves.2, plainWrite_eq, State.setReg_reg, if_pos rfl, bit_plainWord]

/-- A plain write leaves every other register alone. -/
theorem plainWrite_reg_ne (s : State) (a w : Nat) {k : Nat} (hk : k ≠ regKey s a) : (plainWrite s a w).reg k = s.reg k := by
  rw [plainWrite_eq, State.setReg_reg, if_neg hk.symm]

theorem exec_registerWrite_on {s : State} {a : Nat} (w : Word) (hon : s.mspOn = true) (hok : regAddrOk a = true) :
    exec (.registerWrite a w) s = .next (regCommit s a w) := by
  have ha := wordAddr_of_regAddrOk hok
  simp only [regAddrOk, Bool.and_eq_true, decide_eq_true_eq] at hok
  have hle : a ≤ 0x0FFC := by omega
  show execRegisterWrite a w s = _
  simp [execRegisterWrite, hon, ha, hle]

/-! ### Registers with a command of their own -/

/-- A command that answers a next state is what `after` makes of its answer. -/
theorem next_after (s : State) {o : Out} (h : ∃ t, o = .next t) : Host.Outcome.next (after s o) = o := by
  obtain ⟨t, rfl⟩ := h
  rfl

/-- A choice between two answers of a next state is one. -/
theorem ite_answers {c : Prop} [Decidable c] {o p : Out} (ho : ∃ t, o = .next t) (hp : ∃ t, p = .next t) :
    ∃ t, (if c then o else p) = .next t := by
  split
  · exact ho
  · exact hp

theorem glbNodeWrite_answers (w : Word) (s : State) : ∃ t, execGlbNodeWrite w s = .next t :=
  ite_answers ⟨_, rfl⟩ (ite_answers ⟨_, rfl⟩ ⟨_, rfl⟩)

theorem clkCclkMWrite_answers (w : Word) (s : State) : ∃ t, execClkCclkMWrite w s = .next t :=
  ite_answers ⟨_, rfl⟩ (ite_answers ⟨_, rfl⟩ (ite_answers ⟨_, rfl⟩ ⟨_, rfl⟩))

theorem todIncrLoWrite_answers (w : Word) (s : State) : ∃ t, execTodIncrLoWrite w s = .next t := ite_answers ⟨_, rfl⟩ ⟨_, rfl⟩

theorem epcSchedSecWrite_answers (hi : Bool) (w : Word) (s : State) : ∃ t, execEpcSchedSecWrite hi w s = .next t :=
  ite_answers ⟨_, rfl⟩ ⟨_, rfl⟩

theorem epcSchedNsWrite_answers (w : Word) (s : State) : ∃ t, execEpcSchedNsWrite w s = .next t := ite_answers ⟨_, rfl⟩ ⟨_, rfl⟩

theorem twnPeerNodeWrite_answers (ctrl : Bool) (w : Word) (s : State) : ∃ t, execTwnPeerNodeWrite ctrl w s = .next t :=
  ite_answers ⟨_, rfl⟩ ⟨_, rfl⟩

theorem memScrubWrite_answers (w : Word) (s : State) : ∃ t, execMemScrubWrite w s = .next t := ite_answers ⟨_, rfl⟩ ⟨_, rfl⟩

theorem epcCtrlBoundary_answers (run : Bool) (s : State) : ∃ t, execEpcCtrlBoundary run s = .next t :=
  ite_answers ⟨_, rfl⟩ ⟨_, rfl⟩

theorem twnCmdAdopt_answers (s : State) : ∃ t, execTwnCmdAdopt s = .next t := ite_answers ⟨_, rfl⟩ ⟨_, rfl⟩

theorem fltPop_answers (s : State) : ∃ t, execFltPop s = .next t := by
  unfold execFltPop
  refine ite_answers ⟨_, rfl⟩ ?_
  split <;> exact ⟨_, rfl⟩

/-- R1, R370: a write whose committed word is a command runs that command. -/
theorem exec_registerWrite_command {s : State} {a : Nat} {w : Word} {c : Instr} (hon : s.mspOn = true) (hok : regAddrOk a = true)
    (hcommit : regCommit s a w = after s (exec c s)) (hc : ∃ t, exec c s = .next t) :
    exec (.registerWrite a w) s = exec c s := by
  rw [exec_registerWrite_on w hon hok, hcommit, next_after s hc]

/-- TAB_CMD.OP 1 starts a READ of the table window, OP 2 a WRITE. -/
theorem regCommit_tabCmd (s : State) (w : Word) :
    (w.toNat % 4 = 1 → regCommit s 0x0628 w = after s (exec (.tableRead (BitVec.ofNat 8 (w.toNat / 256))) s)) ∧
    (w.toNat % 4 = 2 → regCommit s 0x0628 w = after s (exec (.tableWrite (BitVec.ofNat 8 (w.toNat / 256))) s)) := by
  refine ⟨fun h => ?_, fun h => ?_⟩
  · simp only [regCommit, h]
    rfl
  · simp only [regCommit, h]
    rfl

/-- Past the map a register reads as 0 (R6). -/
theorem regRead_past_map {a : Nat} (h : 0x0FFC < a) (s : State) :
    isRc a = false ∧ latchGroup s a = [] ∧ regRead s a = 0 := by
  have hrc : isRc a = false := by
    rw [Bool.eq_false_iff]
    intro hrc
    have hall : ∀ b ∈ rcRegs, b ≤ 0x0FFC := by decide
    exact absurd (hall a (mem_rcRegs hrc)) (by omega)
  have hrw : rwMask a = 0 := by
    unfold rwMask
    split <;> trivial
  have hst : readsStored a = false := by
    simp [readsStored, hrc, hrw]
    omega
  have hl : isLatched a = false := by
    simp [isLatched]
    omega
  have hg : latchGroup s a = [] := by
    unfold latchGroup
    split <;> trivial
  refine ⟨hrc, hg, ?_⟩
  unfold regRead
  simp only [hl, hg, hst, Bool.false_eq_true, if_false]
  split <;> trivial

/-! ### REGISTER_WRITE and the MSP that does not answer -/

/-- R367: a read past the map drives zeros. -/
theorem exec_rcRead_past_map {s : State} {a : Nat} (hon : s.mspOn = true) (ha : a % 4 = 0) (h : 0x0FFC < a) :
    exec (.rcRead a) s = .next (s.drives 0) := by
  obtain ⟨hrc, hg, hr⟩ := regRead_past_map h s
  rw [exec_rcRead_plain hon (decide_eq_true ha) hrc hg, hr]

/-- R365: a frame drives nothing while the MSP is off. -/
theorem mspFrame_off {s : State} (hoff : s.mspOn = false) (f : List Byte) (n : Nat) :
    mspFrame s f n = { s with msp := { s.msp with sdo := [] } } := by
  simp [mspFrame, hoff]

/-- R365: register commands have no effect while the MSP is off. -/
theorem exec_registerCommand_off {s : State} (hoff : s.mspOn = false) :
    (∀ a w, exec (.registerWrite a w) s = .next s) ∧ (∀ a, exec (.rcRead a) s = .next s) ∧
    (∀ a, exec (.latchedGroupRead a) s = .next s) := by
  have hn : (!s.mspOn) = true := by rw [hoff]; rfl
  exact ⟨fun _ _ => if_pos hn, fun _ => congrArg _ (if_pos hn), fun _ => congrArg _ (if_pos hn)⟩

/-- R365: a command of a register has no effect while the MSP is off. -/
theorem exec_ownCommand_off {s : State} (hoff : s.mspOn = false) :
    (∀ w, exec (.glbNodeWrite w) s = .next s ∧ exec (.clkCclkMWrite w) s = .next s ∧ exec (.memScrubWrite w) s = .next s ∧
       exec (.todIncrHiWrite w) s = .next s ∧ exec (.todIncrLoWrite w) s = .next s ∧ exec (.epcSchedNsWrite w) s = .next s) ∧
    (∀ b, exec (.epcCtrlBoundary b) s = .next s) ∧ exec .fltPop s = .next s ∧ exec .twnCmdAdopt s = .next s := by
  have hn : (!s.mspOn) = true := by rw [hoff]; rfl
  have hh : ¬ s.mspOn = true := by rw [hoff]; exact Bool.false_ne_true
  exact ⟨fun _ => ⟨if_pos hn, if_pos hn, if_pos hn, congrArg _ (if_neg hh), if_pos hn, if_pos hn⟩, fun _ => if_pos hn,
    if_pos (by rw [hn, Bool.true_or]), if_neg (by rw [hoff, Bool.false_and]; exact Bool.false_ne_true)⟩

/-- R371, R367: an address that is no multiple of 4 is refused. -/
theorem exec_registerCommand_misaligned {s : State} {a : Nat} (w : Word) (hon : s.mspOn = true) (ha : a % 4 ≠ 0) :
    exec (.registerWrite a w) s = .next (addrRefused s) ∧ exec (.rcRead a) s = .next (addrRefused (s.drives 0)) := by
  constructor
  · show execRegisterWrite a w s = _
    simp [execRegisterWrite, hon, wordAddr, ha]
  · show execRcRead a s = _
    simp [execRcRead, readWord1, hon, wordAddr, ha, State.drives]

/-- Settles O2: the committed word is a plain write, which `plainWord` gives bit by bit, or the command of its register. -/
theorem registerWriteStoresFields : Obligations.RegisterWriteStoresFields := by
  refine ⟨fun s a w hok hon hcmd => ?_, fun s w hon => ?_, fun s hoff => ?_, fun s a w hon => ?_⟩
  · obtain ⟨hbits, hframe, hregs⟩ := regCommit_stores s w hcmd
    have hkeep : ∀ k, k ≠ regKey s a → k ∉ [0x0104, 0x012C, 0x0130] → (regCommit s a w).reg k = s.reg k := fun k hk hn =>
      (hregs k hn).trans (plainWrite_reg_ne s a w.toNat hk)
    refine ⟨_, exec_registerWrite_on w hon hok, hbits, hkeep, hframe, fun hclk => ?_⟩
    rw [regCommit_plain s w hcmd hclk]
    exact ⟨fun k hk => plainWrite_reg_ne s a w.toNat hk, rfl⟩
  · refine ⟨?_, ?_, ?_, ?_, ?_, ?_, ?_, ?_, ?_, ?_, fun h => ?_, fun h => ?_, fun h => ?_, fun h => ?_, fun h => ?_⟩
    · exact exec_registerWrite_command hon rfl rfl (glbNodeWrite_answers w s)
    · exact exec_registerWrite_command hon rfl rfl (clkCclkMWrite_answers w s)
    · exact exec_registerWrite_command hon rfl rfl ⟨_, rfl⟩
    · exact exec_registerWrite_command hon rfl rfl (todIncrLoWrite_answers w s)
    · exact exec_registerWrite_command hon rfl rfl (epcSchedSecWrite_answers true w s)
    · exact exec_registerWrite_command hon rfl rfl (epcSchedSecWrite_answers false w s)
    · exact exec_registerWrite_command hon rfl rfl (epcSchedNsWrite_answers w s)
    · exact exec_registerWrite_command hon rfl rfl (twnPeerNodeWrite_answers true w s)
    · exact exec_registerWrite_command hon rfl rfl (twnPeerNodeWrite_answers false w s)
    · exact exec_registerWrite_command hon rfl rfl (memScrubWrite_answers w s)
    · exact exec_registerWrite_command hon rfl (if_pos h) (epcCtrlBoundary_answers _ s)
    · exact exec_registerWrite_command hon rfl (if_pos h) (twnCmdAdopt_answers s)
    · exact exec_registerWrite_command hon rfl (if_pos h) (fltPop_answers s)
    · exact exec_registerWrite_command hon rfl ((regCommit_tabCmd s w).1 h) ⟨_, rfl⟩
    · exact exec_registerWrite_command hon rfl ((regCommit_tabCmd s w).2 h) ⟨_, rfl⟩
  · obtain ⟨hw, hr, hl⟩ := exec_registerCommand_off hoff
    exact ⟨fun a w => ⟨hw a w, hr a, hl a⟩,
      fun f n => ⟨congrArg _ (mspFrame_off hoff f _), congrArg _ (mspFrame_off hoff f _), congrArg _ (mspFrame_off hoff f _)⟩,
      exec_ownCommand_off hoff⟩
  · refine ⟨fun ha hpast => ⟨?_, exec_rcRead_past_map hon ha hpast⟩, fun ha => ?_⟩
    · show execRegisterWrite a w s = _
      simp [execRegisterWrite, hon, wordAddr, ha, Nat.not_le.2 hpast]
    · obtain ⟨hw, hr⟩ := exec_registerCommand_misaligned w hon ha
      exact ⟨hw, hr, rfl⟩

end Sys2Proof.Machine
end

section
/-! PROOFS. What outlives the work of a boundary: the table words and staged registers, as written and as in force, and the
bytes of CBUF and local memory. -/

namespace Sys2Proof.Machine

/-- The table words as written and as in force, the staged registers as written and as in force, and the bytes of CBUF and
local memory: what the apply stage takes over or keeps (R5, R39, R234). -/
@[irreducible] def stagedView (s : State) :
    List (Nat × Nat) × List (Nat × Nat) × List (Nat × Nat) × List Host.Cell × List Nat :=
  (s.tab, s.tabF, s.regsF, s.mem.sram, stagedRegs.map s.reg)

theorem stagedView_iff {s t : State} : stagedView t = stagedView s ↔
    t.tab = s.tab ∧ t.tabF = s.tabF ∧ t.regsF = s.regsF ∧ t.mem.sram = s.mem.sram ∧ ∀ k ∈ stagedRegs, t.reg k = s.reg k := by
  simp only [stagedView, Prod.mk.injEq, List.map_inj_left]

/-- An update of other fields keeps the view. -/
theorem stagedView_congr {s t : State} (htab : t.tab = s.tab) (htabF : t.tabF = s.tabF) (hregs : t.regs = s.regs)
    (hregsF : t.regsF = s.regsF) (hsram : t.mem.sram = s.mem.sram) : stagedView t = stagedView s :=
  stagedView_iff.2 ⟨htab, htabF, hregsF, hsram, fun k _ => by rw [State.reg, hregs, State.reg]⟩

/-- The same behind a state that keeps the view. -/
theorem stagedView_then {s t u : State} (h : stagedView t = stagedView s) (htab : u.tab = t.tab) (htabF : u.tabF = t.tabF)
    (hregs : u.regs = t.regs) (hregsF : u.regsF = t.regsF) (hsram : u.mem.sram = t.mem.sram) : stagedView u = stagedView s :=
  (stagedView_congr htab htabF hregs hregsF hsram).trans h

/-! ### Registers that are not staged -/

@[simp] theorem stagedView_setCc (s : State) (c : CcSt) : stagedView (s.setCc c) = stagedView s := stagedView_congr rfl rfl rfl rfl rfl

theorem stagedView_setReg (s : State) {k : Nat} (v : Nat) (hk : k ∉ stagedRegs) : stagedView (s.setReg k v) = stagedView s :=
  stagedView_iff.2 ⟨rfl, rfl, rfl, rfl, fun j hj => by rw [State.setReg_reg, if_neg (fun h : k = j => hk (h ▸ hj))]⟩

theorem stagedView_bump (s : State) {k : Nat} (n : Nat) (hk : k ∉ stagedRegs) : stagedView (s.bump k n) = stagedView s :=
  (stagedView_setCc _ _).trans (stagedView_setReg s _ hk)

theorem stagedView_setBit (s : State) {k : Nat} (i : Nat) (hk : k ∉ stagedRegs) : stagedView (s.setBit k i) = stagedView s :=
  (stagedView_setCc _ _).trans (stagedView_setReg s _ hk)

/-- A register past 0x0780 is not staged. -/
theorem not_staged_of_lt {k : Nat} (h : 0x0780 < k) : k ∉ stagedRegs := by
  simp only [stagedRegs, List.mem_cons, List.not_mem_nil, or_false]
  omega

/-- A port's status register, in its bank or at TP, is not staged. -/
theorem lkey_status_not_staged (p : Nat) : lkey p 0x0308 0x0454 ∉ stagedRegs := by
  unfold lkey bankKey
  split
  · exact not_staged_of_lt (by omega)
  · decide

theorem stackOf_lt (pa : Nat) : stackOf pa < 4 :=
  Nat.xor_lt_two_pow (n := 2) (Nat.mod_lt _ (by decide)) (Nat.mod_lt _ (by decide))

/-- A stack's count of corrected errors is not staged. -/
theorem ceCount_not_staged (pa : Nat) : 0x0498 + 4 * stackOf pa ∉ stagedRegs := by
  have := stackOf_lt pa
  simp only [stagedRegs, List.mem_cons, List.not_mem_nil, or_false]
  omega

/-- What every step of a fold keeps, its end keeps. -/
theorem stagedView_foldl {α : Type} {f : State → α → State} (hf : ∀ s x, stagedView (f s x) = stagedView s) :
    ∀ (l : List α) (s : State), stagedView (l.foldl f s) = stagedView s
  | [], _ => rfl
  | x :: l, s => (stagedView_foldl hf l _).trans (hf s x)

/-- A choice between two states that keep the view keeps it. -/
theorem stagedView_ite {c : Prop} [Decidable c] {s t u : State} (ht : stagedView t = stagedView s) (hu : stagedView u = stagedView s) :
    stagedView (if c then t else u) = stagedView s := by
  split
  · exact ht
  · exact hu

/-- R344, R345: the clock selection touches none of it. -/
theorem MovesClock.stagedView_eq {s t : State} (h : MovesClock s t) : stagedView t = stagedView s := by
  obtain ⟨hframe, hregs⟩ := h
  have hkey : ∀ k ∈ stagedRegs, k ∉ [0x0104, 0x012C, 0x0130] := by decide
  refine stagedView_iff.2 ⟨?_, ?_, ?_, ?_, fun k hk => hregs k (hkey k hk)⟩ <;> rw [hframe]

/-! ### Reports and writes of HBM -/

theorem stagedView_traceAdd (s : State) (tag kind t q d : Nat) : stagedView (traceAdd s tag kind t q d) = stagedView s := by
  unfold traceAdd
  extract_lets u
  have hu : stagedView u = stagedView s := stagedView_congr rfl rfl rfl rfl rfl
  exact stagedView_ite rfl (stagedView_ite hu
    ((stagedView_setBit _ _ (by decide)).trans ((stagedView_bump _ _ (by decide)).trans hu)))

theorem stagedView_traceTen (s : State) (tag kind t q d : Nat) : stagedView (traceTen s tag kind t q d) = stagedView s :=
  stagedView_ite (stagedView_traceAdd s tag kind t q d) rfl

theorem stagedView_modTen (s : State) (t : Nat) (f : TenSt → TenSt) : stagedView (s.modTen t f) = stagedView s := stagedView_congr rfl rfl rfl rfl rfl

/-- R395: a fault record. -/
@[simp] theorem stagedView_recordFault (s : State) (r : FaultRec) : stagedView (recordFault s r) = stagedView s := by
  unfold recordFault
  extract_lets r1 flt s1
  have h1 : stagedView s1 = stagedView s := stagedView_congr rfl rfl rfl rfl rfl
  exact stagedView_ite ((stagedView_traceTen _ _ _ _ _ _).trans ((stagedView_modTen s1 _ _).trans h1)) h1

@[simp] theorem stagedView_modFlight (s : State) (q n : Nat) (f : Flight → Flight) :
    stagedView (s.modFlight q n f) = stagedView s := stagedView_congr rfl rfl rfl rfl rfl

@[simp] theorem stagedView_chainFault (s : State) (q c : Nat) : stagedView (chainFault s q c) = stagedView s := stagedView_congr rfl rfl rfl rfl rfl

@[simp] theorem stagedView_once (s : State) (o : List Nat) : stagedView { s with once := o } = stagedView s := stagedView_congr rfl rfl rfl rfl rfl

@[simp] theorem stagedView_setCbl (s : State) (k : Nat) (c : CblSt) : stagedView (s.setCbl k c) = stagedView s := stagedView_congr rfl rfl rfl rfl rfl

@[simp] theorem stagedView_flightOnce (s : State) (q n code u l d : Nat) :
    stagedView (flightOnce s q n code u l d) = stagedView s := by
  unfold flightOnce
  split
  · rfl
  · refine stagedView_ite rfl ?_
    unfold flightFault
    split
    · rfl
    · simp

/-- R239, R240: a record a requester writes once. -/
@[simp] theorem stagedView_agentOnce (s : State) (a : Agent) (c d : Nat) : stagedView (agentOnce s a c d) = stagedView s := by
  unfold agentOnce
  split
  · simp
  · refine stagedView_ite rfl ?_
    extract_lets s1 s2
    have h2 : stagedView s2 = stagedView s := (stagedView_recordFault s1 _).trans (stagedView_setCbl s _ _)
    split <;> simp [h2]
  · exact stagedView_ite rfl (by simp)
  · exact stagedView_ite rfl (by simp)
  · exact stagedView_ite rfl (by simp)
  all_goals simp

theorem stagedView_tick1 (s : State) : stagedView s.tick1 = stagedView s := stagedView_congr rfl rfl rfl rfl rfl

/-- R247: the error log. -/
theorem stagedView_logUE (s : State) (a : Agent) (k u d : Nat) : stagedView (logUE s a k u d) = stagedView s := by
  unfold logUE
  refine stagedView_ite (stagedView_setBit _ _ (by decide)) ?_
  extract_lets syn s1 s2 s3
  have h1 : stagedView s1 = stagedView s := stagedView_tick1 s
  have h2 : stagedView s2 = stagedView s := (stagedView_setBit _ _ (by decide)).trans ((stagedView_setReg s1 _ (by decide)).trans h1)
  have h3 : stagedView s3 = stagedView s := (stagedView_setReg _ _ (by decide)).trans ((stagedView_setReg s2 _ (by decide)).trans h2)
  exact (stagedView_setReg s3 _ (by decide)).trans h3

theorem stagedView_placeLine (s : State) (p : CellWr) (c : Cell) : stagedView (placeLine s p c) = stagedView s :=
  by apply stagedView_congr <;> simp only [placeLine, State.setLine, State.setLineErr, State.setCc]

/-- R240, R241: a write of one line. -/
theorem stagedView_writeLine (s : State) (a : Agent) (l : Nat) (new : List (Option Byte)) (poison : Bool) (mask : List Byte) :
    stagedView (writeLine s a l new poison mask) = stagedView s := by
  unfold writeLine
  extract_lets st ag c p s1 s2 s3
  refine stagedView_ite (stagedView_agentOnce s ag _ _) ?_
  have h2 : stagedView s2 = stagedView s := stagedView_congr rfl rfl rfl rfl rfl
  have h3 : stagedView s3 = stagedView s := by
    refine stagedView_ite h2 ?_
    split
    · exact h2
    · exact (stagedView_bump s2 1 (ceCount_not_staged _)).trans h2
    · exact (stagedView_agentOnce _ _ _ _).trans ((stagedView_logUE _ _ _ _ _).trans ((stagedView_bump _ 1 (by decide)).trans
        ((stagedView_bump s2 1 (by decide)).trans h2)))
    · exact (stagedView_agentOnce _ _ _ _).trans ((stagedView_bump s2 1 (by decide)).trans h2)
  exact (stagedView_placeLine _ p c).trans (stagedView_ite ((stagedView_bump s3 1 (by decide)).trans h3) h3)

theorem stagedView_writePhys (s : State) (a : Agent) (pa : Nat) (new : List (Option Byte)) (poison : Bool) :
    stagedView (writePhys s a pa new poison) = stagedView s :=
  stagedView_foldl (fun _ _ => stagedView_writeLine _ _ _ _ _ _) _ s

/-! ### The journal and tenant writes -/

theorem stagedView_ringPut (s : State) (reg off : Nat) (bs : List Byte) : stagedView (ringPut s reg off bs) = stagedView s := by
  unfold ringPut
  extract_lets n o s1
  have h1 : stagedView s1 = stagedView s := stagedView_writePhys _ _ _ _ _
  exact stagedView_ite h1 ((stagedView_writePhys _ _ _ _ _).trans h1)

theorem stagedView_startSession (s : State) (t : Nat) : stagedView (startSession s t) = stagedView s := stagedView_congr rfl rfl rfl rfl rfl

theorem stagedView_txAppend (s : State) (r : JRec) : stagedView (txAppend s r) = stagedView s := by
  unfold txAppend
  extract_lets s1 twn
  have h1 : stagedView s1 = stagedView s := stagedView_ringPut s 0x0420 _ _
  exact stagedView_then h1 rfl rfl rfl rfl rfl

/-- R324: a journal record. -/
theorem stagedView_jrnlForm (s : State) (r : JRec) : stagedView (jrnlForm s r) = stagedView s := by
  unfold jrnlForm
  extract_lets auth s1 r1 s2 twn2 s3 twn3
  have h1 : stagedView s1 = stagedView s := stagedView_ite (stagedView_startSession s _) rfl
  have h2 : stagedView s2 = stagedView s := (stagedView_txAppend s1 _).trans h1
  have h3 : stagedView s3 = stagedView s := (stagedView_bump s1 1 (by decide)).trans h1
  clear_value s2 s3
  exact stagedView_ite (stagedView_then h2 rfl rfl rfl rfl rfl) (stagedView_then h3 rfl rfl rfl rfl rfl)

theorem stagedView_jrnlLines (s : State) (rk t a f : Nat) (ls : List Nat) (seed : Bool) :
    stagedView (jrnlLines s rk t a f ls seed) = stagedView s :=
  stagedView_foldl (fun _ _ => stagedView_jrnlForm _ _) _ s

/-- R304, R323: one write request. -/
theorem stagedView_reqWrite (s : State) (a : Agent) (t w : Nat) (ls : List LineWr) :
    stagedView (reqWrite s a t w ls).1 = stagedView s := by
  unfold reqWrite
  extract_lets first addr prot
  split
  · exact (stagedView_agentOnce _ _ _ _).trans (stagedView_modTen s t _)
  · rename_i s1 s2 _
    have h1 : stagedView s1 = stagedView s := stagedView_ite (stagedView_modTen s t _) rfl
    have h2 : stagedView s2 = stagedView s := (stagedView_foldl (fun _ _ => stagedView_writeLine _ _ _ _ _ _) ls s1).trans h1
    exact stagedView_ite ((stagedView_jrnlLines _ _ _ _ _ _ _).trans h2) h2

theorem stagedView_tenWrite (s : State) (a : Agent) (t addr : Nat) (new : List (Option Byte)) (poison : Bool) :
    stagedView (tenWrite s a t addr new poison).1 = stagedView s := by
  unfold tenWrite
  split
  · rfl
  · split
    · rfl
    · split
      · rfl
      · exact stagedView_reqWrite _ _ _ _ _

theorem stagedView_modStr (s : State) (c : Nat) (f : StrSt → StrSt) : stagedView (s.modStr c f) = stagedView s := stagedView_congr rfl rfl rfl rfl rfl

/-- R311, R312: an open frame closes. -/
theorem stagedView_closeFrame (s : State) (c : Nat) (trunc : Bool) : stagedView (closeFrame s c trunc) = stagedView s := by
  unfold closeFrame
  split
  · rfl
  · extract_lets s1 w
    have h1 : stagedView s1 = stagedView s := stagedView_modStr s c _
    have hw : stagedView w.1 = stagedView s := (stagedView_tenWrite _ _ _ _ _ _).trans h1
    exact stagedView_ite h1 (stagedView_ite ((stagedView_modStr s1 c _).trans h1)
      (stagedView_ite ((stagedView_modStr w.1 c _).trans hw) ((stagedView_modStr w.1 c _).trans hw)))

/-! ### Ports and the pair -/

@[simp] theorem stagedView_modPort (s : State) (p : Nat) (f : PortSt → PortSt) : stagedView (s.modPort p f) = stagedView s :=
  stagedView_congr rfl rfl rfl rfl rfl

theorem stagedView_setObs (s : State) (u o c : Nat) : stagedView (setObs s u o c) = stagedView s :=
  (setObs_movesClock s u o c).stagedView_eq

theorem stagedView_clkEval (s : State) : stagedView (clkEval s) = stagedView s := (clkEval_movesClock s).stagedView_eq

theorem stagedView_portObs (s : State) (p : Nat) : stagedView (portObs s p) = stagedView s := by
  unfold portObs
  exact stagedView_ite rfl (stagedView_setObs _ _ _ _)

theorem stagedView_portEvent (s : State) (p : Nat) : stagedView (portEvent s p) = stagedView s :=
  stagedView_setBit s 31 (lkey_status_not_staged p)

theorem stagedView_evDrop (s : State) (cause n : Nat) : stagedView (evDrop s cause n) = stagedView s := by
  unfold evDrop
  exact stagedView_ite rfl (stagedView_bump s n (not_staged_of_lt (by omega)))

@[simp] theorem stagedView_pushMsg (s : State) (p : Nat) (m : Msg) (h u : Nat) : stagedView (pushMsg s p m h u) = stagedView s := by
  unfold pushMsg
  exact stagedView_modPort _ _ _

theorem stagedView_reqDone (s : State) (p : Nat) (r : Req) (ok : Bool) (st f : Nat) (ls : List RemoteLine) :
    stagedView (reqDone s p r ok st f ls) = stagedView s := by
  unfold reqDone
  extract_lets s1
  have h1 : stagedView s1 = stagedView s := stagedView_modPort s p _
  clear_value s1
  split
  · exact stagedView_ite (by simp [h1]) (by simp [h1])
  · exact h1

/-- R254, R294: every request of a port completes locally. -/
theorem stagedView_reqsDown (s : State) (p : Nat) : stagedView (reqsDown s p) = stagedView s :=
  stagedView_foldl (fun _ _ => stagedView_reqDone _ _ _ _ _ _ _) _ s

theorem stagedView_sendTState (s : State) : stagedView (sendTState s) = stagedView s := by
  unfold sendTState
  exact stagedView_ite ((stagedView_pushMsg _ _ _ _ _).trans (stagedView_congr rfl rfl rfl rfl rfl)) rfl

theorem stagedView_unpair (s : State) : stagedView (unpair s) = stagedView s := stagedView_congr rfl rfl rfl rfl rfl

theorem stagedView_startSeeding (s : State) : stagedView (startSeeding s) = stagedView s := by
  unfold startSeeding
  extract_lets twn s1
  have h1 : stagedView s1 = stagedView s := stagedView_congr rfl rfl rfl rfl rfl
  exact (stagedView_foldl (fun u t => stagedView_ite (stagedView_startSession u t) rfl) _ s1).trans h1

/-- R321, R331, R333: PSTATE takes a value. -/
theorem stagedView_pairTo (s : State) (st : Nat) : stagedView (pairTo s st) = stagedView s := by
  unfold pairTo
  extract_lets s1 twn1 s2 twn2 s3
  have h1 : stagedView s1 = stagedView s := stagedView_ite (stagedView_unpair s) rfl
  have h2 : stagedView s2 = stagedView s := stagedView_then h1 rfl rfl rfl rfl rfl
  have h3 : stagedView s3 = stagedView s :=
    stagedView_ite ((stagedView_startSeeding _).trans (stagedView_then h2 rfl rfl rfl rfl rfl)) h2
  exact stagedView_ite rfl ((stagedView_sendTState _).trans ((stagedView_setBit s3 31 (by decide)).trans h3))

theorem stagedView_pairJudge (s : State) : stagedView (pairJudge s) = stagedView s := by
  unfold pairJudge
  exact stagedView_ite (stagedView_pairTo s 5) rfl

theorem stagedView_modKey (s : State) (k : Nat) (f : KeySt → KeySt) : stagedView (s.modKey k f) = stagedView s :=
  stagedView_congr rfl rfl rfl rfl rfl

theorem stagedView_sendHello (s : State) (p : Nat) : stagedView (sendHello s p) = stagedView s := by
  unfold sendHello
  exact (stagedView_modPort _ p _).trans (stagedView_pushMsg s p _ _ _)

/-- R253, R254: a port enters a state. -/
theorem stagedView_portTo (s : State) (p : Nat) (st : PState) : stagedView (portTo s p st) = stagedView s := by
  unfold portTo
  extract_lets old leaves s1 s2 s3 s4 s5 w sAlign k n f sHello clear s6 s7 twn cc s8 s9
  have h1 : stagedView s1 = stagedView s := stagedView_ite (stagedView_reqsDown s p) rfl
  have h2 : stagedView s2 = stagedView s := stagedView_ite ((stagedView_evDrop s1 7 _).trans h1) h1
  have h3 : stagedView s3 = stagedView s := stagedView_ite ((stagedView_modPort s2 p _).trans h2) h2
  have h4 : stagedView s4 = stagedView s := stagedView_ite ((stagedView_portEvent s3 p).trans h3) h3
  have hport : ∀ g, stagedView (s4.modPort p g) = stagedView s := fun g => (stagedView_modPort s4 p g).trans h4
  have h5 : stagedView s5 = stagedView s := hport _
  have hport5 : ∀ g, stagedView (s5.modPort p g) = stagedView s := fun g => (stagedView_modPort s5 p g).trans h5
  have hAlign : stagedView sAlign = stagedView s := hport5 _
  have hf : stagedView f.2 = stagedView s := stagedView_then h5 rfl rfl rfl rfl rfl
  have hHello : stagedView sHello = stagedView s := (stagedView_modPort f.2 p _).trans hf
  have h6 : stagedView s6 = stagedView s := by
    unfold s6
    clear_value s5 sAlign sHello
    split
    · exact hport5 _
    · exact hport5 _
    · exact stagedView_ite ((stagedView_modPort _ p _).trans ((stagedView_modKey sAlign k _).trans hAlign)) hAlign
    · exact (stagedView_sendHello sHello p).trans hHello
    · exact hport5 _
    · exact hport5 _
    · exact hport5 _
  have h7 : stagedView s7 = stagedView s := (stagedView_portObs s6 p).trans h6
  clear_value s7
  have h8 : stagedView s8 = stagedView s := stagedView_ite (stagedView_then h7 rfl rfl rfl rfl rfl) h7
  have h9 : stagedView s9 = stagedView s := stagedView_ite ((stagedView_pairTo s8 3).trans h8) h8
  refine stagedView_ite rfl (stagedView_ite ((stagedView_clkEval _).trans ?_) h7)
  exact stagedView_ite ((stagedView_pairJudge _).trans ((stagedView_sendTState s9).trans h9)) h9

/-- R253, R401: a commanded unit state takes force at its port. -/
theorem stagedView_portForce (s : State) (p f : Nat) : stagedView (portForce s p f) = stagedView s := by
  unfold portForce
  refine stagedView_ite ?_ rfl
  split
  · exact stagedView_portTo _ _ _
  · exact stagedView_portTo _ _ _
  · exact stagedView_portTo _ _ _
  · exact stagedView_portTo _ _ _
  · rfl

/-! ### The apply stage -/

theorem stagedView_setWin (s : State) (e : Nat) (x : WinSt) : stagedView (s.setWin e x) = stagedView s :=
  stagedView_congr rfl rfl rfl rfl rfl

theorem stagedView_modQ (s : State) (q : Nat) (f : QueueSt → QueueSt) : stagedView (s.modQ q f) = stagedView s :=
  stagedView_congr rfl rfl rfl rfl rfl

theorem stagedView_modVc (s : State) (v : Nat) (f : VcSt → VcSt) : stagedView (s.modVc v f) = stagedView s :=
  stagedView_congr rfl rfl rfl rfl rfl

theorem stagedView_modUnit (s : State) (u : Nat) (f : UnitSt → UnitSt) : stagedView (s.modUnit u f) = stagedView s :=
  stagedView_congr rfl rfl rfl rfl rfl

theorem stagedView_modCbl (s : State) (k : Nat) (f : CblSt → CblSt) : stagedView (s.modCbl k f) = stagedView s :=
  stagedView_congr rfl rfl rfl rfl rfl

theorem stagedView_clearValid (s : State) (a n : Nat) : stagedView (clearValid s a n) = stagedView s :=
  stagedView_congr rfl rfl rfl rfl rfl

theorem stagedView_validateWindows (s old : State) : stagedView (validateWindows s old) = stagedView s := by
  unfold validateWindows
  exact stagedView_foldl (fun u e => stagedView_setWin u e _) _ s

theorem stagedView_validateTenants (s old : State) : stagedView (validateTenants s old) = stagedView s := by
  unfold validateTenants
  exact stagedView_foldl (fun u t => stagedView_modTen u t _) _ s

theorem stagedView_validateQueues (s old : State) : stagedView (validateQueues s old) = stagedView s := by
  unfold validateQueues
  exact stagedView_foldl (fun u q => stagedView_modQ u q _) _ s

theorem stagedView_validateStreams (s : State) : stagedView (validateStreams s) = stagedView s := by
  unfold validateStreams
  exact stagedView_foldl (fun u c => stagedView_modStr u c _) _ s

theorem stagedView_validateLace (s : State) : stagedView (validateLace s) = stagedView s := by
  unfold validateLace
  exact stagedView_foldl (fun u v => stagedView_modVc u v _) _ s

theorem stagedView_validateTrace (s : State) : stagedView (validateTrace s) = stagedView s :=
  stagedView_congr rfl rfl rfl rfl rfl

/-- R316, R317, R322: the pair in the apply stage. -/
theorem stagedView_twinApply (s : State) (old : Nat) : stagedView (twinApply s old) = stagedView s := by
  unfold twinApply
  extract_lets apart adopts t fresh m mode active home want entering stays run rings s1 s2
  have h1 : stagedView s1 = stagedView s := stagedView_congr rfl rfl rfl rfl rfl
  have h2 : stagedView s2 = stagedView s := stagedView_ite ((stagedView_pairTo s1 1).trans h1) h1
  have hto : ∀ n, stagedView (pairTo s2 n) = stagedView s := fun n => (stagedView_pairTo s2 n).trans h2
  clear_value s1 s2
  refine stagedView_ite ((stagedView_pairTo s1 0).trans h1) (stagedView_ite ?_ ?_)
  · exact stagedView_ite (hto 5) (stagedView_ite ((stagedView_startSeeding s2).trans h2) h2)
  · exact stagedView_ite (hto 5) (stagedView_ite (hto 2) h2)

/-- R253, R401: commanded unit states take force. -/
theorem stagedView_applyUnits (s : State) : stagedView (applyUnits s) = stagedView s := by
  unfold applyUnits
  extract_lets s1
  have h1 : stagedView s1 = stagedView s := stagedView_foldl (fun u i => stagedView_modUnit u i _) _ s
  refine (stagedView_foldl (fun u p => ?_) _ s1).trans h1
  extract_lets f again u1 st
  have hu : stagedView u1 = stagedView u := stagedView_ite (stagedView_modPort u p _) rfl
  have hto : ∀ st, stagedView (portTo u1 p st) = stagedView u := fun st => (stagedView_portTo u1 p st).trans hu
  clear_value u1
  refine stagedView_ite (hto _) (stagedView_ite ?_ ((stagedView_portForce u1 p f).trans hu))
  exact (stagedView_modPort _ p _).trans (hto _)

/-- R184, R185: Cobblers take their holders. -/
theorem stagedView_applyHolders (s : State) : stagedView (applyHolders s) = stagedView s := by
  unfold applyHolders
  refine stagedView_foldl (fun u k => stagedView_ite rfl ?_) _ s
  exact (stagedView_modCbl _ k _).trans (stagedView_clearValid u _ _)

theorem stagedView_dropRecords (s old : State) : stagedView (dropRecords s old) = stagedView s :=
  stagedView_congr rfl rfl rfl rfl rfl

/-- R234: valid bits are cleared. -/
theorem stagedView_clearScratch (s old : State) : stagedView (clearScratch s old) = stagedView s := by
  unfold clearScratch
  refine stagedView_foldl (fun u v => stagedView_ite (stagedView_clearValid u _ _) ?_) _ s
  exact stagedView_foldl (fun x r => stagedView_ite rfl (stagedView_clearValid x _ _)) _ u

/-! ### Frames of changed channels, and what takes force -/

/-- Frames of the stream channels whose entries change are closed (R314). -/
def closeChanged (s : State) : State :=
  (List.range 8).foldl (fun s c =>
    if (List.range 3).any fun w => s.tw 0x0B c w != s.tf 0x0B c w then closeFrame s c true else s) s

/-- The staged words and registers take force as last written (R5). -/
def takeForce (s : State) : State := stagedRegs.foldl (fun s k => s.setRegF k (s.reg k)) { s with tabF := s.tab }

/-- What took force is validated, and the pair, the ports and the Cobblers' holders follow; `old` is the state whose
entries end (R60, R228, R300, R401). -/
def settleForce (s old : State) : State :=
  applyHolders (applyUnits (validateTrace (validateLace (validateStreams (validateQueues
    (twinApply (validateTenants (validateWindows s old) old) (validSet old &&& old.twn.run)) old)))))

/-- The state the apply stage leaves, from the one whose entries end (R39). -/
def appliedFrom (old : State) : State :=
  let u := dropRecords (clearScratch (settleForce (takeForce old) old) old) old
  { u with epc := { u.epc with applied := true } }

/-- R39: the apply stage of a boundary that has cleared, 96 cc into CLEAR. -/
theorem exec_applyStaged_due {s : State} (hlive : s.live = true) (hst : s.epc.state = .clear) (hcl : s.epc.cleared = true)
    (hap : s.epc.applied = false) (hdue : s.epc.since + 96 ≤ s.now) :
    exec .applyStaged s = .next (appliedFrom (closeChanged s)) := by
  have hcond : ¬ (!s.live || decide (s.epc.state ≠ .clear) || !s.epc.cleared || s.epc.applied ||
      decide (s.now < s.epc.since + 96)) = true := by
    simp [hlive, hst, hcl, hap, hdue]
  show execApplyStaged s = _
  unfold execApplyStaged appliedFrom closeChanged takeForce settleForce
  rw [if_neg hcond]

theorem stagedView_closeChanged (s : State) : stagedView (closeChanged s) = stagedView s := by
  unfold closeChanged
  exact stagedView_foldl (fun u c => stagedView_ite (stagedView_closeFrame u c true) rfl) _ s

theorem stagedView_settleForce (s old : State) : stagedView (settleForce s old) = stagedView s := by
  unfold settleForce
  rw [stagedView_applyHolders, stagedView_applyUnits, stagedView_validateTrace, stagedView_validateLace,
    stagedView_validateStreams, stagedView_validateQueues, stagedView_twinApply, stagedView_validateTenants,
    stagedView_validateWindows]

/-- Registers put in force one after another keep everything else, and each reads as written. -/
theorem foldl_setRegF (l : List Nat) : ∀ s : State,
    let t := l.foldl (fun s k => s.setRegF k (s.reg k)) s
    t = { s with regsF := t.regsF } ∧ ∀ k, t.regF' k = if k ∈ l then s.reg k else s.regF' k := by
  induction l with
  | nil => exact fun s => ⟨rfl, fun k => by simp⟩
  | cons j l ih =>
    intro s
    obtain ⟨hframe, hread⟩ := ih (s.setRegF j (s.reg j))
    refine ⟨hframe, fun k => ?_⟩
    rw [List.foldl_cons, hread, State.setRegF_regF']
    by_cases hl : k ∈ l
    · simp [hl, State.reg]
    · by_cases hj : j = k
      · subst hj; simp [hl]
      · simp [hl, hj, Ne.symm hj]

theorem takeForce_tabF (s : State) : (takeForce s).tabF = s.tab := by
  rw [takeForce, (foldl_setRegF stagedRegs _).1]

theorem takeForce_sram (s : State) : (takeForce s).mem.sram = s.mem.sram := by
  rw [takeForce, (foldl_setRegF stagedRegs _).1]

theorem takeForce_regF' (s : State) {k : Nat} (hk : k ∈ stagedRegs) : (takeForce s).regF' k = s.reg k :=
  ((foldl_setRegF stagedRegs _).2 k).trans (if_pos hk)

/-! ### Valid bits -/

theorem mget_dropRange {α : Type} (d : Nat → α) (m : List (Nat × α)) (lo n k : Nat) :
    mget d (dropRange m lo n) k = if lo ≤ k ∧ k < lo + n then d k else mget d m k := by
  induction m with
  | nil => simp [dropRange]
  | cons e m ih =>
    obtain ⟨k', v⟩ := e
    unfold dropRange at ih ⊢
    by_cases he : lo ≤ k' ∧ k' < lo + n
    · rw [List.filter_cons_of_neg (by simp [he]), ih, mget_cons]
      split
      · rfl
      · rw [if_neg (by rintro rfl; contradiction)]
    · rw [List.filter_cons_of_pos (by simp; omega), mget_cons, ih, mget_cons]
      by_cases hk : k' = k
      · subst hk; simp [he]
      · simp [hk]

/-- R234: the words of a cleared range are not valid, and no other word changes. -/
theorem clearValid_wordValid (s : State) (a n w : Nat) :
    (clearValid s a n).wordValid w = if a / 16 ≤ w ∧ w < a / 16 + n / 16 then false else s.wordValid w :=
  mget_dropRange _ s.mem.valid (a / 16) (n / 16) w

/-- A cleared word stays cleared. -/
theorem clearValid_keeps_invalid {s : State} {w : Nat} (a n : Nat) (h : s.wordValid w = false) :
    (clearValid s a n).wordValid w = false := by
  rw [clearValid_wordValid, h, ite_self]

/-- What no step of a fold undoes outlives it. -/
theorem foldl_keeps {α : Type} {f : State → α → State} {P : State → Prop} (hP : ∀ s y, P s → P (f s y)) :
    ∀ (l : List α) (s : State), P s → P (l.foldl f s)
  | [], _, h => h
  | y :: l, s, h => foldl_keeps hP l _ (hP s y h)

/-- A fold meets what one of its steps brings about and no step undoes. -/
theorem foldl_meets {α : Type} {f : State → α → State} {I P : State → Prop} {l : List α} {x : α} (hx : x ∈ l)
    (hI : ∀ s y, I s → I (f s y)) (hP : ∀ s y, P s → P (f s y)) (hstep : ∀ s, I s → P (f s x)) :
    ∀ s, I s → P (l.foldl f s) := by
  induction l with
  | nil => exact absurd hx List.not_mem_nil
  | cons y l ih =>
    intro s hs
    rcases List.mem_cons.1 hx with rfl | hmem
    · exact foldl_keeps hP l _ (hstep s hs)
    · exact ih hmem _ (hI s y hs)

/-- Residency is a word of the tables in force. -/
theorem resident_congr {s t : State} (h : stagedView t = stagedView s) (v r : Nat) : resident t v r = resident s v r := by
  rw [resident, resident, State.tf, State.tf, (stagedView_iff.1 h).2.1]

/-- R234: one region's valid bits, as the scratch regions of its VC are cleared. -/
theorem clearRegions_invalid {s : State} {v r w : Nat} (hr : r < 64) (hres : resident s v r = false)
    (hlo : cbufAddr v (r * 32768) / 16 ≤ w) (hhi : w < cbufAddr v (r * 32768) / 16 + 2048) :
    ((List.range 64).foldl (fun s r => if resident s v r then s else clearValid s (cbufAddr v (r * 32768)) 32768) s).wordValid w
      = false := by
  refine foldl_meets (I := fun u => resident u v r = false) (P := fun u => u.wordValid w = false) (List.mem_range.2 hr)
    (fun u y hu => ?_) (fun u y hu => ?_) (fun u hu => ?_) s hres
  · rw [resident_congr (stagedView_ite rfl (stagedView_clearValid u _ _)), hu]
  · split
    · exact hu
    · exact clearValid_keeps_invalid _ _ hu
  · rw [if_neg (by rw [hu]; exact Bool.false_ne_true), clearValid_wordValid, if_pos ⟨hlo, hhi⟩]

/-- R234: a word of a region the residency in force does not name is not valid after the scratch regions are cleared. -/
theorem clearScratch_invalid {s old : State} {v r w : Nat} (hv : v < 64) (hr : r < 64) (hres : resident s v r = false)
    (hlo : cbufAddr v (r * 32768) / 16 ≤ w) (hhi : w < cbufAddr v (r * 32768) / 16 + 2048) :
    (clearScratch s old).wordValid w = false := by
  unfold clearScratch
  extract_lets cm a b
  refine foldl_meets (I := fun u => resident u v r = false) (P := fun u => u.wordValid w = false) (List.mem_range.2 hv)
    (fun u y hu => ?_) (fun u y hu => ?_) (fun u hu => ?_) s hres
  · rw [resident_congr (stagedView_ite (stagedView_clearValid u _ _)
      (stagedView_foldl (fun x r => stagedView_ite rfl (stagedView_clearValid x _ _)) _ u)), hu]
  · split
    · exact clearValid_keeps_invalid _ _ hu
    · refine foldl_keeps (P := fun u => u.wordValid w = false) (fun x q hx => ?_) _ u hu
      split
      · exact hx
      · exact clearValid_keeps_invalid _ _ hx
  · split
    · rw [clearValid_wordValid, if_pos]
      unfold cbufAddr at *
      omega
    · exact clearRegions_invalid hr hu hlo hhi

/-! ### The apply stage as a whole -/

theorem appliedFrom_applied (old : State) : (appliedFrom old).epc.applied = true := rfl

theorem stagedView_appliedFrom (old : State) : stagedView (appliedFrom old) = stagedView (takeForce old) := by
  unfold appliedFrom
  extract_lets u epc
  have hu : stagedView u = stagedView (takeForce old) := by
    unfold u
    rw [stagedView_dropRecords, stagedView_clearScratch, stagedView_settleForce]
  clear_value u
  exact stagedView_then hu rfl rfl rfl rfl rfl

theorem appliedFrom_wordValid (old : State) (w : Nat) :
    (appliedFrom old).wordValid w = (clearScratch (settleForce (takeForce old) old) old).wordValid w := by
  unfold appliedFrom
  generalize clearScratch _ old = u
  rfl

/-- R234: in a region the residency in force does not name no word is valid. -/
theorem appliedFrom_invalid {old : State} {v r w : Nat} (hv : v < 64) (hr : r < 64) (hres : resident (appliedFrom old) v r = false)
    (hlo : cbufAddr v (r * 32768) / 16 ≤ w) (hhi : w < cbufAddr v (r * 32768) / 16 + 2048) :
    (appliedFrom old).wordValid w = false := by
  rw [resident_congr ((stagedView_appliedFrom old).trans (stagedView_settleForce _ old).symm)] at hres
  rw [appliedFrom_wordValid]
  exact clearScratch_invalid hv hr hres hlo hhi

/-- R5, R39: table words and staged registers are in force as last written. -/
theorem appliedFrom_inForce {s old : State} (h : stagedView old = stagedView s) :
    (∀ sel i w, (appliedFrom old).tf sel i w = s.tw sel i w) ∧ (∀ k, k ∈ stagedRegs → (appliedFrom old).regF' k = s.reg k) ∧
    (appliedFrom old).mem.sram = s.mem.sram := by
  obtain ⟨htab, -, -, hsram, hregs⟩ := stagedView_iff.1 h
  obtain ⟨-, htabF, hregsF, hsram', -⟩ := stagedView_iff.1 (stagedView_appliedFrom old)
  refine ⟨fun sel i w => ?_, fun k hk => ?_, ?_⟩
  · rw [State.tf, State.tw, htabF, takeForce_tabF, htab]
  · rw [State.regF', hregsF]
    exact (takeForce_regF' old hk).trans (hregs k hk)
  · rw [hsram', takeForce_sram, hsram]

/-! ### CLEAR -/

/-- A change of every listed value is read back, where what an unlisted key reads as does not change. -/
theorem mget_map {α : Type} (d : Nat → α) (f : α → α) (m : List (Nat × α)) (k : Nat) (hd : f (d k) = d k) :
    mget d (m.map fun e => (e.1, f e.2)) k = f (mget d m k) := by
  induction m with
  | nil => exact hd.symm
  | cons e m ih =>
    rw [List.map_cons, mget_cons, mget_cons, ih]
    split <;> rfl

/-- A tack after CLEAR keeps what its STATUS reports (Table 02.6). -/
def clearTack (x : TackSt) : TackSt := { x with value := 0 }

/-- A Cobbler after CLEAR keeps its holder and the numbering of its operations (Table 02.6). -/
def clearCbl (x : CblSt) : CblSt := { holder := x.holder, nextOp := x.nextOp, regs := List.replicate 16 0 }

/-- The state the first cc of CLEAR leaves (R36, Table 02.6). -/
def clearedFrom (s : State) : State :=
  { s with
    epc := { s.epc with cleared := true, runRead := s.epc.fromIdle || bit (s.reg 0x0200) 0 }
    queues := s.queues.map fun e => (e.1, clearQueue e.2)
    tacks := s.tacks.map fun e => (e.1, clearTack e.2)
    cbls := s.cbls.map fun e => (e.1, clearCbl e.2)
    srPend := [] }

/-- R36: the first cc of CLEAR. -/
theorem exec_clear_due {s : State} (hlive : s.live = true) (hst : s.epc.state = .clear) (hcl : s.epc.cleared = false) :
    exec .clear s = .next (clearedFrom s) := by
  refine if_neg ?_
  simp [hlive, hst, hcl]

theorem clearedFrom_q (s : State) (q : Nat) : (clearedFrom s).q q = clearQueue (s.q q) := mget_map _ clearQueue s.queues q rfl

theorem clearedFrom_tack (s : State) (k : Nat) : (clearedFrom s).tack k = clearTack (s.tack k) := mget_map _ clearTack s.tacks k rfl

theorem clearedFrom_cbl (s : State) (k : Nat) : (clearedFrom s).cbl k = clearCbl (s.cbl k) := mget_map _ clearCbl s.cbls k rfl

/-- Settles O18: CLEAR changes every record of its maps alike; nothing after `takeForce` touches what took force, and the
scratch regions are cleared behind it. -/
theorem clearAndApplyStage : Obligations.ClearAndApplyStage := by
  refine ⟨fun s hlive hst hcl => ⟨_, exec_clear_due hlive hst hcl, rfl, fun q => ?_, fun k => ?_, fun k => ?_, rfl⟩,
    fun s hlive hst hcl hap hdue => ⟨_, exec_applyStaged_due hlive hst hcl hap hdue, appliedFrom_applied _, ?_⟩⟩
  · rw [clearedFrom_q]
    exact ⟨rfl, rfl, rfl, rfl, rfl, rfl, rfl, rfl, rfl, rfl⟩
  · rw [clearedFrom_tack]
    exact ⟨rfl, rfl⟩
  · rw [clearedFrom_cbl]
    exact ⟨rfl, rfl, rfl, rfl⟩
  · obtain ⟨htab, hregs, hsram⟩ := appliedFrom_inForce (stagedView_closeChanged s)
    exact ⟨htab, hregs, hsram, fun v r w hv hr hres hlo hhi => appliedFrom_invalid hv hr hres hlo hhi⟩

end Sys2Proof.Machine
end

section
/-! PROOFS. What an operation leaves of the queue of waiting commands, and what the operations of a passing cc leave alone. -/

namespace Sys2Proof.Machine

/-! ### What a command leaves of the queue -/

/-- A command that answers a state leaves the queue of waiting commands at `l`. -/
def KeepsQueue (l : List Instr) (o : Out) : Prop := ∀ t, o = .next t → t.pending = l

@[simp] theorem keepsQueue_next {l : List Instr} {t : State} : KeepsQueue l (.next t) ↔ t.pending = l :=
  ⟨fun h => h t rfl, fun h _ ht => Host.Outcome.next.inj ht ▸ h⟩

@[simp] theorem keepsQueue_fault (l : List Instr) (r : Fault) : KeepsQueue l (.fault r) := fun _ h => nomatch h

@[simp] theorem keepsQueue_ite {l : List Instr} {c : Prop} [Decidable c] {o p : Out} :
    KeepsQueue l (if c then o else p) ↔ (c → KeepsQueue l o) ∧ (¬c → KeepsQueue l p) := by
  split <;> simp [*]

/-! ### Choices and folds -/

@[simp] theorem pending_ite (c : Prop) [Decidable c] (s t : State) :
    (if c then s else t).pending = if c then s.pending else t.pending := apply_ite _ _ _ _

@[simp] theorem now_ite (c : Prop) [Decidable c] (s t : State) :
    (if c then s else t).now = if c then s.now else t.now := apply_ite _ _ _ _

@[simp] theorem ccnt_ite (c : Prop) [Decidable c] (s t : State) :
    (if c then s else t).ccnt = if c then s.ccnt else t.ccnt := apply_ite _ _ _ _

@[simp] theorem jtag_ite (c : Prop) [Decidable c] (s t : State) :
    (if c then s else t).jtag = if c then s.jtag else t.jtag := apply_ite _ _ _ _

@[simp] theorem regsF_ite (c : Prop) [Decidable c] (s t : State) :
    (if c then s else t).regsF = if c then s.regsF else t.regsF := apply_ite _ _ _ _

@[simp] theorem mem_ite (c : Prop) [Decidable c] (s t : State) :
    (if c then s else t).mem = if c then s.mem else t.mem := apply_ite _ _ _ _

@[simp] theorem twn_ite (c : Prop) [Decidable c] (s t : State) :
    (if c then s else t).twn = if c then s.twn else t.twn := apply_ite _ _ _ _

@[simp] theorem hbm_ite (c : Prop) [Decidable c] (m n : MemSt) :
    (if c then m else n).hbm = if c then m.hbm else n.hbm := apply_ite _ _ _ _

@[simp] theorem sram_ite (c : Prop) [Decidable c] (m n : MemSt) :
    (if c then m else n).sram = if c then m.sram else n.sram := apply_ite _ _ _ _

/-- What every step of a fold keeps of a state within its accumulator, the fold keeps. -/
theorem foldl_keeps_view {α β γ : Type} (view : β → γ) {f : β → α → β} (hf : ∀ b x, view (f b x) = view b) :
    ∀ (l : List α) (b : β), view (l.foldl f b) = view b
  | [], _ => rfl
  | x :: l, b => (foldl_keeps_view view hf l (f b x)).trans (hf b x)

@[simp] theorem foldl_pending {α : Type} {f : State → α → State} (hf : ∀ s x, (f s x).pending = s.pending)
    (l : List α) (s : State) : (l.foldl f s).pending = s.pending := foldl_keeps_view State.pending hf l s

/-! ### What a cc leaves alone -/

/-- No command that waits, no count of cc, no staged register in force, no byte of memory and not the JTAG port has changed. -/
@[simp, reducible] def Quiet (s t : State) : Prop :=
  t.pending = s.pending ∧ t.now = s.now ∧ t.ccnt = s.ccnt ∧ t.jtag = s.jtag ∧ t.regsF = s.regsF ∧ t.mem.hbm = s.mem.hbm ∧
    t.mem.sram = s.mem.sram

/-- Nor has the twin pair. -/
@[simp, reducible] def QuietPair (s t : State) : Prop := Quiet s t ∧ t.twn = s.twn

/-- What every step of a fold leaves alone, the fold leaves alone. -/
@[simp] theorem foldl_quiet {α : Type} {f : State → α → State} (hf : ∀ s x, Quiet s (f s x)) (l : List α) (s : State) :
    Quiet s (l.foldl f s) := by
  have h := foldl_keeps_view (fun s : State => (s.pending, s.now, s.ccnt, s.jtag, s.regsF, s.mem.hbm, s.mem.sram))
    (fun s x => by simpa [Prod.mk.injEq] using hf s x) l s
  simpa [Prod.mk.injEq] using h

@[simp] theorem foldl_twn {α : Type} {f : State → α → State} (hf : ∀ s x, QuietPair s (f s x)) (l : List α) (s : State) :
    (l.foldl f s).twn = s.twn := foldl_keeps_view State.twn (fun s x => (hf s x).2) l s

/-- A report leaves it all alone. -/
theorem Reports.quiet {s t : State} (h : Reports s t) : QuietPair s t := by
  obtain ⟨h, hhbm, hsram⟩ := h
  refine ⟨⟨?_, ?_, ?_, ?_, ?_, hhbm, hsram⟩, ?_⟩ <;> rw [h]

/-- So does a move of the clock selection. -/
theorem MovesClock.quiet {s t : State} (h : MovesClock s t) : QuietPair s t := by
  obtain ⟨h, -⟩ := h
  refine ⟨⟨?_, ?_, ?_, ?_, ?_, ?_, ?_⟩, ?_⟩ <;> rw [h]

theorem WritesHbm.pending {p : Nat → Prop} {s t : State} (h : WritesHbm p s t) : t.pending = s.pending := by
  obtain ⟨m, hr, -⟩ := h
  exact hr.pending

theorem WritesSram.pending {p : Nat → Prop} {s t : State} (h : WritesSram p s t) : t.pending = s.pending := by
  obtain ⟨m, hr, -⟩ := h
  exact hr.pending

/-! ### Two states with one queue -/

/-- The same commands wait in both states: the relation to argue by where the bare equation would have its sides computed. -/
def SameQueue (s t : State) : Prop := t.pending = s.pending

theorem SameQueue.refl (s : State) : SameQueue s s := rfl

theorem SameQueue.trans {s t u : State} (h : SameQueue s t) (h' : SameQueue t u) : SameQueue s u := Eq.trans h' h

theorem SameQueue.ite {s t u : State} {c : Prop} [Decidable c] (ht : SameQueue s t) (hu : SameQueue s u) :
    SameQueue s (if c then t else u) := by
  split <;> assumption

theorem foldl_sameQueue {α : Type} {f : State → α → State} (hf : ∀ s x, SameQueue s (f s x)) (l : List α) (s : State) :
    SameQueue s (l.foldl f s) := foldl_pending hf l s

end Sys2Proof.Machine
end

section
/-! PROOFS. No operation writes the queue of waiting commands. -/

namespace Sys2Proof.Machine

/-! Each operation of the model has one lemma here, in the order of the definitions. `f_pending`: `f` leaves the queue as it
is. `f_quiet`: so it does, and for the rest of what a cc is said to keep; these are the operations that run as a cc passes.
`f_keepsQueue`: the same of a command. Where an operation looks into a pair, a list or a lookup, its proof splits that match. -/

/-! ### Tables -/

@[simp] theorem State.modQ_quiet (s : State) (i : Nat) (f : QueueSt → QueueSt) : QuietPair s (State.modQ s i f) := by
  simp [State.modQ]

@[simp] theorem State.modVc_pending (s : State) (i : Nat) (f : VcSt → VcSt) : (State.modVc s i f).pending = s.pending := by
  simp [State.modVc]

@[simp] theorem State.modCbl_quiet (s : State) (i : Nat) (f : CblSt → CblSt) : QuietPair s (State.modCbl s i f) := by
  simp [State.modCbl]

@[simp] theorem State.modAwl_pending (s : State) (i : Nat) (f : AwlSt → AwlSt) : (State.modAwl s i f).pending = s.pending := by
  simp [State.modAwl]

@[simp] theorem State.modPort_quiet (s : State) (i : Nat) (f : PortSt → PortSt) : QuietPair s (State.modPort s i f) := by
  simp [State.modPort]

@[simp] theorem State.modTen_quiet (s : State) (i : Nat) (f : TenSt → TenSt) : QuietPair s (State.modTen s i f) := by
  simp [State.modTen]

@[simp] theorem State.modTack_quiet (s : State) (i : Nat) (f : TackSt → TackSt) : QuietPair s (State.modTack s i f) := by
  simp [State.modTack]

@[simp] theorem State.modUnit_quiet (s : State) (i : Nat) (f : UnitSt → UnitSt) : QuietPair s (State.modUnit s i f) := by
  simp [State.modUnit]

@[simp] theorem State.modStr_quiet (s : State) (i : Nat) (f : StrSt → StrSt) : QuietPair s (State.modStr s i f) := by
  simp [State.modStr]

@[simp] theorem State.modKey_quiet (s : State) (i : Nat) (f : KeySt → KeySt) : QuietPair s (State.modKey s i f) := by
  simp [State.modKey]

@[simp] theorem State.setRef_quiet (s : State) (i : Nat) (v : RefSt) : QuietPair s (State.setRef s i v) := by
  simp [State.setRef]

@[simp] theorem State.tackBit_quiet (s : State) (k i : Nat) : QuietPair s (State.tackBit s k i) := by
  simp [State.tackBit]

/-! ### Flags -/

@[simp] theorem setObs_quiet (s : State) (u obs cause : Nat) : QuietPair s (setObs s u obs cause) := by
  simp [setObs]

@[simp] theorem startSwitch_quiet (s : State) (r : Nat) : QuietPair s (startSwitch s r) := by
  simp [startSwitch]

@[simp] theorem clkEval_quiet (s : State) : QuietPair s (clkEval s) := (clkEval_movesClock s).quiet

@[simp] theorem reftMoved_pending (s : State) : (reftMoved s).pending = s.pending := by
  simp [reftMoved]

@[simp] theorem traceAdd_quiet (s : State) (tag kind tenant queue detail : Nat) : QuietPair s (traceAdd s tag kind tenant queue detail) :=
    (traceAdd_reports s tag kind tenant queue detail).quiet

@[simp] theorem traceTen_quiet (s : State) (tag kind t queue detail : Nat) : QuietPair s (traceTen s tag kind t queue detail) :=
    (traceTen_reports s tag kind t queue detail).quiet

@[simp] theorem recordFault_quiet (s : State) (r : FaultRec) : QuietPair s (recordFault s r) := (recordFault_reports s r).quiet

@[simp] theorem faultEnter_quiet (s : State) (r : FaultRec) : QuietPair s (faultEnter s r) := by
  simp [faultEnter]

@[simp] theorem faultEnterDue_quiet (s : State) : QuietPair s (faultEnterDue s) := by
  simp [faultEnterDue]

@[simp] theorem faultLost_quiet (s : State) : QuietPair s (faultLost s) := by
  simp [faultLost]

@[simp] theorem alertFollow_quiet (s : State) : QuietPair s (alertFollow s) := by
  simp [alertFollow]

/-! ### Ops -/

@[simp] theorem State.modFlight_quiet (s : State) (q n : Nat) (f : Flight → Flight) : QuietPair s (State.modFlight s q n f) := by
  simp [State.modFlight]

@[simp] theorem chainFault_quiet (s : State) (q chain : Nat) : QuietPair s (chainFault s q chain) := (chainFault_reports s q chain).quiet

@[simp] theorem flightFault_quiet (s : State) (q n code unit level detail : Nat) :
    QuietPair s (flightFault s q n code unit level detail) :=
    (flightFault_reports s q n code unit level detail).quiet

@[simp] theorem flightOnce_quiet (s : State) (q n code unit level detail : Nat) : QuietPair s (flightOnce s q n code unit level detail) :=
    (flightOnce_reports s q n code unit level detail).quiet

@[simp] theorem agentOnce_quiet (s : State) (a : Agent) (code detail : Nat) : QuietPair s (agentOnce s a code detail) :=
    (agentOnce_reports s a code detail).quiet

@[simp] theorem logUE_quiet (s : State) (a : Agent) (kind unit addr : Nat) : QuietPair s (logUE s a kind unit addr) :=
    (logUE_reports s a kind unit addr).quiet

@[simp] theorem State.setLineErr_quiet (s : State) (l : Nat) (e : Err) : QuietPair s (State.setLineErr s l e) := by
  simp [State.setLineErr]

@[simp] theorem readLine_pending (s : State) (a : Agent) (l : Nat) : (readLine s a l).2.2.pending = s.pending :=
    (readLine_reports s a l).pending

@[simp] theorem readPhys_pending (s : State) (a : Agent) (pa n : Nat) : (readPhys s a pa n).2.2.pending = s.pending :=
    (readPhys_reports s a pa n).pending

@[simp] theorem writeLine_pending (s : State) (a : Agent) (l : Nat) (new : List (Option Byte)) (poison : Bool) (mask : List Byte) :
    (writeLine s a l new poison mask).pending = s.pending :=
    (writeLine_writes s a l new poison mask).pending

@[simp] theorem writePhys_pending (s : State) (a : Agent) (pa : Nat) (new : List (Option Byte)) (poison : Bool) :
    (writePhys s a pa new poison).pending = s.pending :=
    (writePhys_writes s a pa new poison).pending

@[simp] theorem State.setWord_quiet (s : State) (w : Nat) (v : Bool) (e : Err) : QuietPair s (State.setWord s w v e) := by
  simp [State.setWord]

@[simp] theorem parityCheck_quiet (s : State) (a : Agent) (w : Nat) : QuietPair s (parityCheck s a w).1 := (parityCheck_reports s a w).quiet

@[simp] theorem readWord_pending (s : State) (a : Agent) (w : Nat) : (readWord s a w).2.2.pending = s.pending :=
    (readWord_reports s a w).pending

@[simp] theorem readSram_pending (s : State) (a : Agent) (addr n : Nat) : (readSram s a addr n).2.2.pending = s.pending :=
    (readSram_reports s a addr n).pending

@[simp] theorem writeWord_pending (s : State) (a : Agent) (w : Nat) (new : List (Option Byte)) (poison : Bool) (mask : List Byte) :
    (writeWord s a w new poison mask).pending = s.pending :=
    (writeWord_writes s a w new poison mask).pending

@[simp] theorem writeSram_pending (s : State) (a : Agent) (addr : Nat) (new : List (Option Byte)) (poison : Bool) :
    (writeSram s a addr new poison).pending = s.pending :=
    (writeSram_writes s a addr new poison).pending

@[simp] theorem clearValid_pending (s : State) (addr n : Nat) : (clearValid s addr n).pending = s.pending := by
  simp [clearValid]

@[simp] theorem ringPut_pending (s : State) (reg off : Nat) (bs : List Byte) : (ringPut s reg off bs).pending = s.pending := by
  simp [ringPut]

@[simp] theorem startSession_quiet (s : State) (t : Nat) : Quiet s (startSession s t) := by
  simp [startSession]

@[simp] theorem txAppend_pending (s : State) (r : JRec) : (txAppend s r).pending = s.pending := by
  simp [txAppend]

@[simp] theorem jrnlForm_pending (s : State) (r : JRec) : (jrnlForm s r).pending = s.pending := by
  simp [jrnlForm]

@[simp] theorem jrnlLines_pending (s : State) (rk t taddr first : Nat) (ls : List Nat) (seed : Bool) :
    (jrnlLines s rk t taddr first ls seed).pending = s.pending := by
  simp [jrnlLines]

@[simp] theorem reqWrite_pending (s : State) (a : Agent) (t w : Nat) (ls : List LineWr) : (reqWrite s a t w ls).1.pending = s.pending := by
  simp [reqWrite, apply_ite Prod.fst]

@[simp] theorem winWrite_pending (s : State) (a : Agent) (t w addr : Nat) (new : List (Option Byte)) (poison : Bool) :
    (winWrite s a t w addr new poison).1.pending = s.pending := by
  simp [winWrite]

@[simp] theorem tenWrite_pending (s : State) (a : Agent) (t addr : Nat) (new : List (Option Byte)) (poison : Bool) :
    (tenWrite s a t addr new poison).1.pending = s.pending := by
  unfold tenWrite
  split
  · rfl
  · split
    · rfl
    · split <;> simp

theorem tenRead_pending {s : State} {a : Agent} {t addr n : Nat} {r : List Byte × Bool × State}
    (h : tenRead s a t addr n = some r) : r.2.2.pending = s.pending := by
  obtain ⟨pa, -, rfl⟩ := Option.map_eq_some_iff.mp h
  exact readPhys_pending s a pa n

/-! ### Port -/

@[simp] theorem pushMsg_quiet (s : State) (p : Nat) (m : Msg) (heads : Nat) (units : Nat) : QuietPair s (pushMsg s p m heads units) := by
  simp [pushMsg]

@[simp] theorem pushRsp_pending (s : State) (p : Nat) (m : Msg) (heads units : Nat) : (pushRsp s p m heads units).pending = s.pending := by
  simp [pushRsp]

@[simp] theorem linkCount_pending (s : State) (p i : Nat) : (linkCount s p i).pending = s.pending := by
  simp [linkCount]

@[simp] theorem portObs_quiet (s : State) (p : Nat) : QuietPair s (portObs s p) := by
  simp [portObs]

@[simp] theorem portEvent_quiet (s : State) (p : Nat) : QuietPair s (portEvent s p) := by
  simp [portEvent]

@[simp] theorem evDrop_quiet (s : State) (cause n : Nat) : QuietPair s (evDrop s cause n) := by
  simp [evDrop]

@[simp] theorem reqDone_quiet (s : State) (p : Nat) (r : Req) (ok : Bool) (status fault : Nat) (lines : List RemoteLine) :
    QuietPair s (reqDone s p r ok status fault lines) := by
  cases h : r.who <;> simp [reqDone, h]

@[simp] theorem formReq_pending (s : State) (p : Nat) (r : Req) : (formReq s p r).pending = s.pending := by
  cases h : r.who <;> simp [formReq, h]

@[simp] theorem reqsDown_quiet (s : State) (p : Nat) : QuietPair s (reqsDown s p) := by
  simp [reqsDown]

@[simp] theorem linkRecord_quiet (s : State) (p code : Nat) : QuietPair s (linkRecord s p code) := by
  simp [linkRecord]

@[simp] theorem sendTState_quiet (s : State) : Quiet s (sendTState s) := by
  simp [sendTState]

@[simp] theorem unpair_quiet (s : State) : Quiet s (unpair s) := by
  simp [unpair]

@[simp] theorem startSeeding_quiet (s : State) : Quiet s (startSeeding s) := by
  simp [startSeeding]

@[simp] theorem pairTo_quiet (s : State) (st : Nat) : Quiet s (pairTo s st) := by
  simp [pairTo]

@[simp] theorem pairJudge_quiet (s : State) : Quiet s (pairJudge s) := by
  simp [pairJudge]

@[simp] theorem freshNonce_quiet (s : State) : QuietPair s (freshNonce s).2 := by
  simp [freshNonce]

@[simp] theorem sendHello_quiet (s : State) (p : Nat) : QuietPair s (sendHello s p) := by
  simp [sendHello]

@[simp] theorem portTo_quiet (s : State) (p : Nat) (st : PState) : Quiet s (portTo s p st) := by
  cases st <;> simp [portTo]

@[simp] theorem addStrikes_quiet (s : State) (p n : Nat) : Quiet s (addStrikes s p n) := by
  simp [addStrikes]

@[simp] theorem malformed_pending (s : State) (p : Nat) : (malformed s p).pending = s.pending := by
  simp [malformed]

@[simp] theorem refusal_pending (s : State) (p : Nat) : (refusal s p).pending = s.pending := by
  simp [refusal]

@[simp] theorem portForce_quiet (s : State) (p force : Nat) : Quiet s (portForce s p force) := by
  cases h : (s.port p).state <;> simp [portForce, h]

@[simp] theorem stallFollow_quiet (s : State) : QuietPair s (stallFollow s) := by
  simp [stallFollow]

/-! ### Operands -/

@[simp] theorem formReads_pending (s : State) (q n : Nat) (tag : Nat) (ks : List UnitKey) :
    (formReads s q n tag ks).pending = s.pending := by
  simp [formReads]

@[simp] theorem readUnit_pending (s : State) (a : Agent) (q n : Nat) (k : UnitKey) : (readUnit s a q n k).2.pending = s.pending := by
  unfold readUnit
  split
  · simp
  · split
    · simp
    · split <;> rfl

@[simp] theorem dropLines_pending (s : State) (q n : Nat) (ks : List UnitKey) : (dropLines s q n ks).pending = s.pending := by
  simp [dropLines]

@[simp] theorem readUnits_pending (s : State) (a : Agent) (q n : Nat) (ks : List UnitKey) :
    (readUnits s a q n ks).2.pending = s.pending :=
    foldl_keeps_view (fun b : List CacheUnit × State => b.2.pending) (fun b k => by simp) _ _

@[simp] theorem refuse_pending (s : State) (q n unit : Nat) (ls : List Loc) : (refuse s q n unit ls).pending = s.pending := by
  simp [refuse]

@[simp] theorem loadElems_pending (s : State) (a : Agent) (q n v : Nat) (ls : List Loc) :
    (loadElems s a q n v ls).2.pending = s.pending := by
  simp [loadElems]

@[simp] theorem storeUnit_pending (s : State) (a : Agent) (q n : Nat) (old : List CacheUnit) (u : WUnit) :
    (storeUnit s a q n old u).pending = s.pending := by
  simp [storeUnit]

@[simp] theorem storeReq_pending (s : State) (a : Agent) (t q n : Nat) (old : List CacheUnit) (us : List WUnit) :
    (storeReq s a t q n old us).pending = s.pending := by
  unfold storeReq
  split <;> simp

@[simp] theorem storePuts_pending (s : State) (a : Agent) (t q n v : Nat) (ps : List Put) :
    (storePuts s a t q n v ps).pending = s.pending := by
  simp [storePuts]

@[simp] theorem storeBlocks_pending (s : State) (a : Agent) (t q n v : Nat) (w : List Nat) (d : LastRec) (rs : List (List Nat × Num)) :
    (storeBlocks s a t q n v w d rs).pending = s.pending := by
  simp [storeBlocks]

@[simp] theorem storeResults_pending (s : State) (q n v k : Nat) (f : Flight) (rs : List (List Nat × Num)) :
    (storeResults s q n v k f rs).pending = s.pending := by
  simp [storeResults]

@[simp] theorem consumePoison_pending (s : State) (q n unit operand : Nat) : (consumePoison s q n unit operand).pending = s.pending := by
  simp [consumePoison]

/-! ### Events -/

@[simp] theorem setSlot_pending (s : State) (v i : Nat) (es : List DelayEv) : (setSlot s v i es).pending = s.pending := by
  simp [setSlot]

@[simp] theorem fileEvent_pending (s : State) (v d ev : Nat) : (fileEvent s v d ev).pending = s.pending := by
  simp [fileEvent]

@[simp] theorem clearDue_pending (s : State) (v t : Nat) : (clearDue s v t).pending = s.pending := by
  simp [clearDue]

@[simp] theorem dueLeaves_pending (s : State) (v : Nat) : (dueLeaves s v).pending = s.pending := by
  simp [dueLeaves]

@[simp] theorem dropDue_pending (s : State) (v cause : Nat) : (dropDue s v cause).pending = s.pending := by
  simp [dropDue]

@[simp] theorem hubTo_pending (s : State) (t v d ev : Nat) : (hubTo s t v d ev).pending = s.pending := by
  simp [hubTo]

@[simp] theorem egress_pending (s : State) (p node t due ev : Nat) : (egress s p node t due ev).pending = s.pending := by
  simp [egress]

@[simp] theorem closeBatches_pending (s : State) : (closeBatches s).pending = s.pending := by
  simp [closeBatches]

theorem egress_sameQueue (s : State) (a b c d e : Nat) : SameQueue s (egress s a b c d e) := egress_pending s a b c d e

theorem hubTo_sameQueue (s : State) (a b c d : Nat) : SameQueue s (hubTo s a b c d) := hubTo_pending s a b c d

theorem routed_sameQueue (s : State) (l) : SameQueue s { s with routed := l } := rfl

theorem routeEntry_sameQueue (s : State) (v n e : Nat) : SameQueue s (routeEntry s v n e) := by
  unfold routeEntry
  extract_lets i w0 ev due u mask
  have hu : SameQueue s u := routed_sameQueue s _
  exact .ite (.refl s) (.ite (hu.trans (egress_sameQueue ..))
    (hu.trans (foldl_sameQueue (fun s x => .ite (hubTo_sameQueue ..) (.refl s)) _ _)))

@[simp] theorem routeEntry_pending (s : State) (v n e : Nat) : (routeEntry s v n e).pending = s.pending :=
  routeEntry_sameQueue s v n e

@[simp] theorem routeSpike_pending (s : State) (v n : Nat) : (routeSpike s v n).pending = s.pending := by
  simp [routeSpike]

@[simp] theorem evtPoison_pending (s : State) (v : Nat) : (evtPoison s v).pending = s.pending := by
  simp [evtPoison]

theorem bump_sameQueue (s : State) (a n : Nat) : SameQueue s (s.bump a n) := State.bump_pending s a n

theorem readSram_sameQueue_of_eq {s : State} {a : Agent} {addr n : Nat} {r : List Byte × Bool × State}
    (h : r = readSram s a addr n) : SameQueue s r.2.2 := h ▸ readSram_pending s a addr n

theorem modVc_sameQueue (s : State) (v : Nat) (f : VcSt → VcSt) : SameQueue s (s.modVc v f) := State.modVc_pending s v f

theorem evtPoison_sameQueue (s : State) (v : Nat) : SameQueue s (evtPoison s v) := evtPoison_pending s v

theorem sameQueue_third_ite {s : State} {c : Prop} [Decidable c] {x z : List Byte × Bool × State} {l : List Byte} {b : Bool}
    {t : State} (h : z = if c then x else (l, b, t)) (hx : SameQueue s x.2.2) (ht : SameQueue s t) : SameQueue s z.2.2 := by
  subst h
  split <;> assumption

theorem addWord_sameQueue (s : State) (v a i : Nat) : SameQueue s (addWord s v a i) := by
  unfold addWord
  extract_lets ty n row r blk sc u ns
  have hr : SameQueue s r.2.2 := readSram_sameQueue_of_eq rfl
  clear_value r
  have hu : SameQueue s u := sameQueue_third_ite rfl (hr.trans (readSram_sameQueue_of_eq rfl)) hr
  clear_value u
  exact .ite (hu.trans ((modVc_sameQueue ..).trans (evtPoison_sameQueue ..))) (hu.trans (modVc_sameQueue ..))

theorem evDrop_sameQueue (s : State) (c n : Nat) : SameQueue s (evDrop s c n) := (evDrop_quiet s c n).1.1

theorem deliver_sameQueue (s : State) (v ev : Nat) : SameQueue s (deliver s v ev) := by
  unfold deliver
  extract_lets +onlyGivenNames set_ r u
  have hu : SameQueue s u := readSram_sameQueue_of_eq (r := r) rfl
  clear_value r u
  refine .ite (hu.trans ((evDrop_sameQueue ..).trans (evtPoison_sameQueue ..))) ?_
  split
  · exact hu.trans (bump_sameQueue ..)
  · extract_lets w
    have hw : SameQueue s w := hu.trans ((bump_sameQueue ..).trans (modVc_sameQueue ..))
    clear_value w
    exact .ite (hu.trans (bump_sameQueue ..)) (.ite (hu.trans (evDrop_sameQueue ..))
      (hw.trans (foldl_sameQueue (fun s i => addWord_sameQueue s v _ i) _ _)))

@[simp] theorem deliver_pending (s : State) (v ev : Nat) : (deliver s v ev).pending = s.pending := deliver_sameQueue s v ev

@[simp] theorem deliverFiled_pending (s : State) (v : Nat) (e : DelayEv) : (deliverFiled s v e).pending = s.pending := by
  unfold deliverFiled
  split <;> simp

@[simp] theorem execEventDeliver_keepsQueue (v : Fin 64) (s : State) : KeepsQueue s.pending (execEventDeliver v s) := by
  unfold execEventDeliver
  dsimp only
  split
  · simp
  · split <;> simp

@[simp] theorem updateNeuron_pending (s : State) (v n : Nat) : (updateNeuron s v n).pending = s.pending := by
  simp [updateNeuron]

@[simp] theorem evUpdate_pending (s : State) (v : Nat) : (evUpdate s v).pending = s.pending := by
  simp [evUpdate]

@[simp] theorem endDelivery_pending (s : State) (v : Nat) : (endDelivery s v).pending = s.pending := by
  simp [endDelivery]

@[simp] theorem execDeliveryEnd_keepsQueue (v : Fin 64) (s : State) : KeepsQueue s.pending (execDeliveryEnd v s) := by
  simp [execDeliveryEnd]

@[simp] theorem execStretchLimit_keepsQueue (s : State) : KeepsQueue s.pending (execStretchLimit s) := by
  simp [execStretchLimit]

@[simp] theorem evAbandon_pending (s : State) (t : Nat) : (evAbandon s t).pending = s.pending := by
  simp [evAbandon]

@[simp] theorem remoteEvent_pending (s : State) (t d ev : Nat) : (remoteEvent s t d ev).pending = s.pending := by
  simp [remoteEvent]

/-! ### Tile -/

@[simp] theorem loadOp_pending (s : State) (q v : Nat) (f : Flight) (o : Nat) (idxs : List (List Nat)) :
    (loadOp s q v f o idxs).2.pending = s.pending := by
  simp [loadOp]

@[simp] theorem loadIf_pending (s : State) (q v : Nat) (f : Flight) (o : Nat) (idxs : List (List Nat)) :
    (loadIf s q v f o idxs).2.pending = s.pending := by
  unfold loadIf
  split <;> simp

@[simp] theorem consume_pending (s : State) (q n v : Nat) (rs : List ElemRes) : (consume s q n v rs).pending = s.pending := by
  unfold consume
  split <;> simp

@[simp] theorem elemTileRun_pending (s : State) (q v : Nat) (f : Flight) (k : Nat) : (elemTileRun s q v f k).2.pending = s.pending := by
  simp [elemTileRun]

@[simp] theorem redTileRun_pending (s : State) (q v : Nat) (f : Flight) (k : Nat) : (redTileRun s q v f k).pending = s.pending := by
  simp [redTileRun]

@[simp] theorem raggedLen_pending (s : State) (q v : Nat) (f : Flight) (idxs : List (List Nat)) :
    (raggedLen s q v f idxs).2.2.pending = s.pending := by
  simp [raggedLen, apply_ite Prod.snd]

@[simp] theorem rowRun_pending (s : State) (q v : Nat) (f : Flight) (k : Nat) (counts : Bool) :
    (rowRun s q v f k counts).2.pending = s.pending := by
  simp [rowRun, apply_ite Prod.snd]

@[simp] theorem rowTileRun_pending (s : State) (q v : Nat) (f : Flight) (k : Nat) : (rowTileRun s q v f k).2.pending = s.pending := by
  unfold rowTileRun
  split
  · simp
  · exact foldl_keeps_view (fun b : List ElemRes × State => b.2.pending) (fun b r => by simp) _ _

@[simp] theorem freeNum_pending (s : State) (raw : Bool) : (freeNum s raw).2.pending = s.pending := by
  simp [freeNum]

@[simp] theorem awlOff_pending (s : State) (q n h : Nat) : (awlOff s q n h).pending = s.pending := by
  simp [awlOff]

@[simp] theorem gatherTileRun_pending (s : State) (q v : Nat) (f : Flight) (k : Nat) :
    (gatherTileRun s q v f k).2.pending = s.pending := by
  unfold gatherTileRun
  extract_lets t n idxs ix src size raw so pick on got off u w fr res
  have hgot : got.2.pending = s.pending := by
    refine (foldl_keeps_view (fun b : List (Loc × Elem) × State => b.2.pending) (fun b row => ?_) _ _).trans ?_
    · simp
    · simp [ix]
  clear_value off
  have hu : u.pending = s.pending := by
    unfold u
    split <;> simp [hgot]
  have hw : w.pending = s.pending := by
    unfold w
    split <;> simp [hu]
  simp [fr, hw]

@[simp] theorem scountMod_pending (s : State) (a : Agent) (v n : Nat) (g : Nat → Nat) :
    (scountMod s a v n g).2.2.pending = s.pending := by
  simp [scountMod]

@[simp] theorem emitRun_pending (s : State) (q v : Nat) (f : Flight) : (emitRun s q v f).pending = s.pending := by
  simp [emitRun]

@[simp] theorem countRun_pending (s : State) (q v : Nat) (f : Flight) : (countRun s q v f).2.pending = s.pending :=
    foldl_keeps_view (fun b : List ElemRes × State => b.2.pending) (fun b i => by simp) _ _

@[simp] theorem noteSr_pending (s : State) (q : Nat) (f : Flight) (rs : List (List Nat × Num)) :
    (noteSr s q f rs).pending = s.pending := by
  unfold noteSr
  split <;> simp

@[simp] theorem tileDone_pending (s : State) (q n : Nat) : (tileDone s q n).pending = s.pending := by
  simp [tileDone]

/-! ### Awl -/

@[simp] theorem setAwlOut_pending (s : State) (y h : Nat) (ms : List ScMsg) : (setAwlOut s y h ms).pending = s.pending := by
  simp [setAwlOut]

@[simp] theorem scatterTileRun_pending (s : State) (q v : Nat) (f : Flight) (k : Nat) : (scatterTileRun s q v f k).pending = s.pending := by
  unfold scatterTileRun
  extract_lets t n y d size idxs ix src dsts s0 s1
  have h1 : s1.pending = s0.pending := by
    refine foldl_pending (fun s x => ?_) _ s0
    dsimp only
    split
    · simp
    · split <;> simp
  have h0 : s0.pending = s.pending := by simp [s0, src, ix]
  exact (foldl_pending (fun s h => by simp) _ s1).trans (h1.trans h0)

@[simp] theorem runTile_pending (s : State) (q v : Nat) (f : Flight) (k : Nat) : (runTile s q v f k).pending = s.pending := by
  unfold runTile
  split <;> simp

@[simp] theorem tileAsks_pending (s : State) (v : Nat) (t : Tile) (f : Flight) (ks : List UnitKey) :
    (tileAsks s v t f ks).pending = s.pending := by
  simp [tileAsks]

@[simp] theorem tileLeaves_pending (s : State) (t : Tile) (ks : List UnitKey) : (tileLeaves s t ks).pending = s.pending := by
  simp [tileLeaves]

@[simp] theorem execTileExecute_keepsQueue (v : Fin 64) (s : State) : KeepsQueue s.pending (execTileExecute v s) := by
  unfold execTileExecute
  split
  · simp
  · split
    · simp
    · split <;> simp

@[simp] theorem execReductionCombine_keepsQueue (q : Fin 64) (s : State) : KeepsQueue s.pending (execReductionCombine q s) := by
  unfold execReductionCombine
  split
  · simp
  · split <;> simp

@[simp] theorem dropMsg_pending (s : State) (y h : Nat) (m : ScMsg) : (dropMsg s y h m).pending = s.pending := by
  simp [dropMsg]

@[simp] theorem applyMsg_pending (s : State) (h : Nat) (m : ScMsg) : (applyMsg s h m).pending = s.pending := by
  unfold applyMsg
  split
  · simp
  · split <;> simp

@[simp] theorem pump_pending (n : Nat) : ∀ (s : State) (h : Nat), (pump n s h).pending = s.pending := by
  induction n with
  | zero => intro s h; rfl
  | succ n ih =>
    intro s h
    unfold pump
    split
    · rfl
    · rw [pending_ite]
      split
      · split
        · simp
        · rw [ih]
          simp
      · simp

@[simp] theorem execContribution_keepsQueue (source home : Fin 8) (s : State) : KeepsQueue s.pending (execContribution source home s) := by
  unfold execContribution
  dsimp only
  split
  · simp
  · split
    · simp
    · split
      · simp
      · split
        · simp
        · split <;> simp

@[simp] theorem execEndMarker_keepsQueue (source home : Fin 8) (s : State) : KeepsQueue s.pending (execEndMarker source home s) := by
  unfold execEndMarker
  dsimp only
  split
  · simp
  · split
    · simp
    · split
      · simp
      · split <;> simp

@[simp] theorem execTileResume_keepsQueue (source : Fin 8) (s : State) : KeepsQueue s.pending (execTileResume source s) := by
  unfold execTileResume
  dsimp only
  split
  · simp
  · split <;> simp

@[simp] theorem writeBack_pending (s : State) (h q : Nat) (f : Flight) (j : ScJob) : (writeBack s h q f j).pending = s.pending := by
  simp [writeBack]

@[simp] theorem endJob_pending (s : State) (h : Nat) (j : ScJob) : (endJob s h j).pending = s.pending := by
  unfold endJob
  dsimp only
  split <;> simp

@[simp] theorem execScatterWriteback_keepsQueue (home : Fin 8) (s : State) : KeepsQueue s.pending (execScatterWriteback home s) := by
  unfold execScatterWriteback
  split
  · simp
  · split
    · simp
    · split <;> simp

@[simp] theorem addJobs_pending (s : State) (q n : Nat) : (addJobs s q n).pending = s.pending := by
  simp [addJobs]

/-! ### Link -/

@[simp] theorem emitFlit_pending (s : State) (p ftype seq vc first : Nat) (payload : List Byte) :
    (emitFlit s p ftype seq vc first payload).pending = s.pending := by
  simp [emitFlit]

@[simp] theorem emitLctrl_pending (s : State) (p ltype lanes : Nat) : (emitLctrl s p ltype lanes).pending = s.pending := by
  simp [emitLctrl]

@[simp] theorem feedChan_pending (s : State) (p v : Nat) : (feedChan s p v).pending = s.pending := by
  unfold feedChan
  split
  · split <;> simp
  · split
    · split <;> simp
    · rfl

@[simp] theorem feedHb_pending (s : State) (p : Nat) : (feedHb s p).pending = s.pending := by
  unfold feedHb
  dsimp only
  split <;> simp

@[simp] theorem feed_pending (n : Nat) : ∀ (s : State) (p v : Nat), (feed n s p v).pending = s.pending := by
  induction n with
  | zero => intro s p v; rfl
  | succ n ih => intro s p v; simp [feed, ih]

@[simp] theorem sendNew_pending (s : State) (p v : Nat) : (sendNew s p v).pending = s.pending := by
  simp [sendNew]

@[simp] theorem msgSlot_pending (s : State) (p : Nat) : (msgSlot s p).pending = s.pending := by
  cases h : (s.port p).replay <;> cases h' : (s.port p).lctrl <;> simp [msgSlot, h, h']

@[simp] theorem execFlitSlotTransmit_keepsQueue (p : Fin 9) (s : State) : KeepsQueue s.pending (execFlitSlotTransmit p s) := by
  unfold execFlitSlotTransmit
  dsimp only
  split
  · simp
  · split <;> simp

@[simp] theorem openGap_pending (s : State) (p : Nat) : (openGap s p).pending = s.pending := by
  simp [openGap]

@[simp] theorem startReplay_pending (s : State) (p : Nat) : (startReplay s p).pending = s.pending := by
  simp [startReplay]

@[simp] theorem takeHeader_pending (s : State) (p hdr : Nat) : (takeHeader s p hdr).pending = s.pending := by
  simp [takeHeader]

@[simp] theorem lcArrives_pending (s : State) (p : Nat) (f : Lctrl) : (lcArrives s p f).pending = s.pending := by
  simp [lcArrives]

@[simp] theorem takeMsg_pending (s : State) (p hdr : Nat) (payload : List Byte) : (takeMsg s p hdr payload).pending = s.pending := by
  simp [takeMsg]

@[simp] theorem tagFailed_pending (s : State) (p : Nat) (fl : List Byte) : (tagFailed s p fl).pending = s.pending := by
  simp [tagFailed]

@[simp] theorem takeGood_pending (s : State) (p : Nat) (fl : List Byte) : (takeGood s p fl).pending = s.pending := by
  unfold takeGood
  split
  · simp
  · dsimp only
    split <;> simp

@[simp] theorem execFlitReceive_keepsQueue (p : Fin 9) (flit : List Byte) (s : State) :
    KeepsQueue s.pending (execFlitReceive p flit s) := by
  unfold execFlitReceive
  dsimp only
  split
  · simp
  · split
    · simp
    · split
      · simp
      · split <;> simp

@[simp] theorem execNakResend_keepsQueue (p : Fin 9) (s : State) : KeepsQueue s.pending (execNakResend p s) := by
  simp [execNakResend]

@[simp] theorem execReplayTimeout_keepsQueue (p : Fin 9) (s : State) : KeepsQueue s.pending (execReplayTimeout p s) := by
  simp [execReplayTimeout]

@[simp] theorem execWltCtrlEnSet_keepsQueue (p : Fin 9) (s : State) : KeepsQueue s.pending (execWltCtrlEnSet p s) := by
  simp [execWltCtrlEnSet]

@[simp] theorem execWltCtrlEnClear_keepsQueue (p : Fin 9) (s : State) : KeepsQueue s.pending (execWltCtrlEnClear p s) := by
  simp [execWltCtrlEnClear]

@[simp] theorem execWltCtrlRelease_keepsQueue (p : Fin 8) (s : State) : KeepsQueue s.pending (execWltCtrlRelease p s) := by
  simp [execWltCtrlRelease]

@[simp] theorem execWltCtrlRetrain_keepsQueue (p : Fin 9) (s : State) : KeepsQueue s.pending (execWltCtrlRetrain p s) := by
  simp [execWltCtrlRetrain]

@[simp] theorem execDownRetryExpiry_keepsQueue (p : Fin 9) (s : State) : KeepsQueue s.pending (execDownRetryExpiry p s) := by
  simp [execDownRetryExpiry]

@[simp] theorem execLaneLock_keepsQueue (p : Fin 9) (lane : LaneCws) (s : State) : KeepsQueue s.pending (execLaneLock p lane s) := by
  simp [execLaneLock]

@[simp] theorem execTrainTimeout_keepsQueue (p : Fin 9) (s : State) : KeepsQueue s.pending (execTrainTimeout p s) := by
  simp [execTrainTimeout]

@[simp] theorem execAlignTimeout_keepsQueue (p : Fin 9) (s : State) : KeepsQueue s.pending (execAlignTimeout p s) := by
  simp [execAlignTimeout]

@[simp] theorem narrow_pending (s : State) (p good ltype : Nat) : (narrow s p good ltype).pending = s.pending := by
  simp [narrow]

@[simp] theorem lanesTo_pending (s : State) (p l : Nat) : (lanesTo s p l).pending = s.pending := by
  simp [lanesTo]

@[simp] theorem execLaneBad_keepsQueue (p : Fin 9) (lane : LaneCws) (s : State) : KeepsQueue s.pending (execLaneBad p lane s) := by
  simp [execLaneBad]

theorem lcTake_pending {s t : State} {p n : Nat} {f : Lctrl} (h : lcTake s p n f = some t) : t.pending = s.pending := by
  unfold lcTake at h
  split at h
  · split at h
    · obtain rfl := Option.some.inj h
      rfl
    · contradiction
  · contradiction

@[simp] theorem execLaneMap_keepsQueue (p : Fin 9) (f : Lctrl) (s : State) : KeepsQueue s.pending (execLaneMap p f s) := by
  unfold execLaneMap
  split
  · simp
  · simp [lcTake_pending ‹_›]

@[simp] theorem execLaneMapDone_keepsQueue (p : Fin 9) (f : Lctrl) (s : State) : KeepsQueue s.pending (execLaneMapDone p f s) := by
  unfold execLaneMapDone
  split
  · simp
  · simp [lcTake_pending ‹_›]

@[simp] theorem execLaneSwitch_keepsQueue (p : Fin 9) (s : State) : KeepsQueue s.pending (execLaneSwitch p s) := by
  unfold execLaneSwitch
  dsimp only
  split <;> simp

@[simp] theorem execAlign_keepsQueue (p : Fin 9) (f : Lctrl) (s : State) : KeepsQueue s.pending (execAlign p f s) := by
  unfold execAlign
  split
  · simp
  · simp [lcTake_pending ‹_›]

@[simp] theorem execAlignDone_keepsQueue (p : Fin 9) (f : Lctrl) (s : State) : KeepsQueue s.pending (execAlignDone p f s) := by
  unfold execAlignDone
  split
  · simp
  · simp [lcTake_pending ‹_›]

@[simp] theorem takeRx_pending (s : State) (p v : Nat) (m : Msg) : (takeRx s p v m).pending = s.pending := by
  unfold takeRx
  dsimp only
  split <;> simp

@[simp] theorem withRx_pending {hello up fenced : State → State} (hh : ∀ s, (hello s).pending = s.pending)
    (hu : ∀ s, (up s).pending = s.pending) (hf : ∀ s, (fenced s).pending = s.pending) (s : State) (p v : Nat) (m : Msg) :
    (withRx s p v m hello up fenced).pending = s.pending := by
  cases h : (s.port p).state <;> simp [withRx, h, hh, hu, hf]

@[simp] theorem helloTake_pending (s : State) (p : Nat) (m : Msg) : (helloTake s p m).pending = s.pending := by
  simp [helloTake]

@[simp] theorem execHello_keepsQueue (p : Fin 9) (m : Msg) (s : State) : KeepsQueue s.pending (execHello p m s) := by
  simp [execHello]

@[simp] theorem execHelloResend_keepsQueue (p : Fin 9) (s : State) : KeepsQueue s.pending (execHelloResend p s) := by
  simp [execHelloResend]

@[simp] theorem execHelloTimeout_keepsQueue (p : Fin 9) (s : State) : KeepsQueue s.pending (execHelloTimeout p s) := by
  simp [execHelloTimeout]

@[simp] theorem execHeartbeat_keepsQueue (p : Fin 9) (m : Msg) (s : State) : KeepsQueue s.pending (execHeartbeat p m s) := by
  simp [execHeartbeat]

@[simp] theorem execHeartbeatSend_keepsQueue (p : Fin 9) (s : State) : KeepsQueue s.pending (execHeartbeatSend p s) := by
  simp [execHeartbeatSend]

@[simp] theorem execHeartbeatTimeout_keepsQueue (p : Fin 9) (s : State) : KeepsQueue s.pending (execHeartbeatTimeout p s) := by
  simp [execHeartbeatTimeout]

@[simp] theorem execCreditStallFence_keepsQueue (p : Fin 9) (s : State) : KeepsQueue s.pending (execCreditStallFence p s) := by
  simp [execCreditStallFence]

@[simp] theorem execQuotaRefill_keepsQueue (p : Fin 8) (s : State) : KeepsQueue s.pending (execQuotaRefill p s) := by
  simp [execQuotaRefill]

@[simp] theorem execStrikeLeak_keepsQueue (s : State) : KeepsQueue s.pending (execStrikeLeak s) := by
  simp [execStrikeLeak]

@[simp] theorem execMalformedMessage_keepsQueue (p : Fin 9) (m : Msg) (s : State) : KeepsQueue s.pending (execMalformedMessage p m s) := by
  unfold execMalformedMessage
  split <;> simp

@[simp] theorem execLateRsp_keepsQueue (p : Fin 8) (m : Msg) (s : State) : KeepsQueue s.pending (execLateRsp p m s) := by
  simp [execLateRsp]

@[simp] theorem execRequestSend_keepsQueue (p : Fin 8) (s : State) : KeepsQueue s.pending (execRequestSend p s) := by
  unfold execRequestSend
  dsimp only
  split <;> simp

@[simp] theorem execRequestTimeout_keepsQueue (p : Fin 8) (txn : Nat) (s : State) : KeepsQueue s.pending (execRequestTimeout p txn s) := by
  unfold execRequestTimeout
  split <;> simp

@[simp] theorem rspFor_pending (s : State) (p : Nat) (m : Msg) (write : Bool) : (rspFor s p m write).pending = s.pending := by
  unfold rspFor
  split <;> simp

@[simp] theorem execReadRsp_keepsQueue (p : Fin 8) (m : Msg) (s : State) : KeepsQueue s.pending (execReadRsp p m s) := by
  simp [execReadRsp]

@[simp] theorem execWriteAck_keepsQueue (p : Fin 8) (m : Msg) (s : State) : KeepsQueue s.pending (execWriteAck p m s) := by
  simp [execWriteAck]

@[simp] theorem execTwnPeerNodeWrite_keepsQueue (ctrl : Bool) (w : Word) (s : State) :
    KeepsQueue s.pending (execTwnPeerNodeWrite ctrl w s) := by
  simp [execTwnPeerNodeWrite]

/-! ### Admit -/

@[simp] theorem epcTo_quiet (s : State) (st : EState) : QuietPair s (epcTo s st) := by
  simp [epcTo]

@[simp] theorem startClose_quiet (s : State) : QuietPair s (startClose s) := by
  simp [startClose]

@[simp] theorem startOpen_quiet (s : State) : QuietPair s (startOpen s) := by
  simp [startOpen]

@[simp] theorem trigger_quiet (s : State) (b : Nat) : QuietPair s (trigger s b).1 := by
  cases h : s.epc.state <;> simp [trigger, h, apply_ite Prod.fst]

@[simp] theorem tackUpdate_pending (s : State) (rank tack : Nat) (write : Bool) (value : Nat) :
    (tackUpdate s rank tack write value).pending = s.pending := by
  simp [tackUpdate]

@[simp] theorem egressTake_pending (s : State) (p heads units : Nat) : (egressTake s p heads units).pending = s.pending := by
  simp [egressTake]

@[simp] theorem egressFree_pending (s : State) (p heads units : Nat) : (egressFree s p heads units).pending = s.pending := by
  simp [egressFree]

@[simp] theorem answer_pending (s : State) (p : Nat) (m : Msg) (type status units : Nat) (payload : List Byte) :
    (answer s p m type status units payload).pending = s.pending := by
  simp [answer]

@[simp] theorem reject_pending (s : State) (p : Nat) (m : Msg) (r : ReqShape) (status : Nat) :
    (reject s p m r status).pending = s.pending := by
  simp [reject]

theorem takeToken_pending {s t : State} {p n : Nat} (h : takeToken s p n = some t) : t.pending = s.pending := by
  unfold takeToken at h
  split at h
  · obtain rfl := Option.some.inj h
    rfl
  · dsimp only at h
    split at h
    · contradiction
    · obtain rfl := Option.some.inj h
      rfl

@[simp] theorem withRequest_pending {k : State → State} (hk : ∀ s, (k s).pending = s.pending) (s : State) (p : Nat) (m : Msg)
    (r : ReqShape) : (withRequest s p m r k).pending = s.pending := by
  simp [withRequest, hk]

@[simp] theorem withRights_pending {k : State → State} (hk : ∀ s, (k s).pending = s.pending) (s : State) (p : Nat) (m : Msg)
    (r : ReqShape) (w : Nat) : (withRights s p m r w k).pending = s.pending := by
  unfold withRights
  rw [pending_ite]
  split
  · simp
  · split
    · simp
    · rw [hk, takeToken_pending ‹_›]

/-! ### Chain -/

@[simp] theorem submitRsp_pending (s : State) (q : Nat) (c : Chain) (status phase tag epoch : Nat) :
    (submitRsp s q c status phase tag epoch).pending = s.pending := by
  unfold submitRsp
  split <;> simp

@[simp] theorem retireAnswer_pending (s : State) (q : Nat) (c : Chain) (status tag : Nat) :
    (retireAnswer s q c status tag).pending = s.pending := by
  simp [retireAnswer]

@[simp] theorem answerHead_pending (s : State) (q : Nat) (c : Chain) : (answerHead s q c).pending = s.pending := by
  unfold answerHead
  split <;> simp

@[simp] theorem answerFifo_pending (s : State) (q : Nat) : (answerFifo s q).pending = s.pending := by
  simp [answerFifo]

@[simp] theorem stopQueue_pending (s : State) (q tag : Nat) : (stopQueue s q tag).pending = s.pending := by
  unfold stopQueue
  split <;> simp

@[simp] theorem queueFault_pending (s : State) (q code tag detail : Nat) : (queueFault s q code tag detail).pending = s.pending := by
  unfold queueFault
  simp only [stopQueue_pending]
  split <;> simp

@[simp] theorem cblCount_quiet (s : State) (q n : Nat) : QuietPair s (cblCount s q n) := by
  simp [cblCount]

@[simp] theorem cblEnd_quiet (s : State) (k : Nat) : QuietPair s (cblEnd s k) := by
  simp [cblEnd]

@[simp] theorem cblRecord_quiet (s : State) (k code level detail : Nat) : QuietPair s (cblRecord s k code level detail) := by
  unfold cblRecord
  dsimp only
  split <;> simp

@[simp] theorem cblFaultAt_quiet (s : State) (k code pc addr : Nat) : QuietPair s (cblFaultAt s k code pc addr) := by
  simp [cblFaultAt]

@[simp] theorem cblFault_quiet (s : State) (k code addr : Nat) : QuietPair s (cblFault s k code addr) := by
  simp [cblFault]

@[simp] theorem abandonQueue_pending (s : State) (q : Nat) : (abandonQueue s q).pending = s.pending := by
  unfold abandonQueue
  dsimp only
  split <;> simp

@[simp] theorem abandonTenant_pending (s : State) (t : Nat) : (abandonTenant s t).pending = s.pending := by
  simp [abandonTenant]

@[simp] theorem deadlineRecords_pending (s : State) (t level : Nat) : (deadlineRecords s t level).pending = s.pending := by
  simp [deadlineRecords]

@[simp] theorem deadlineAbandon_pending (s : State) (level : Nat) : (deadlineAbandon s level).pending = s.pending := by
  simp [deadlineAbandon]

/-! ### Memory -/

@[simp] theorem State.setHbmScrub_quiet (s : State) (h : Nat) (x : Scrub) : QuietPair s (State.setHbmScrub s h x) := by
  simp [State.setHbmScrub]

@[simp] theorem State.setSramScrub_quiet (s : State) (u : Nat) (x : Scrub) : QuietPair s (State.setSramScrub s u x) := by
  simp [State.setSramScrub]

@[simp] theorem scrubLine_pending (s : State) (h l : Nat) : (scrubLine s h l).pending = s.pending := by
  unfold scrubLine
  split <;> simp

@[simp] theorem execHbmScrubStep_keepsQueue (h : Fin 4) (s : State) : KeepsQueue s.pending (execHbmScrubStep h s) := by
  simp [execHbmScrubStep]

@[simp] theorem scrubWord_quiet (s : State) (u w : Nat) : QuietPair s (scrubWord s u w) := by
  cases h : s.wordErr w <;> simp [scrubWord, h]

@[simp] theorem scrubSram_quiet (s : State) (u : Nat) : QuietPair s (scrubSram s u) := by
  simp [scrubSram]

@[simp] theorem execCbufScrubStep_keepsQueue (u : Fin 80) (s : State) : KeepsQueue s.pending (execCbufScrubStep u s) := by
  simp [execCbufScrubStep]

@[simp] theorem scrubsDue_quiet (s : State) : QuietPair s (scrubsDue s) := by
  simp [scrubsDue]

@[simp] theorem scrubHold_quiet (s : State) : QuietPair s (scrubHold s) := by
  simp [scrubHold]

@[simp] theorem execMemScrubWrite_keepsQueue (w : Word) (s : State) : KeepsQueue s.pending (execMemScrubWrite w s) := by
  simp [execMemScrubWrite]

@[simp] theorem execHbmAccessComplete_keepsQueue (h : Fin 4) (n : Nat) (s : State) :
    KeepsQueue s.pending (execHbmAccessComplete h n s) := by
  unfold execHbmAccessComplete
  split
  · simp
  · split
    · simp
    · split <;> simp

/-! ### Messages -/

@[simp] theorem readAll_pending (s : State) (a : Agent) (pas : List Nat) : (readAll s a pas).2.2.pending = s.pending :=
    foldl_keeps_view (fun b : List Byte × Nat × State => b.2.2.pending) (fun b pa => by simp) _ _

@[simp] theorem execRead_keepsQueue (p : Fin 8) (m : Msg) (s : State) : KeepsQueue s.pending (execRead p m s) :=
  keepsQueue_next.2 (withRequest_pending (fun s => withRights_pending (fun s => by split <;> simp) s ..) s ..)

@[simp] theorem writeAll_pending (s : State) (p t a : Nat) (pas : List Nat) (m : Msg) : (writeAll s p t a pas m).pending = s.pending := by
  refine foldl_pending (fun s g => ?_) _ s
  split <;> simp

@[simp] theorem execWrite_keepsQueue (p : Fin 8) (m : Msg) (s : State) : KeepsQueue s.pending (execWrite p m s) :=
  keepsQueue_next.2 (withRequest_pending (fun s => withRights_pending (fun s => by split <;> simp) s ..) s ..)

@[simp] theorem execTackSet_keepsQueue (p : Fin 8) (m : Msg) (s : State) : KeepsQueue s.pending (execTackSet p m s) := by
  simp [execTackSet]

@[simp] theorem execEpochCtrl_keepsQueue (p : Fin 8) (m : Msg) (s : State) : KeepsQueue s.pending (execEpochCtrl p m s) :=
  keepsQueue_next.2 (withRequest_pending (fun s => by simp [apply_ite Prod.fst]) s ..)

@[simp] theorem withEv_pending {k : State → State} (hk : ∀ s, (k s).pending = s.pending) (s : State) (p : Nat) (m : Msg) (bad : Bool) :
    (withEv s p m bad k).pending = s.pending := by
  simp [withEv, hk]

@[simp] theorem execEventBatch_keepsQueue (p : Fin 8) (m : Msg) (s : State) : KeepsQueue s.pending (execEventBatch p m s) := by
  simp [execEventBatch]

@[simp] theorem strRd_pending (s : State) (c : Nat) : (strRd s c).2.pending = s.pending := by
  unfold strRd
  split
  · rfl
  · have := tenRead_pending ‹_›
    split <;> simpa

@[simp] theorem strDrop_pending (s : State) (c other n : Nat) : (strDrop s c other n).pending = s.pending := by
  simp [strDrop]

@[simp] theorem closeFrame_pending (s : State) (c : Nat) (trunc : Bool) : (closeFrame s c trunc).pending = s.pending := by
  unfold closeFrame
  split <;> simp

@[simp] theorem openFrame_pending (s : State) (c fseq : Nat) : (openFrame s c fseq).pending = s.pending := by
  simp [openFrame]

@[simp] theorem frameData_pending (s : State) (c : Nat) (data : List Byte) : (frameData s c data).pending = s.pending := by
  unfold frameData
  split <;> simp

@[simp] theorem eventData_pending (s : State) (c : Nat) (evs : List Nat) : (eventData s c evs).pending = s.pending := by
  unfold eventData
  dsimp only
  split <;> simp

@[simp] theorem stage_pending (s : State) (c n : Nat) : (stage s c n).pending = s.pending := by
  simp [stage]

@[simp] theorem execStreamData_keepsQueue (p : Fin 8) (m : Msg) (s : State) : KeepsQueue s.pending (execStreamData p m s) := by
  simp [execStreamData]

@[simp] theorem execFramePublish_keepsQueue (c : Fin 8) (s : State) : KeepsQueue s.pending (execFramePublish c s) := by
  unfold execFramePublish
  dsimp only
  split <;> simp

/-! ### Twin -/

@[simp] theorem twinMsg_pending {k : State → State} (hk : ∀ s, (k s).pending = s.pending) (s : State) (m : Msg) (bad : Bool) :
    (twinMsg s m bad k).pending = s.pending := by
  simp [twinMsg, hk]

@[simp] theorem withTwin_pending {k : State → State} (hk : ∀ s, (k s).pending = s.pending) (s : State) (v : Nat) (m : Msg)
    (bad : Bool) : (withTwin s v m bad k).pending = s.pending := by
  simp [withTwin, hk]

@[simp] theorem withTwinWork_pending {k : State → State} (hk : ∀ s, (k s).pending = s.pending) (s : State) (v : Nat) (m : Msg)
    (bad : Bool) : (withTwinWork s v m bad k).pending = s.pending := by
  simp [withTwinWork, hk]

@[simp] theorem sendTdown_quiet (s : State) (cause : Nat) : QuietPair s (sendTdown s cause) := by
  simp [sendTdown]

@[simp] theorem rxAccept_pending (s : State) (m : Msg) (r : JRec) : (rxAccept s m r).pending = s.pending := by
  unfold rxAccept
  split <;> simp

@[simp] theorem rxAppend_pending (s : State) (m : Msg) (r : JRec) : (rxAppend s m r).pending = s.pending := by
  simp [rxAppend]

@[simp] theorem execJrnl_keepsQueue (m : Msg) (s : State) : KeepsQueue s.pending (execJrnl m s) := by
  simp [execJrnl]

@[simp] theorem applyEnds_pending (n : Nat) : ∀ s : State, (applyEnds n s).pending = s.pending := by
  induction n with
  | zero => intro s; rfl
  | succ n ih =>
    intro s
    cases h : s.twn.apply <;> simp [applyEnds, h, ih]

@[simp] theorem execCommit_keepsQueue (m : Msg) (s : State) : KeepsQueue s.pending (execCommit m s) := by
  simp [execCommit]

@[simp] theorem commitFree_pending (s : State) : (commitFree s).pending = s.pending := by
  simp [commitFree]

@[simp] theorem commitFailed_pending (s : State) : (commitFailed s).pending = s.pending := by
  simp [commitFailed]

@[simp] theorem execCommitTimeout_keepsQueue (s : State) : KeepsQueue s.pending (execCommitTimeout s) := by
  simp [execCommitTimeout]

@[simp] theorem execCommitAck_keepsQueue (m : Msg) (s : State) : KeepsQueue s.pending (execCommitAck m s) := by
  unfold execCommitAck
  split
  · simp
  · exact keepsQueue_next.2 (withTwinWork_pending (fun s => by split <;> simp) s ..)

@[simp] theorem formCommit_pending (s : State) : (formCommit s).pending = s.pending := by
  simp [formCommit]

@[simp] theorem execTstate_keepsQueue (m : Msg) (s : State) : KeepsQueue s.pending (execTstate m s) := by
  simp [execTstate]

@[simp] theorem execTdown_keepsQueue (m : Msg) (s : State) : KeepsQueue s.pending (execTdown m s) := by
  simp [execTdown]

@[simp] theorem applyRec_pending (s : State) (r : JRec) : (applyRec s r).pending = s.pending := by
  refine foldl_pending (fun s x => ?_) _ s
  dsimp only
  split <;> simp

@[simp] theorem execReplicaApply_keepsQueue (s : State) : KeepsQueue s.pending (execReplicaApply s) := by
  unfold execReplicaApply
  split
  · simp
  · split <;> simp

@[simp] theorem execSeedWalk_keepsQueue (s : State) : KeepsQueue s.pending (execSeedWalk s) := by
  unfold execSeedWalk
  split
  · simp
  · split <;> simp

@[simp] theorem execTwnCmdAdopt_keepsQueue (s : State) : KeepsQueue s.pending (execTwnCmdAdopt s) := by
  simp [execTwnCmdAdopt]

@[simp] theorem twinApply_pending (s : State) (old : Nat) : (twinApply s old).pending = s.pending := by
  simp [twinApply]

/-! ### Epoch -/

@[simp] theorem execEpcCtrlBoundary_keepsQueue (run : Bool) (s : State) : KeepsQueue s.pending (execEpcCtrlBoundary run s) := by
  simp [execEpcCtrlBoundary]

@[simp] theorem execPeriodExpiry_keepsQueue (s : State) : KeepsQueue s.pending (execPeriodExpiry s) := by
  simp [execPeriodExpiry]

@[simp] theorem deadlinePasses_pending (s : State) (level : Nat) : (deadlinePasses s level).pending = s.pending := by
  simp [deadlinePasses]

@[simp] theorem execDeadlineExpiry_keepsQueue (s : State) : KeepsQueue s.pending (execDeadlineExpiry s) := by
  unfold execDeadlineExpiry
  dsimp only
  split
  · simp
  · split <;> simp

@[simp] theorem execScheduleTrigger_keepsQueue (s : State) : KeepsQueue s.pending (execScheduleTrigger s) := by
  simp [execScheduleTrigger]

@[simp] theorem execEpcSchedSecWrite_keepsQueue (hi : Bool) (w : Word) (s : State) :
    KeepsQueue s.pending (execEpcSchedSecWrite hi w s) := by
  simp [execEpcSchedSecWrite]

@[simp] theorem execEpcSchedNsWrite_keepsQueue (w : Word) (s : State) : KeepsQueue s.pending (execEpcSchedNsWrite w s) := by
  simp [execEpcSchedNsWrite]

@[simp] theorem execDrainComplete_keepsQueue (s : State) : KeepsQueue s.pending (execDrainComplete s) := by
  simp [execDrainComplete]

@[simp] theorem execFlushComplete_keepsQueue (s : State) : KeepsQueue s.pending (execFlushComplete s) := by
  simp [execFlushComplete]

@[simp] theorem execCommitEnd_keepsQueue (s : State) : KeepsQueue s.pending (execCommitEnd s) := by
  simp [execCommitEnd]

@[simp] theorem execClear_keepsQueue (s : State) : KeepsQueue s.pending (execClear s) := by
  simp [execClear]

@[simp] theorem validateWindows_pending (s old : State) : (validateWindows s old).pending = s.pending :=
    foldl_pending (fun s e => by simp) _ s

@[simp] theorem validateTenants_pending (s old : State) : (validateTenants s old).pending = s.pending := by
  simp [validateTenants]

@[simp] theorem validateQueues_pending (s old : State) : (validateQueues s old).pending = s.pending := by
  simp [validateQueues]

@[simp] theorem validateStreams_pending (s : State) : (validateStreams s).pending = s.pending := by
  simp [validateStreams]

@[simp] theorem validateLace_pending (s : State) : (validateLace s).pending = s.pending := by
  simp [validateLace]

@[simp] theorem validateTrace_pending (s : State) : (validateTrace s).pending = s.pending := by
  simp [validateTrace]

@[simp] theorem applyUnits_pending (s : State) : (applyUnits s).pending = s.pending := by
  simp [applyUnits]

@[simp] theorem applyHolders_pending (s : State) : (applyHolders s).pending = s.pending := by
  simp [applyHolders]

@[simp] theorem clearScratch_pending (s old : State) : (clearScratch s old).pending = s.pending := by
  simp [clearScratch]

@[simp] theorem dropRecords_pending (s old : State) : (dropRecords s old).pending = s.pending := by
  simp [dropRecords]

theorem closeChanged_pending (s : State) : (closeChanged s).pending = s.pending :=
  foldl_pending (fun s c => by simp) _ s

theorem takeForce_pending (s : State) : (takeForce s).pending = s.pending :=
  foldl_pending (fun s k => State.setRegF_pending s k _) _ { s with tabF := s.tab }

theorem settleForce_pending (s old : State) : (settleForce s old).pending = s.pending := by
  simp [settleForce]

theorem appliedFrom_pending (old : State) : (appliedFrom old).pending = old.pending := by
  simp [appliedFrom, settleForce_pending, takeForce_pending]

@[simp] theorem execApplyStaged_keepsQueue (s : State) : KeepsQueue s.pending (execApplyStaged s) := by
  unfold execApplyStaged
  split
  · simp
  · have h := (appliedFrom_pending (closeChanged s)).trans (closeChanged_pending s)
    unfold appliedFrom closeChanged takeForce settleForce at h
    exact keepsQueue_next.2 h

@[simp] theorem grantMasks_pending (s : State) : (grantMasks s).pending = s.pending :=
    foldl_keeps_view (fun b => State.pending b.1) (fun b q => by dsimp only; split <;> simp) _ (s, 0)

@[simp] theorem nextStep_pending (s : State) : (nextStep s).pending = s.pending := by
  simp [nextStep]

@[simp] theorem execOpening_keepsQueue (s : State) : KeepsQueue s.pending (execOpening s) := by
  simp [execOpening]

theorem epc_sameQueue (s : State) (e : Epoch) : SameQueue s { s with epc := e } := rfl

theorem advanceSchedule_sameQueue (s : State) : SameQueue s (advanceSchedule s) := by
  unfold advanceSchedule
  extract_lets iv e i lim k n u
  have hu : SameQueue s u := bump_sameQueue ..
  exact .ite (.refl s) (.ite (epc_sameQueue s _) (hu.trans (epc_sameQueue u _)))

@[simp] theorem advanceSchedule_pending (s : State) : (advanceSchedule s).pending = s.pending := advanceSchedule_sameQueue s

@[simp] theorem ingest_pending (s : State) (c : Nat) : (ingest s c).pending = s.pending := by
  unfold ingest
  dsimp only
  split
  · rfl
  · split
    · simp
    · split
      · simp
      · rw [tenWrite_pending, foldl_pending]
        · simp
        · intro s i
          split
          · simp
          · simp [tenRead_pending ‹_›]

@[simp] theorem openEpoch_pending (s : State) (late : Bool) : (openEpoch s late).pending = s.pending := by
  simp [openEpoch]

@[simp] theorem execEpochOpen_keepsQueue (s : State) : KeepsQueue s.pending (execEpochOpen s) := by
  simp [execEpochOpen]

@[simp] theorem execScheduleHoldRelease_keepsQueue (s : State) : KeepsQueue s.pending (execScheduleHoldRelease s) := by
  simp [execScheduleHoldRelease]

/-! ### Clock -/

@[simp] theorem clkWritten_pending (old s : State) : (clkWritten old s).pending = s.pending := (clkWritten_movesClock old s).quiet.1.1

@[simp] theorem noteOffset_pending (s : State) (r : Nat) (offset : BitVec 16) : (noteOffset s r offset).pending = s.pending := by
  simp [noteOffset]

@[simp] theorem execRefCheckFail_keepsQueue (r : Fin 3) (cause : Nat) (offset : BitVec 16) (s : State) :
    KeepsQueue s.pending (execRefCheckFail r cause offset s) := by
  simp [execRefCheckFail]

@[simp] theorem execRefQualify_keepsQueue (r : Fin 3) (offset : BitVec 16) (s : State) :
    KeepsQueue s.pending (execRefQualify r offset s) := by
  simp [execRefQualify]

@[simp] theorem execRevertHoldoffExpiry_keepsQueue (s : State) : KeepsQueue s.pending (execRevertHoldoffExpiry s) := by
  unfold execRevertHoldoffExpiry
  split
  · simp
  · split <;> simp

@[simp] theorem execRefSwitchEnd_keepsQueue (s : State) : KeepsQueue s.pending (execRefSwitchEnd s) := by
  unfold execRefSwitchEnd
  split <;> simp

@[simp] theorem execClkCclkMWrite_keepsQueue (w : Word) (s : State) : KeepsQueue s.pending (execClkCclkMWrite w s) := by
  unfold execClkCclkMWrite
  dsimp only
  split
  · simp
  · split
    · simp
    · split <;> simp

@[simp] theorem execFreqChangeEnd_keepsQueue (s : State) : KeepsQueue s.pending (execFreqChangeEnd s) := by
  unfold execFreqChangeEnd
  split <;> simp

@[simp] theorem execTodIncrHiWrite_keepsQueue (w : Word) (s : State) : KeepsQueue s.pending (execTodIncrHiWrite w s) := by
  simp [execTodIncrHiWrite]

@[simp] theorem execTodIncrLoWrite_keepsQueue (w : Word) (s : State) : KeepsQueue s.pending (execTodIncrLoWrite w s) := by
  simp [execTodIncrLoWrite]

@[simp] theorem todArm_pending (s : State) (m : Nat) : (todArm s m).pending = s.pending := by
  simp [todArm]

@[simp] theorem execTodApplyNone_keepsQueue (s : State) : KeepsQueue s.pending (execTodApplyNone s) := by
  simp [execTodApplyNone]

@[simp] theorem execTodApplyNow_keepsQueue (s : State) : KeepsQueue s.pending (execTodApplyNow s) := by
  simp [execTodApplyNow]

@[simp] theorem execTodApplyAtNextSecond_keepsQueue (s : State) : KeepsQueue s.pending (execTodApplyAtNextSecond s) := by
  simp [execTodApplyAtNextSecond]

@[simp] theorem execTodApplyAtNextPps_keepsQueue (s : State) : KeepsQueue s.pending (execTodApplyAtNextPps s) := by
  simp [execTodApplyAtNextPps]

@[simp] theorem execTodCancel_keepsQueue (s : State) : KeepsQueue s.pending (execTodCancel s) := by
  simp [execTodCancel]

@[simp] theorem todSet_quiet (s : State) : QuietPair s (todSet s) := by
  simp [todSet]

@[simp] theorem todStep_quiet (s : State) : QuietPair s (todStep s) := by
  simp [todStep]

@[simp] theorem ppsRise_quiet (s : State) : QuietPair s (ppsRise s) := by
  cases h : s.tod.riseAt <;> simp [ppsRise, h]

@[simp] theorem ppsEvent_quiet (s : State) : QuietPair s (ppsEvent s) := by
  simp [ppsEvent]

@[simp] theorem todAdvance_quiet (s : State) : QuietPair s (todAdvance s) := by
  simp [todAdvance]

@[simp] theorem execPpsOutFall_keepsQueue (s : State) : KeepsQueue s.pending (execPpsOutFall s) := by
  simp [execPpsOutFall]

@[simp] theorem execPpsEdge_keepsQueue (high : Nat) (s : State) : KeepsQueue s.pending (execPpsEdge high s) := by
  simp [execPpsEdge]

/-! ### Fetch -/

@[simp] theorem fifoAdd_quiet (s : State) (q : Nat) (c : Chain) : QuietPair s (fifoAdd s q c) := by
  simp [fifoAdd]

@[simp] theorem submitRefuse_pending (s : State) (p q : Nat) (c : Chain) (status epoch : Nat) :
    (submitRefuse s p q c status epoch).pending = s.pending := by
  simp [submitRefuse]

@[simp] theorem submitCheck_pending (s : State) (p : Nat) (m : Msg) : (submitCheck s p m).pending = s.pending := by
  unfold submitCheck
  extract_lets q t c now
  split
  · simp
  · split
    · simp
    · split
      · simp
      · split
        · simp
        · simp [takeToken_pending ‹_›]

@[simp] theorem execSubmit_keepsQueue (p : Fin 8) (m : Msg) (s : State) : KeepsQueue s.pending (execSubmit p m s) := by
  simp [execSubmit]

@[simp] theorem recTouch_pending (s : State) (t i : Nat) : (recTouch s t i).pending = s.pending := by
  unfold recTouch
  split
  · rfl
  · split <;> simp

@[simp] theorem readRecord_pending (s : State) (q i tag chain : Nat) : (readRecord s q i tag chain).2.2.2.pending = s.pending := by
  unfold readRecord
  dsimp only
  split <;> simp

@[simp] theorem cacheRec_pending (s : State) (t i pa : Nat) (r : LastRec) : (cacheRec s t i pa r).pending = s.pending := by
  simp [cacheRec]

@[simp] theorem setFetch_pending (s : State) (q i : Nat) (f : Fetch) : (setFetch s q i f).pending = s.pending := by
  simp [setFetch]

@[simp] theorem recsTouch_pending (s : State) (q : Nat) (w : List Nat) : (recsTouch s q w).pending = s.pending := by
  simp [recsTouch]

@[simp] theorem raiseBad_pending (s : State) (q : Nat) : (raiseBad s q).pending = s.pending := by
  unfold raiseBad
  split <;> simp

@[simp] theorem execChainHeadTake_keepsQueue (q : Fin 64) (s : State) : KeepsQueue s.pending (execChainHeadTake q s) := by
  unfold execChainHeadTake
  dsimp only
  split
  · simp
  · split
    · simp
    · split
      · simp
      · split <;> simp

@[simp] theorem dcacheTouch_pending (s : State) (l : Nat) : (dcacheTouch s l).pending = s.pending := by
  simp [dcacheTouch]

@[simp] theorem dcacheClean_pending (s : State) (l : Nat) : (dcacheClean s l).pending = s.pending := by
  simp [dcacheClean]

@[simp] theorem dcacheDrop_pending (s : State) (l : Nat) : (dcacheDrop s l).pending = s.pending := by
  simp [dcacheDrop]

@[simp] theorem dcacheRead_pending (s : State) (l : Nat) : (dcacheRead s l).2.pending = s.pending := by
  unfold dcacheRead
  split
  · rfl
  · dsimp only
    split <;> simp

theorem dcacheRead_pending_of_eq {s t : State} {l : Nat} {o : Option (List Byte)} (h : dcacheRead s l = (o, t)) :
    t.pending = s.pending := by
  simpa [h] using dcacheRead_pending s l

@[simp] theorem dcacheFill_pending (s : State) (a : Agent) (l : Nat) : (dcacheFill s a l).pending = s.pending := by
  simp [dcacheFill]

@[simp] theorem execDescriptorFetch_keepsQueue (q : Fin 64) (s : State) : KeepsQueue s.pending (execDescriptorFetch q s) := by
  unfold execDescriptorFetch
  dsimp only
  split
  · split
    · simp
    · split
      · simp
      · split <;> simp [dcacheRead_pending_of_eq ‹_›]
  · simp

@[simp] theorem execDescriptorReturn_keepsQueue (q : Fin 64) (s : State) : KeepsQueue s.pending (execDescriptorReturn q s) := by
  unfold execDescriptorReturn
  dsimp only
  split
  · simp
  · split
    · simp
    · split
      · simp
      · split
        · simp
        · split <;> simp

@[simp] theorem execLastRecordReturn_keepsQueue (q : Fin 64) (operand : Fin 5) (s : State) :
    KeepsQueue s.pending (execLastRecordReturn q operand s) := by
  unfold execLastRecordReturn
  dsimp only
  split
  · simp
  · split <;> simp

/-! ### Issue -/

@[simp] theorem startIssue_keepsQueue {s : State} {k : Front → State} (hk : ∀ fr, (k fr).pending = s.pending) (op q : Nat) :
    KeepsQueue s.pending (startIssue op q s k) := by
  unfold startIssue
  split
  · simp
  · rw [keepsQueue_ite]
    refine ⟨fun _ => by simp, fun _ => ?_⟩
    split <;> simp [hk]

@[simp] theorem grant_pending (s : State) (q : Nat) : (grant s q).pending = s.pending := by
  simp [grant]

@[simp] theorem noteIssue_pending (s : State) (q : Nat) : (noteIssue s q).pending = s.pending := by
  simp [noteIssue]

@[simp] theorem issueIt_pending (s : State) (q : Nat) (fr : Front) (mk : Flight → Flight) : (issueIt s q fr mk).pending = s.pending := by
  simp [issueIt]

@[simp] theorem lastTakes_pending (s : State) (q : Nat) : (lastTakes s q).pending = s.pending := by
  simp [lastTakes]

@[simp] theorem endChain_pending (s : State) (q n : Nat) : (endChain s q n).pending = s.pending := by
  simp [endChain]

@[simp] theorem goTo_pending (s : State) (q a tag : Nat) : (goTo s q a tag).pending = s.pending := by
  simp [goTo]

@[simp] theorem goLast_pending (s : State) (q n tag : Nat) : (goLast s q n tag).pending = s.pending := by
  unfold goLast goWhere
  split <;> simp

@[simp] theorem goOn_pending (s : State) (q : Nat) (fr : Front) : (goOn s q fr).pending = s.pending := by
  simp [goOn]

@[simp] theorem goNext_pending (s : State) (q n : Nat) (w : List Nat) : (goNext s q n w).pending = s.pending := by
  simp [goNext]

@[simp] theorem execLoop_keepsQueue (q : Fin 64) (s : State) : KeepsQueue s.pending (execLoop q s) := by
  simp [execLoop]

@[simp] theorem execBranch_keepsQueue (q : Fin 64) (s : State) : KeepsQueue s.pending (execBranch q s) := by
  simp [execBranch]

@[simp] theorem execWait_keepsQueue (q : Fin 64) (s : State) : KeepsQueue s.pending (execWait q s) := by
  simp [execWait]

@[simp] theorem tackConsume_pending (s : State) (w : Waiting) : (tackConsume s w).pending = s.pending := by
  simp [tackConsume]

@[simp] theorem execWaitSatisfied_keepsQueue (q : Fin 64) (s : State) : KeepsQueue s.pending (execWaitSatisfied q s) := by
  unfold execWaitSatisfied
  split
  · simp
  · split
    · simp
    · split <;> simp

@[simp] theorem execWaitTimeout_keepsQueue (q : Fin 64) (s : State) : KeepsQueue s.pending (execWaitTimeout q s) := by
  unfold execWaitTimeout
  split
  · simp
  · split
    · simp
    · split <;> simp

@[simp] theorem startSet_keepsQueue {s : State} {k : Front → State} (hk : ∀ fr, (k fr).pending = s.pending) (kind q : Nat) :
    KeepsQueue s.pending (startSet kind q s k) := by
  simp [startSet, hk]

@[simp] theorem execTackAdd_keepsQueue (q : Fin 64) (s : State) : KeepsQueue s.pending (execTackAdd q s) := by
  simp [execTackAdd]

@[simp] theorem execTackWrite_keepsQueue (q : Fin 64) (s : State) : KeepsQueue s.pending (execTackWrite q s) := by
  simp [execTackWrite]

@[simp] theorem execCntWrite_keepsQueue (q : Fin 64) (s : State) : KeepsQueue s.pending (execCntWrite q s) := by
  simp [execCntWrite]

@[simp] theorem execCntAdd_keepsQueue (q : Fin 64) (s : State) : KeepsQueue s.pending (execCntAdd q s) := by
  simp [execCntAdd]

@[simp] theorem srWrite_pending (s : State) (due rank q r v : Nat) : (srWrite s due rank q r v).pending = s.pending := by
  simp [srWrite]

@[simp] theorem execSrWrite_keepsQueue (q : Fin 64) (s : State) : KeepsQueue s.pending (execSrWrite q s) := by
  simp [execSrWrite]

@[simp] theorem execCmpConfig_keepsQueue (q : Fin 64) (s : State) : KeepsQueue s.pending (execCmpConfig q s) := by
  simp [execCmpConfig]

@[simp] theorem execEpochEnd_keepsQueue (q : Fin 64) (s : State) : KeepsQueue s.pending (execEpochEnd q s) := by
  simp [execEpochEnd]

@[simp] theorem launchOne_pending (s : State) (q n : Nat) (w ps : List Nat) (k : Nat) : (launchOne s q n w ps k).pending = s.pending := by
  simp [launchOne]

@[simp] theorem execCobbler_keepsQueue (q : Fin 64) (s : State) : KeepsQueue s.pending (execCobbler q s) := by
  simp [execCobbler]

/-! ### Data -/

@[simp] theorem issueData_keepsQueue (op : Nat) (q : Nat) (s : State) : KeepsQueue s.pending (issueData op q s) := by
  simp [issueData]

@[simp] theorem srOob_pending (s : State) (q : Nat) (f : Flight) (operand : Nat) : (srOob s q f operand).pending = s.pending := by
  simp [srOob]

@[simp] theorem srLoadRun_pending (s : State) (q : Nat) (f : Flight) : (srLoadRun s q f).pending = s.pending := by
  unfold srLoadRun
  split <;> simp

@[simp] theorem srStoreRun_pending (s : State) (q : Nat) (f : Flight) : (srStoreRun s q f).pending = s.pending := by
  unfold srStoreRun
  split <;> simp

@[simp] theorem srWork_pending {run : State → Nat → Flight → State} (hrun : ∀ s q f, (run s q f).pending = s.pending)
    (op q : Nat) (s : State) : (srWork op q run s).pending = s.pending := by
  cases h : srOpen s op q <;> simp [srWork, h, hrun]

@[simp] theorem issueScalar_keepsQueue {run : State → Nat → Flight → State} (hrun : ∀ s q f, (run s q f).pending = s.pending)
    (op q : Nat) (s : State) : KeepsQueue s.pending (issueScalar op run q s) := by
  cases h : srOpen s op q <;> simp [issueScalar, h, hrun]

/-! ### Retire -/

@[simp] theorem execTileDeal_keepsQueue (q : Fin 64) (s : State) : KeepsQueue s.pending (execTileDeal q s) := by
  unfold execTileDeal
  split
  · simp
  · split <;> simp

@[simp] theorem notify_pending (s : State) (q : Nat) (f : Flight) : (notify s q f).pending = s.pending := by
  simp [notify]

@[simp] theorem deliverOut_pending (s : State) (q : Nat) (f : Flight) : (deliverOut s q f).pending = s.pending := by
  unfold deliverOut
  dsimp only
  split <;> simp

@[simp] theorem endAnswer_pending (s : State) (q : Nat) (f : Flight) : (endAnswer s q f).pending = s.pending := by
  unfold endAnswer
  split
  · rfl
  · split <;> simp

@[simp] theorem execDescriptorRetire_keepsQueue (q : Fin 64) (s : State) : KeepsQueue s.pending (execDescriptorRetire q s) := by
  unfold execDescriptorRetire
  split <;> simp

@[simp] theorem declareKnot_pending (s : State) (t : Nat) : (declareKnot s t).pending = s.pending := by
  unfold declareKnot
  extract_lets held cbls s1 s2
  have h1 : s1.pending = s.pending := foldl_pending (fun s x => by dsimp only; split <;> simp) _ s
  simp [s2, h1]

@[simp] theorem sampleKnot_pending (s : State) (t : Nat) : (sampleKnot s t).pending = s.pending := by
  simp [sampleKnot]

@[simp] theorem execKnotSample_keepsQueue (s : State) : KeepsQueue s.pending (execKnotSample s) := by
  simp [execKnotSample]

/-! ### Cobbler -/

@[simp] theorem cSet_quiet (s : State) (k i v : Nat) : QuietPair s (cSet s k i v) := by
  simp [cSet]

@[simp] theorem cBusy_pending (s : State) (k i at_ : Nat) : (cBusy s k i at_).pending = s.pending := by
  simp [cBusy]

@[simp] theorem cGo_pending (s : State) (k pc wait : Nat) : (cGo s k pc wait).pending = s.pending := by
  simp [cGo]

@[simp] theorem cNextIn_pending (s : State) (k wait : Nat) : (cNextIn s k wait).pending = s.pending := by
  simp [cNextIn]

@[simp] theorem cNext_pending (s : State) (k : Nat) : (cNext s k).pending = s.pending := by
  simp [cNext]

@[simp] theorem cJump_pending (s : State) (k target : Nat) : (cJump s k target).pending = s.pending := by
  simp [cJump]

@[simp] theorem cTouch_pending (s : State) (k : Nat) : (cTouch s k).pending = s.pending := by
  unfold cTouch
  simp only [pending_ite]
  split
  · rfl
  · split
    · rfl
    · split <;> simp

@[simp] theorem cIssue_pending (s : State) (k w : Nat) : (cIssue s k w).pending = s.pending := by
  unfold cIssue
  split <;> simp

@[simp] theorem cStep_keepsQueue {body : State → Nat → State} (hb : ∀ s w, (body s w).pending = s.pending) (op k : Nat) (s : State) :
    KeepsQueue s.pending (cStep op k s body) := by
  cases h : cWord s k <;> simp [cStep, h, hb]

@[simp] theorem cAluR_keepsQueue (op k : Nat) (s : State) (f : Nat → Nat → Nat) : KeepsQueue s.pending (cAluR op k s f) := by
  simp [cAluR]

@[simp] theorem cAluI_keepsQueue (op k : Nat) (s : State) (f : Nat → Nat → Nat) : KeepsQueue s.pending (cAluI op k s f) := by
  simp [cAluI]

@[simp] theorem cBranch_keepsQueue (op k : Nat) (s : State) (f : Nat → Nat → Bool) : KeepsQueue s.pending (cBranch op k s f) := by
  simp [cBranch]

@[simp] theorem execCblLui_keepsQueue (k : Fin 16) (s : State) : KeepsQueue s.pending (execCblLui k s) := by
  simp [execCblLui]

@[simp] theorem execCblJal_keepsQueue (k : Fin 16) (s : State) : KeepsQueue s.pending (execCblJal k s) := by
  simp [execCblJal]

@[simp] theorem execCblJalr_keepsQueue (k : Fin 16) (s : State) : KeepsQueue s.pending (execCblJalr k s) := by
  simp [execCblJalr]

@[simp] theorem cHalted_pending (before : State) (s : State) (k : Nat) : (cHalted before s k).pending = s.pending := by
  simp [cHalted]

@[simp] theorem cThenIn_pending (before : State) (s : State) (k wait : Nat) : (cThenIn before s k wait).pending = s.pending := by
  simp [cThenIn]

@[simp] theorem cThen_pending (before : State) (s : State) (k : Nat) : (cThen before s k).pending = s.pending := by
  simp [cThen]

@[simp] theorem cLoad_keepsQueue (op n : Nat) (sgn : Bool) (k : Nat) (s : State) : KeepsQueue s.pending (cLoad op n sgn k s) :=
  cStep_keepsQueue (fun s w => by dsimp only; split <;> simp) _ _ _

@[simp] theorem cStore_keepsQueue (op n : Nat) (k : Nat) (s : State) : KeepsQueue s.pending (cStore op n k s) :=
  cStep_keepsQueue (fun s w => by dsimp only; split <;> simp) _ _ _

@[simp] theorem execCblLwc_keepsQueue (k : Fin 16) (s : State) : KeepsQueue s.pending (execCblLwc k s) :=
  cStep_keepsQueue (fun s w => by dsimp only; split <;> simp) _ _ _

@[simp] theorem execCblSwc_keepsQueue (k : Fin 16) (s : State) : KeepsQueue s.pending (execCblSwc k s) :=
  cStep_keepsQueue (fun s w => by dsimp only; split <;> simp) _ _ _

@[simp] theorem copyWords_pending (s : State) (k src dst n : Nat) : (copyWords s k src dst n).2.pending = s.pending := by
  refine foldl_keeps_view (fun b : Option Nat × State => b.2.pending) (fun b i => ?_) _ _
  dsimp only
  split
  · rfl
  · split <;> simp

@[simp] theorem cCopy_keepsQueue (op : Nat) (get : Bool) (k : Nat) (s : State) : KeepsQueue s.pending (cCopy op get k s) :=
  cStep_keepsQueue (fun s w => by
    dsimp only
    split
    · simp
    · split
      · simp
      · split <;> simp [apply_ite Prod.snd]) _ _ _

@[simp] theorem cAddOp_pending (s : State) (k : Nat) (o : CblOp) : (cAddOp s k o).pending = s.pending := by
  simp [cAddOp]

@[simp] theorem readHbmParts_pending (s : State) (k id t a n : Nat) : (readHbmParts s k id t a n).2.2.pending = s.pending := by
  refine foldl_keeps_view (fun b : List Byte × Option Nat × State => b.2.2.pending) (fun b c => ?_) _ _
  dsimp only
  split
  · rfl
  · exact tenRead_pending ‹_›

@[simp] theorem cRead_keepsQueue (op : Nat) (wide : Bool) (k : Nat) (s : State) : KeepsQueue s.pending (cRead op wide k s) :=
  cStep_keepsQueue (fun s w => by
    dsimp only
    split
    · simp
    · split <;> simp) _ _ _

@[simp] theorem cWrite_keepsQueue (op : Nat) (wide : Bool) (k : Nat) (s : State) : KeepsQueue s.pending (cWrite op wide k s) :=
  cStep_keepsQueue (fun s w => by
    dsimp only
    split
    · simp
    · split <;> simp [apply_ite Prod.snd]) _ _ _

@[simp] theorem cComplete_pending (s : State) (k : Nat) (o : CblOp) : (cComplete s k o).pending = s.pending := by
  simp [cComplete]

@[simp] theorem execCblHbmComplete_keepsQueue (k : Fin 16) (n : Nat) (s : State) : KeepsQueue s.pending (execCblHbmComplete k n s) := by
  unfold execCblHbmComplete
  split <;> simp

@[simp] theorem execCblFence_keepsQueue (k : Fin 16) (s : State) : KeepsQueue s.pending (execCblFence k s) := by
  simp [execCblFence]

@[simp] theorem cTset_keepsQueue (bit0 : Nat) (k : Nat) (s : State) : KeepsQueue s.pending (cTset bit0 k s) := by
  unfold cTset
  split <;> simp

@[simp] theorem execCblTwait_keepsQueue (k : Fin 16) (s : State) : KeepsQueue s.pending (execCblTwait k s) := by
  simp [execCblTwait]

@[simp] theorem cLeave_pending (s : State) (k v : Nat) : (cLeave s k v).pending = s.pending := by
  simp [cLeave]

@[simp] theorem execCblTwaitSatisfied_keepsQueue (k : Fin 16) (s : State) : KeepsQueue s.pending (execCblTwaitSatisfied k s) := by
  unfold execCblTwaitSatisfied
  split <;> simp

@[simp] theorem execCblTwaitTimeout_keepsQueue (k : Fin 16) (s : State) : KeepsQueue s.pending (execCblTwaitTimeout k s) := by
  unfold execCblTwaitTimeout
  split <;> simp

@[simp] theorem cLater_pending (s : State) (k : Nat) (l : CblLate) : (cLater s k l).pending = s.pending := by
  simp [cLater]

@[simp] theorem execCblSrrd_keepsQueue (k : Fin 16) (s : State) : KeepsQueue s.pending (execCblSrrd k s) := by
  simp [execCblSrrd]

@[simp] theorem execCblSrwr_keepsQueue (k : Fin 16) (s : State) : KeepsQueue s.pending (execCblSrwr k s) := by
  simp [execCblSrwr]

@[simp] theorem execCblSubmit_keepsQueue (k : Fin 16) (s : State) : KeepsQueue s.pending (execCblSubmit k s) := by
  simp [execCblSubmit]

@[simp] theorem cblLate_quiet (s : State) (k : Nat) (l : CblLate) : QuietPair s (cblLate s k l) := by
  simp [cblLate]

@[simp] theorem cblLateDue_quiet (s : State) : QuietPair s (cblLateDue s) := by
  simp [cblLateDue]

@[simp] theorem execCblHalt_keepsQueue (k : Fin 16) (s : State) : KeepsQueue s.pending (execCblHalt k s) := by
  simp [execCblHalt]

@[simp] theorem execCblLineFill_keepsQueue (k : Fin 16) (s : State) : KeepsQueue s.pending (execCblLineFill k s) := by
  unfold execCblLineFill
  extract_lets c
  split
  · simp
  · extract_lets r lines again
    have h : r.2.2.pending = s.pending := by
      unfold r
      split
      · rfl
      · split
        · exact dcacheRead_pending_of_eq ‹_›
        · simp [dcacheRead_pending_of_eq ‹_›]
    simp [h]

@[simp] theorem execCblIllegal_keepsQueue (k : Fin 16) (s : State) : KeepsQueue s.pending (execCblIllegal k s) := by
  unfold execCblIllegal
  split <;> simp

/-! ### Regs -/

@[simp] theorem latchAt_pending (s : State) (a : Nat) : (latchAt s a).pending = s.pending := by
  simp [latchAt]

@[simp] theorem rcReduce_pending (s : State) (key a v : Nat) : (rcReduce s key a v).pending = s.pending := by
  simp [rcReduce]

@[simp] theorem addrRefused_pending (s : State) : (addrRefused s).pending = s.pending := by
  simp [addrRefused]

@[simp] theorem readWord1_pending (s : State) (addr : Nat) : (readWord1 s addr).pending = s.pending := by
  simp [readWord1]

@[simp] theorem execRcRead_keepsQueue (addr : Nat) (s : State) : KeepsQueue s.pending (execRcRead addr s) := by
  simp [execRcRead]

@[simp] theorem execLatchedGroupRead_keepsQueue (addr : Nat) (s : State) : KeepsQueue s.pending (execLatchedGroupRead addr s) := by
  simp [execLatchedGroupRead]

@[simp] theorem execGlbNodeWrite_keepsQueue (w : Word) (s : State) : KeepsQueue s.pending (execGlbNodeWrite w s) := by
  simp [execGlbNodeWrite]

@[simp] theorem execFltPop_keepsQueue (s : State) : KeepsQueue s.pending (execFltPop s) := by
  unfold execFltPop
  split
  · simp
  · split <;> simp

@[simp] theorem tabCmd_pending (s : State) (wmask : BitVec 8) : (tabCmd s wmask).pending = s.pending := by
  simp [tabCmd]

@[simp] theorem tabStart_pending (s : State) (write : Bool) (wmask : BitVec 8) : (tabStart s write wmask).pending = s.pending := by
  simp [tabStart]

@[simp] theorem execTableRead_keepsQueue (wmask : BitVec 8) (s : State) : KeepsQueue s.pending (execTableRead wmask s) := by
  simp [execTableRead]

@[simp] theorem execTableWrite_keepsQueue (wmask : BitVec 8) (s : State) : KeepsQueue s.pending (execTableWrite wmask s) := by
  simp [execTableWrite]

@[simp] theorem execTableCmdNone_keepsQueue (wmask : BitVec 8) (_op3 : Bool) (s : State) :
    KeepsQueue s.pending (execTableCmdNone wmask _op3 s) := by
  simp [execTableCmdNone]

@[simp] theorem tabRc_quiet (s : State) (sel i : Nat) : QuietPair s (tabRc s sel i) := by
  unfold tabRc
  split <;> simp

@[simp] theorem tabLoad_quiet (s : State) (sel i : Nat) : QuietPair s (tabLoad s sel i) := by
  simp [tabLoad]

@[simp] theorem tabPerform_quiet (s : State) (a : TabAccess) : Quiet s (tabPerform s a) := by
  simp [tabPerform]

@[simp] theorem keyWrite_quiet (s : State) (i w v : Nat) : QuietPair s (keyWrite s i w v) := by
  simp [keyWrite]

@[simp] theorem tabPut_quiet (s : State) (sel i w v : Nat) : Quiet s (tabPut s sel i w v) := by
  simp [tabPut]

@[simp] theorem tabStore_quiet (s : State) (a : TabAccess) : Quiet s (tabStore s a) := by
  simp [tabStore]

@[simp] theorem tabTick_quiet (s : State) : Quiet s (tabTick s) := by
  cases h : s.msp.tabAt <;> simp [tabTick, h]

@[simp] theorem after_pending {s : State} {o : Out} (h : KeepsQueue s.pending o) : (after s o).pending = s.pending := by
  unfold after
  split
  · exact keepsQueue_next.mp h
  · rfl

@[simp] theorem plainWrite_pending (s : State) (a w : Nat) : (plainWrite s a w).pending = s.pending := by
  simp [plainWrite]

@[simp] theorem ppsoFollow_pending (s : State) : (ppsoFollow s).pending = s.pending := by
  simp [ppsoFollow]

@[simp] theorem linkCtrl_pending (s : State) (p : Fin 9) (w : Nat) : (linkCtrl s p w).pending = s.pending := by
  unfold linkCtrl
  extract_lets u
  have h : u.pending = s.pending := after_pending (by split <;> simp)
  split
  · exact (after_pending (execWltCtrlRetrain_keepsQueue p u)).trans h
  · exact h

@[simp] theorem todCtrl_pending (s : State) (w : Nat) : (todCtrl s w).pending = s.pending := by
  unfold todCtrl
  extract_lets u
  have h : u.pending = s.pending := by simp [u]
  split
  · exact (after_pending (execTodApplyNone_keepsQueue u)).trans h
  · exact (after_pending (execTodApplyNow_keepsQueue u)).trans h
  · exact (after_pending (execTodApplyAtNextSecond_keepsQueue u)).trans h
  · exact (after_pending (execTodApplyAtNextPps_keepsQueue u)).trans h

@[simp] theorem regCommit_pending (s : State) (a : Nat) (w : Word) : (regCommit s a w).pending = s.pending := by
  unfold regCommit
  split
  case h_15 =>
    extract_lets n p u
    have h : u.pending = s.pending := linkCtrl_pending ..
    split
    · exact (after_pending (execWltCtrlRelease_keepsQueue p u)).trans h
    · exact h
  case h_22 =>
    extract_lets n m
    split <;> simp
  all_goals simp

@[simp] theorem execRegisterWrite_keepsQueue (addr : Nat) (w : Word) (s : State) : KeepsQueue s.pending (execRegisterWrite addr w s) := by
  simp [execRegisterWrite]

/-! ### Msp -/

@[simp] theorem frameEnds_pending (s : State) (o : Nat) : (frameEnds s o).pending = s.pending := by
  simp [frameEnds]

@[simp] theorem frameErr_pending (s : State) : (frameErr s).pending = s.pending := by
  simp [frameErr]

@[simp] theorem wrDiscard_pending (s : State) : (wrDiscard s).pending = s.pending := by
  simp [wrDiscard]

@[simp] theorem countWord_pending (s : State) : (countWord s).pending = s.pending := by
  simp [countWord]

@[simp] theorem writeWords_pending (k : Nat) : ∀ (s : State) (a : Nat) (bs : List Byte) (n crc : Nat),
    (writeWords k s a bs n crc).pending = s.pending := by
  induction k with
  | zero => intro s a bs n crc; rfl
  | succ k ih => intro s a bs n crc; simp [writeWords, ih]

@[simp] theorem writeFrame_pending (s : State) (bs : List Byte) (n : Nat) : (writeFrame s bs n).pending = s.pending := by
  simp [writeFrame]

@[simp] theorem fetchWord_pending (s : State) (a : Nat) : (fetchWord s a).2.pending = s.pending := by
  simp [fetchWord, apply_ite Prod.snd]

@[simp] theorem readWords_pending (k : Nat) : ∀ (s : State) (a n crc : Nat) (bad : Bool),
    (readWords k s a n crc bad).2.pending = s.pending := by
  induction k with
  | zero => intro s a n crc bad; rfl
  | succ k ih => intro s a n crc bad; cases bad <;> simp [readWords, ih, apply_ite Prod.snd]

@[simp] theorem readFrame_pending (s : State) (bs : List Byte) (n : Nat) : (readFrame s bs n).pending = s.pending := by
  simp [readFrame]

@[simp] theorem statusFrame_pending (s : State) (bs : List Byte) (n : Nat) : (statusFrame s bs n).pending = s.pending := by
  simp [statusFrame]

@[simp] theorem mspFrame_pending (s : State) (bs : List Byte) (n : Nat) : (mspFrame s bs n).pending = s.pending := by
  unfold mspFrame
  split
  · simp
  · split
    · simp
    · split <;> simp

@[simp] theorem execMspWrite_keepsQueue (frame : List Byte) (extraBits : Nat) (s : State) :
    KeepsQueue s.pending (execMspWrite frame extraBits s) := by
  simp [execMspWrite]

@[simp] theorem execMspRead_keepsQueue (frame : List Byte) (clocks : Nat) (s : State) :
    KeepsQueue s.pending (execMspRead frame clocks s) := by
  simp [execMspRead]

@[simp] theorem execMspStatus_keepsQueue (frame : List Byte) (clocks : Nat) (s : State) :
    KeepsQueue s.pending (execMspStatus frame clocks s) := by
  simp [execMspStatus]

/-! ### Fault -/

@[simp] theorem execFaultRingCopy_keepsQueue (s : State) : KeepsQueue s.pending (execFaultRingCopy s) := by
  unfold execFaultRingCopy
  split <;> simp

@[simp] theorem execTraceRecordWrite_keepsQueue (s : State) : KeepsQueue s.pending (execTraceRecordWrite s) := by
  unfold execTraceRecordWrite
  dsimp only
  split
  · simp
  · split
    · simp
    · split <;> simp

@[simp] theorem dropBatches_quiet (s : State) : QuietPair s (dropBatches s) := by
  simp [dropBatches]

@[simp] theorem contain_quiet (s : State) (unit : Nat) : QuietPair s (contain s unit) := by
  simp [contain]

@[simp] theorem execContainment_keepsQueue (unit : Fin 105) (s : State) : KeepsQueue s.pending (execContainment unit s) := by
  simp [execContainment]

/-! ### Power -/

@[simp] theorem porstState_pending (s : State) (supplyLow porstLow : Bool) : (porstState s supplyLow porstLow).pending = s.pending := by
  simp [porstState]

@[simp] theorem execPorstAssert_keepsQueue (s : State) : KeepsQueue s.pending (execPorstAssert s) := by
  simp [execPorstAssert]

@[simp] theorem execSupplyFault_keepsQueue (s : State) : KeepsQueue s.pending (execSupplyFault s) := by
  simp [execSupplyFault]

@[simp] theorem release_pending (s : State) (straps : Nat) : (release s straps).pending = s.pending := by
  simp [release]

@[simp] theorem execPorstRelease_keepsQueue (straps : BitVec 4) (s : State) : KeepsQueue s.pending (execPorstRelease straps s) := by
  simp [execPorstRelease]

@[simp] theorem execSupplyReturn_keepsQueue (s : State) : KeepsQueue s.pending (execSupplyReturn s) := by
  simp [execSupplyReturn]

@[simp] theorem execPllLock_keepsQueue (s : State) : KeepsQueue s.pending (execPllLock s) := by
  simp [execPllLock]

@[simp] theorem bistResult_pending (s : State) (failed : List Nat) : (bistResult s failed).pending = s.pending := by
  simp [bistResult]

@[simp] theorem execBistComplete_keepsQueue (failed : List Nat) (s : State) : KeepsQueue s.pending (execBistComplete failed s) := by
  unfold execBistComplete
  split <;> simp

@[simp] theorem execHbmTrainingComplete_keepsQueue (h : Fin 4) (ok : Bool) (s : State) :
    KeepsQueue s.pending (execHbmTrainingComplete h ok s) := by
  simp [execHbmTrainingComplete]

@[simp] theorem execZeroFillComplete_keepsQueue (h : Fin 4) (s : State) : KeepsQueue s.pending (execZeroFillComplete h s) := by
  simp [execZeroFillComplete]

@[simp] theorem portsOff_quiet (s : State) : QuietPair s (portsOff s) := by
  simp [portsOff]

@[simp] theorem scrubStart_quiet (s : State) : QuietPair s (scrubStart s) := by
  simp [scrubStart]

@[simp] theorem devReady_quiet (s : State) : QuietPair s (devReady s) := by
  unfold devReady
  dsimp only
  split <;> simp

@[simp] theorem coldReady_quiet (s : State) : QuietPair s (coldReady s) := by
  simp [coldReady]

@[simp] theorem execWarmrstAssert_keepsQueue (s : State) : KeepsQueue s.pending (execWarmrstAssert s) := by
  unfold execWarmrstAssert
  split <;> simp

@[simp] theorem warmState_pending (s : State) : (warmState s).pending = s.pending := by
  simp [warmState]

@[simp] theorem execWarmResetPoint_keepsQueue (s : State) : KeepsQueue s.pending (execWarmResetPoint s) := by
  simp [execWarmResetPoint]

@[simp] theorem execWarmrstRelease_keepsQueue (s : State) : KeepsQueue s.pending (execWarmrstRelease s) := by
  unfold execWarmrstRelease
  split <;> simp

@[simp] theorem execWarmSequenceEnd_keepsQueue (failed : List Nat) (s : State) : KeepsQueue s.pending (execWarmSequenceEnd failed s) := by
  unfold execWarmSequenceEnd
  split <;> simp

@[simp] theorem execJtagAccess_keepsQueue (instr : Fin 4) (shift : List Bool) (s : State) :
    KeepsQueue s.pending (execJtagAccess instr shift s) := by
  unfold execJtagAccess
  split
  · simp
  · split <;> simp

/-! ### Tick -/

@[simp] theorem srApply_quiet (s : State) (w : SrWr) : QuietPair s (srApply s w) := by
  simp [srApply]

@[simp] theorem srApplyDue_quiet (s : State) : QuietPair s (srApplyDue s) := by
  simp [srApplyDue]

@[simp] theorem tackApply_quiet (s : State) (u : TackUpd) : QuietPair s (tackApply s u) := by
  simp [tackApply]

@[simp] theorem tackApplyDue_quiet (s : State) : QuietPair s (tackApplyDue s) := by
  simp [tackApplyDue]

@[simp] theorem fxApply_quiet (s : State) (f : Fx) : QuietPair s (fxApply s f) := by
  cases f <;> simp [fxApply]

@[simp] theorem ccBegins_pending (s : State) : (ccBegins s).pending = s.pending := by
  simp [ccBegins]

@[simp] theorem waitFollow_quiet (s : State) : QuietPair s (waitFollow s) := by
  simp [waitFollow]

@[simp] theorem commitFollow_pending (s : State) : (commitFollow s).pending = s.pending := by
  simp [commitFollow]

@[simp] theorem fenceHalt_quiet (s : State) : QuietPair s (fenceHalt s) := by
  simp [fenceHalt]

end Sys2Proof.Machine
end

section
/-! PROOFS. A step takes one command from the queue, or is one cc (log entry 2). -/

namespace Sys2Proof.Machine

/-! ### The pair of a cc that journals -/

/-- Where `t` journals, `s` does. -/
def JournalsOnlyAs (s t : State) : Prop := journals t = true → journals s = true

theorem JournalsOnlyAs.refl (s : State) : JournalsOnlyAs s s := id

theorem JournalsOnlyAs.trans {s t u : State} (h : JournalsOnlyAs s t) (k : JournalsOnlyAs t u) : JournalsOnlyAs s u := h ∘ k

theorem JournalsOnlyAs.ite {s t u : State} {c : Prop} [Decidable c] (ht : JournalsOnlyAs s t) (hu : JournalsOnlyAs s u) :
    JournalsOnlyAs s (if c then t else u) := by
  split <;> assumption

theorem journalsOnlyAs_of_twn {s t : State} (h : t.twn = s.twn) : JournalsOnlyAs s t := by
  simp [JournalsOnlyAs, journals, h]

theorem journalsOnlyAs_foldl {α : Type} {f : State → α → State} (hf : ∀ s x, JournalsOnlyAs s (f s x)) :
    ∀ (l : List α) (s : State), JournalsOnlyAs s (l.foldl f s)
  | [], s => .refl s
  | x :: l, s => (hf s x).trans (journalsOnlyAs_foldl hf l (f s x))

theorem sendTState_pstate (s : State) : (sendTState s).twn.pstate = s.twn.pstate := by
  unfold sendTState
  split <;> simp

theorem sendTState_journalsOnlyAs (s : State) : JournalsOnlyAs s (sendTState s) := by
  unfold sendTState
  split
  · simp [JournalsOnlyAs, journals]
  · exact .refl s

/-- A pair that changes to anything but PAIRED journals no more; nothing in a cc pairs it. -/
theorem pairTo_journalsOnlyAs (s : State) {st : Nat} (hst : st ≠ 2) : JournalsOnlyAs s (pairTo s st) := by
  unfold pairTo
  extract_lets s1 w s2 w' s3
  have h3 : s3.twn.pstate = st := by rw [show s3 = s2 from if_neg hst]
  clear_value s3
  refine .ite (.refl s) fun h => ?_
  have hst' : (sendTState (s3.setBit 0x0408 31)).twn.pstate = st := (sendTState_pstate _).trans h3
  simp [journals, hst', hst] at h

theorem pairJudge_journalsOnlyAs (s : State) : JournalsOnlyAs s (pairJudge s) :=
  .ite (pairTo_journalsOnlyAs s (by decide)) (.refl s)

theorem portTo_journalsOnlyAs (s : State) (p : Nat) (st : PState) : JournalsOnlyAs s (portTo s p st) := by
  unfold portTo
  extract_lets -underBinder old leaves s1 s2 s3 s4 s5 s6 s7 w c s8 s9
  have h : JournalsOnlyAs s s7 := journalsOnlyAs_of_twn (by cases st <;> simp [s7, s6, s5, s4, s3, s2, s1])
  have h8 : JournalsOnlyAs s7 s8 := .ite id (.refl s7)
  have h9 : JournalsOnlyAs s8 s9 := .ite (pairTo_journalsOnlyAs s8 (by decide)) (.refl s8)
  have h10 := h.trans (h8.trans h9)
  clear_value s9 s8 s7
  exact .ite (.refl s) (.ite (h10.trans (.trans (.ite ((sendTState_journalsOnlyAs s9).trans (pairJudge_journalsOnlyAs _)) (.refl s9))
    (journalsOnlyAs_of_twn (clkEval_quiet _).2))) h)

theorem portForce_journalsOnlyAs (s : State) (p n : Nat) : JournalsOnlyAs s (portForce s p n) := by
  refine .ite ?_ (.refl s)
  split
  case h_5 => exact .refl s
  all_goals exact portTo_journalsOnlyAs s p _

theorem addStrikes_journalsOnlyAs (s : State) (p n : Nat) : JournalsOnlyAs s (addStrikes s p n) := by
  refine .ite (.refl s) ?_
  extract_lets u qth
  have hu : JournalsOnlyAs s u := journalsOnlyAs_of_twn (State.modPort_quiet ..).2
  refine .ite (hu.trans ((portTo_journalsOnlyAs u p _).trans (journalsOnlyAs_of_twn (linkRecord_quiet ..).2))) hu

theorem tabPut_journalsOnlyAs (s : State) (sel i w v : Nat) : JournalsOnlyAs s (tabPut s sel i w v) := by
  unfold tabPut
  extract_lets m u x
  have hu : JournalsOnlyAs s u := .ite (.refl s) (journalsOnlyAs_of_twn (by simp))
  have hx : JournalsOnlyAs u x := journalsOnlyAs_of_twn (State.modUnit_quiet ..).2
  clear_value u
  exact .ite (hu.trans (journalsOnlyAs_of_twn (keyWrite_quiet ..).2)) (.ite
    (hu.trans (hx.trans (.ite (portForce_journalsOnlyAs _ _ _) (.refl x)))) (.ite (hu.trans (addStrikes_journalsOnlyAs _ _ _)) hu))

theorem tabPerform_journalsOnlyAs (s : State) (a : TabAccess) : JournalsOnlyAs s (tabPerform s a) := by
  unfold tabPerform
  extract_lets m u kept
  have hu : JournalsOnlyAs s u := id
  clear_value u
  exact hu.trans (.ite (.refl u) (.ite (journalsOnlyAs_of_twn (tabLoad_quiet ..).2) (.ite
    (.ite (portTo_journalsOnlyAs _ _ _) (.refl u)) (.ite (journalsOnlyAs_of_twn (State.modTack_quiet ..).2) (.refl u)))))

theorem tabStore_journalsOnlyAs (s : State) (a : TabAccess) : JournalsOnlyAs s (tabStore s a) := by
  unfold tabStore
  extract_lets m u
  have hu : JournalsOnlyAs s u := id
  clear_value u
  exact hu.trans (.ite (.refl u) (journalsOnlyAs_foldl (fun s w => .ite (tabPut_journalsOnlyAs _ _ _ _ _) (.refl s)) _ u))

theorem tabTick_journalsOnlyAs (s : State) : JournalsOnlyAs s (tabTick s) := by
  unfold tabTick
  split
  · exact .refl s
  · exact .ite (tabPerform_journalsOnlyAs _ _) (.ite (tabStore_journalsOnlyAs _ _) (.refl s))

/-! ### The cc in its parts -/

/-- The end of the cc before: what found the FIFO full is lost, the scrub steps are taken, what happened is forgotten. -/
def ccEnds (s : State) : State := (alertFollow (scrubsDue (faultLost s))).setCc {}

/-- What is due in a cc that has begun, up to the table window. -/
def ccWindow (s : State) : State := tabTick (tackApplyDue (cblLateDue (srApplyDue s)))

/-- What follows the table window, up to the commit record. -/
def ccFollows (s : State) : State :=
  scrubHold (stallFollow (clkEval (faultEnterDue (if s.power.pllLock then todAdvance s else s))))

/-- The state in which the commit record is due. -/
def ccCommits (s : State) : State := ccFollows (ccWindow (ccBegins (ccEnds s)))

/-- What follows the commit record. -/
def ccSettles (s : State) : State :=
  if coldDone (fenceHalt (waitFollow s)) then coldReady (fenceHalt (waitFollow s)) else fenceHalt (waitFollow s)

/-- A cc in its parts. -/
theorem tick_eq (s : State) : tick s = ccSettles (commitFollow (ccCommits s)) := rfl

theorem ccEnds_quiet (s : State) : QuietPair s (ccEnds s) := by
  simp [ccEnds]

theorem ccWindow_quiet (s : State) : Quiet s (ccWindow s) := by
  simp [ccWindow]

theorem ccFollows_quiet (s : State) : QuietPair s (ccFollows s) := by
  simp [ccFollows]

theorem ccSettles_quiet (s : State) : QuietPair s (ccSettles s) := by
  simp [ccSettles]

theorem ccWindow_journalsOnlyAs (s : State) : JournalsOnlyAs s (ccWindow s) :=
  (journalsOnlyAs_of_twn (by simp)).trans (tabTick_journalsOnlyAs _)

@[simp] theorem tick_pending (s : State) : (tick s).pending = s.pending := by
  rw [tick_eq, (ccSettles_quiet _).1.1, commitFollow_pending, ccCommits, (ccFollows_quiet _).1.1, (ccWindow_quiet _).1, ccBegins_pending,
    (ccEnds_quiet _).1.1]


/-! ### The counts of a cc -/

theorem scrubWord_power (s : State) (u w : Nat) : (scrubWord s u w).power = s.power := by
  have h := (parityCheck_reports s (scrubAgent u) w).power
  cases hw : s.wordErr w with
  | ue =>
    have hue := ((logUE_reports (s.bump 0x0494 1) (scrubAgent u) (sramPlace w).1 (sramPlace w).2.1 (sramPlace w).2.2).trans
      (agentOnce_reports _ (scrubAgent u) 0x22 (eccDetail (sramPlace w).1 (sramPlace w).2.2))).power
    simp [scrubWord, hw, h, hue, apply_ite State.power, State.setWord]
  | clean | ce | poison => simp [scrubWord, hw, h, apply_ite State.power, State.setWord]

theorem ccEnds_power (s : State) : (ccEnds s).power = s.power := by
  have hlost : (faultLost s).power = s.power := foldl_keeps_view State.power (fun s _ => by simp) _ s
  refine Eq.trans (foldl_keeps_view State.power (fun s u => ?_) _ _) hlost
  simp [scrubSram, State.setSramScrub, apply_ite State.power, scrubWord_power]

/-- A cc that begins counts itself, and GLB_CCNT does once the PLL has locked. -/
theorem ccBegins_counts (s : State) : (ccBegins s).now = s.now + 1 ∧
    (ccBegins s).ccnt = if s.power.pllLock then (s.ccnt + 1) % 2 ^ 64 else s.ccnt := by
  simp [ccBegins]

/-- For the rest it changes nothing that a step on an empty queue is said to keep. -/
theorem ccBegins_keeps (s : State) : (ccBegins s).jtag = s.jtag ∧ (ccBegins s).regsF = s.regsF ∧
    (ccBegins s).mem.hbm = s.mem.hbm ∧ (ccBegins s).mem.sram = s.mem.sram ∧ (ccBegins s).twn = s.twn := by
  simp [ccBegins]

/-! ### The bytes of the commit record -/

/-- From `s` to `t` no cc is counted, the JTAG port, the registers in force and the bytes of SRAM stay, and so does every
byte of HBM but those `p` names. -/
def WritesBytes (p : Nat → Prop) (s t : State) : Prop :=
  t.now = s.now ∧ t.ccnt = s.ccnt ∧ t.jtag = s.jtag ∧ t.regsF = s.regsF ∧ t.mem.sram = s.mem.sram ∧
    ∀ k, ¬ p k → mget zeroByte t.mem.hbm k = mget zeroByte s.mem.hbm k

theorem WritesBytes.trans {p : Nat → Prop} {s t u : State} (h : WritesBytes p s t) (h' : WritesBytes p t u) :
    WritesBytes p s u := by
  obtain ⟨hnow, hccnt, hjtag, hregsF, hsram, hhbm⟩ := h
  obtain ⟨hnow', hccnt', hjtag', hregsF', hsram', hhbm'⟩ := h'
  exact ⟨hnow'.trans hnow, hccnt'.trans hccnt, hjtag'.trans hjtag, hregsF'.trans hregsF, hsram'.trans hsram,
    fun k hk => (hhbm' k hk).trans (hhbm k hk)⟩

theorem Quiet.writesBytes {p : Nat → Prop} {s t : State} (h : Quiet s t) : WritesBytes p s t := by
  obtain ⟨-, hnow, hccnt, hjtag, hregsF, hhbm, hsram⟩ := h
  exact ⟨hnow, hccnt, hjtag, hregsF, hsram, fun k _ => by rw [hhbm]⟩

theorem writesBytes_of_writesHbm {p l : Nat → Prop} {s t : State} (h : WritesHbm l s t) (hl : ∀ k, l (k / 64) → p k) :
    WritesBytes p s t := by
  obtain ⟨m, hr, hsram, -, hm⟩ := h
  obtain ⟨⟨-, hnow, hccnt, hjtag, hregsF, hhbm, hsram'⟩, -⟩ := hr.quiet
  exact ⟨hnow, hccnt, hjtag, hregsF, hsram'.trans hsram, fun k hk => by rw [hhbm]; exact hm k fun hk' => hk (hl k hk')⟩

/-- The bytes of a twin ring. -/
def InRing (s : State) (reg k : Nat) : Prop := ringBase s reg ≤ k ∧ k < ringBase s reg + ringBytes s reg

theorem ring_of_regsF {s t : State} (h : t.regsF = s.regsF) (reg : Nat) :
    ringBase t reg = ringBase s reg ∧ ringBytes t reg = ringBytes s reg := by
  simp [ringBase, ringBytes, State.regF', h]

/-- A write within a ring stays within it: a ring begins and ends where a line does. -/
theorem writePhys_writesRing (s : State) {reg o : Nat} {new : List (Option Byte)} (a : Agent) (poison : Bool)
    (h : o + new.length ≤ ringBytes s reg) :
    WritesBytes (InRing s reg) s (writePhys s a (ringBase s reg + o) new poison) := by
  refine writesBytes_of_writesHbm (writePhys_writes ..) fun k hk => ?_
  unfold InRing ringBase ringBytes at *
  omega

theorem WritesBytes.ring {p : Nat → Prop} {s t : State} (h : WritesBytes p s t) (reg : Nat) :
    InRing t reg = InRing s reg ∧ ringBytes t reg = ringBytes s reg := by
  obtain ⟨-, -, -, hregsF, -⟩ := h
  obtain ⟨hbase, hbytes⟩ := ring_of_regsF hregsF reg
  exact ⟨by funext k; simp [InRing, hbase, hbytes], hbytes⟩

theorem writePhys_writesBytes (s : State) (a : Agent) (pa : Nat) (new : List (Option Byte)) (poison : Bool) :
    WritesBytes (fun _ => True) s (writePhys s a pa new poison) :=
  writesBytes_of_writesHbm (writePhys_writes ..) fun _ _ => trivial

theorem ringPut_writesBytes (s : State) (reg off : Nat) (bs : List Byte) :
    WritesBytes (fun _ => True) s (ringPut s reg off bs) := by
  unfold ringPut
  extract_lets n o u
  have hu : WritesBytes (fun _ => True) s u := writePhys_writesBytes ..
  clear_value u
  split
  · exact hu
  · exact hu.trans (writePhys_writesBytes ..)

/-- R324: what is put into a ring, no longer than it, changes its bytes alone. -/
theorem ringPut_writesRing (s : State) {reg : Nat} (off : Nat) {bs : List Byte} (hn : 0 < ringBytes s reg)
    (hbs : bs.length ≤ ringBytes s reg) : WritesBytes (InRing s reg) s (ringPut s reg off bs) := by
  unfold ringPut
  extract_lets n o u
  have ho : o < n := Nat.mod_lt _ hn
  have hu : WritesBytes (InRing s reg) s u := writePhys_writesRing s twinAgent false (by simp; omega)
  clear_value u
  split
  · exact hu
  · obtain ⟨hring, hbytes⟩ := hu.ring reg
    have h := writePhys_writesRing u (reg := reg) (o := 0) (new := (bs.drop (n - o)).map some) twinAgent false
      (by simp; omega)
    rw [hring, Nat.add_zero] at h
    exact hu.trans h

theorem leBytes_length (k : Nat) : ∀ n, (leBytes k n).length = k := by
  induction k with
  | zero => intro n; rfl
  | succ k ih => intro n; simp [leBytes, ih]

theorem jrecBytes_commit_length {r : JRec} (h : r.commit = true) : (jrecBytes r).length = 16 := by
  simp [jrecBytes, jrecHead, h, leBytes_length]

theorem ringBytes_line (s : State) {reg : Nat} (hn : 0 < ringBytes s reg) : 64 ≤ ringBytes s reg := by
  unfold ringBytes at *
  omega

theorem txAppend_writes {p : Nat → Prop} {s : State} {r : JRec}
    (h : WritesBytes p s (ringPut s 0x0420 s.twn.txWr (jrecBytes r))) : WritesBytes p s (txAppend s r) := by
  unfold txAppend
  extract_lets u w
  have hu : WritesBytes p s u := h
  clear_value u
  exact hu.trans (Quiet.writesBytes (by simp))

theorem quiet_twn_modPort (s : State) (w : TwnSt) (f : PortSt → PortSt) : Quiet s ({ s with twn := w }.modPort 8 f) := by
  simp

/-- R327: of what a cc writes the bytes are the commit record's, in the TX ring. -/
theorem formCommit_writes {p : Nat → Prop} {s : State}
    (h : ∀ u r, WritesBytes p s u → r.commit = true → WritesBytes p u (ringPut u 0x0420 u.twn.txWr (jrecBytes r))) :
    WritesBytes p s (formCommit s) := by
  unfold formCommit
  extract_lets +onlyGivenNames e u
  have hu : WritesBytes p s u := Quiet.writesBytes (by simp [u])
  clear_value u
  split
  · extract_lets txn r v w
    have hv : WritesBytes p u v := txAppend_writes (h u r hu rfl)
    clear_value v
    exact hu.trans (hv.trans (Quiet.writesBytes (quiet_twn_modPort v _ _)))
  · exact hu

theorem formCommit_hbm {s : State} (h : journals s = false) : (formCommit s).mem.hbm = s.mem.hbm := by
  have h' : journals { s with epc := { s.epc with formed := true, unacked := false } } = false := h
  simp [formCommit, h']

theorem commitFollow_writes {p : Nat → Prop} {s : State}
    (h : ∀ u r, WritesBytes p s u → r.commit = true → WritesBytes p u (ringPut u 0x0420 u.twn.txWr (jrecBytes r))) :
    WritesBytes p s (commitFollow s) := by
  unfold commitFollow
  split
  · exact formCommit_writes h
  · exact Quiet.writesBytes (by simp)

theorem commitFollow_writesBytes (s : State) : WritesBytes (fun _ => True) s (commitFollow s) :=
  commitFollow_writes fun u r _ _ => ringPut_writesBytes u 0x0420 u.twn.txWr (jrecBytes r)

theorem commitFollow_writesRing (s : State) (hn : 0 < ringBytes s 0x0420) :
    WritesBytes (InRing s 0x0420) s (commitFollow s) := by
  refine commitFollow_writes fun u r hu hr => ?_
  obtain ⟨hring, hbytes⟩ := hu.ring 0x0420
  rw [← hring]
  rw [← hbytes] at hn
  refine ringPut_writesRing u _ hn ?_
  rw [jrecBytes_commit_length hr]
  have := ringBytes_line u hn
  omega

theorem commitFollow_hbm {s : State} (h : journals s = false) : (commitFollow s).mem.hbm = s.mem.hbm := by
  unfold commitFollow
  split
  · exact formCommit_hbm h
  · rfl

/-! ### One cc -/

theorem ccCommits_counts (s : State) : (ccCommits s).now = s.now + 1 ∧
    (ccCommits s).ccnt = if s.power.pllLock then (s.ccnt + 1) % 2 ^ 64 else s.ccnt := by
  unfold ccCommits
  obtain ⟨⟨-, hnow, hccnt, -⟩, -⟩ := ccEnds_quiet s
  obtain ⟨hnow', hccnt'⟩ := ccBegins_counts (ccEnds s)
  obtain ⟨-, hnow₂, hccnt₂, -⟩ := ccWindow_quiet (ccBegins (ccEnds s))
  obtain ⟨⟨-, hnow₃, hccnt₃, -⟩, -⟩ := ccFollows_quiet (ccWindow (ccBegins (ccEnds s)))
  rw [hnow, ← hnow₂, ← hnow₃] at hnow'
  rw [hccnt, ccEnds_power, ← hccnt₂, ← hccnt₃] at hccnt'
  exact ⟨hnow', hccnt'⟩

theorem ccCommits_keeps (s : State) : (ccCommits s).jtag = s.jtag ∧ (ccCommits s).regsF = s.regsF ∧
    (ccCommits s).mem.hbm = s.mem.hbm ∧ (ccCommits s).mem.sram = s.mem.sram := by
  unfold ccCommits
  obtain ⟨⟨-, -, -, hj₁, hr₁, hh₁, hs₁⟩, -⟩ := ccEnds_quiet s
  obtain ⟨hj₂, hr₂, hh₂, hs₂, -⟩ := ccBegins_keeps (ccEnds s)
  obtain ⟨-, -, -, hj₃, hr₃, hh₃, hs₃⟩ := ccWindow_quiet (ccBegins (ccEnds s))
  obtain ⟨⟨-, -, -, hj₄, hr₄, hh₄, hs₄⟩, -⟩ := ccFollows_quiet (ccWindow (ccBegins (ccEnds s)))
  exact ⟨hj₄.trans (hj₃.trans (hj₂.trans hj₁)), hr₄.trans (hr₃.trans (hr₂.trans hr₁)),
    hh₄.trans (hh₃.trans (hh₂.trans hh₁)), hs₄.trans (hs₃.trans (hs₂.trans hs₁))⟩

theorem ccCommits_journalsOnlyAs (s : State) : JournalsOnlyAs s (ccCommits s) :=
  ((journalsOnlyAs_of_twn (ccEnds_quiet s).2).trans (journalsOnlyAs_of_twn (ccBegins_keeps _).2.2.2.2)).trans
    ((ccWindow_journalsOnlyAs _).trans (journalsOnlyAs_of_twn (ccFollows_quiet _).2))

/-- The commit record is the last of a cc that counts or writes. -/
theorem tick_quiet (s : State) : Quiet (commitFollow (ccCommits s)) (tick s) := by
  rw [tick_eq]
  exact (ccSettles_quiet _).1

theorem tick_counts (s : State) : (tick s).now = s.now + 1 ∧
    (tick s).ccnt = if s.power.pllLock then (s.ccnt + 1) % 2 ^ 64 else s.ccnt := by
  obtain ⟨-, hnow, hccnt, -⟩ := tick_quiet s
  obtain ⟨hnow', hccnt', -⟩ := commitFollow_writesBytes (ccCommits s)
  rw [hnow, hccnt, hnow', hccnt']
  exact ccCommits_counts s

theorem tick_keeps (s : State) : (tick s).mem.sram = s.mem.sram ∧ (tick s).jtag = s.jtag := by
  obtain ⟨-, -, -, hjtag, -, -, hsram⟩ := tick_quiet s
  obtain ⟨-, -, hjtag', -, hsram', -⟩ := commitFollow_writesBytes (ccCommits s)
  obtain ⟨hjtag₀, -, -, hsram₀⟩ := ccCommits_keeps s
  exact ⟨hsram.trans (hsram'.trans hsram₀), hjtag.trans (hjtag'.trans hjtag₀)⟩

/-- A cc of a pair that does not journal writes no byte of HBM: nothing in it pairs the pair before the commit record is due. -/
theorem tick_hbm {s : State} (h : journals s = false) : (tick s).mem.hbm = s.mem.hbm := by
  obtain ⟨-, -, -, -, -, hhbm, -⟩ := tick_quiet s
  obtain ⟨-, -, hhbm₀, -⟩ := ccCommits_keeps s
  have hj : journals (ccCommits s) = false := by
    refine Bool.eq_false_iff.2 fun hj => ?_
    rw [ccCommits_journalsOnlyAs s hj] at h
    contradiction
  exact hhbm.trans ((commitFollow_hbm hj).trans hhbm₀)

/-- A cc of a pair that journals writes within the TX ring (R327). -/
theorem tick_hbm_outside {s : State} (hn : 0 < ringBytes s 0x0420) {k : Nat} (hk : ¬ InRing s 0x0420 k) :
    mget zeroByte (tick s).mem.hbm k = mget zeroByte s.mem.hbm k := by
  obtain ⟨-, -, -, -, -, hhbm, -⟩ := tick_quiet s
  obtain ⟨-, hregsF₀, hhbm₀, -⟩ := ccCommits_keeps s
  obtain ⟨hbase, hbytes⟩ := ring_of_regsF hregsF₀ 0x0420
  obtain ⟨-, -, -, -, -, hk'⟩ := commitFollow_writesRing (ccCommits s) (hn.trans_eq hbytes.symm)
  rw [hhbm, hk' k (by rwa [InRing, hbase, hbytes]), hhbm₀]

/-! ### One step -/

@[simp] theorem execTodRollover_keepsQueue (s : State) : KeepsQueue s.pending (execTodRollover s) := by
  simp [execTodRollover]

/-- No command adds to the queue that waits behind it or reorders it (log entry 2): each operation by its own lemma, the ones
that are one line of a family (named here) by the family's. -/
theorem exec_keepsQueue (i : Instr) (s : State) : KeepsQueue s.pending (exec i s) := by
  unfold exec
  split
  all_goals simp [execSrLoad, execSrStore, execAdd, execSub, execMul, execDiv, execMax, execMin, execFma, execOpAnd, execOpOr,
    execOpXor, execShl, execShr, execPadd, execPmul, execSelect, execClamp, execAbs, execNeg, execOpNot, execRelu, execLrelu, execFloor,
    execCeil, execRint, execSign, execExp, execExp2, execLog, execLog2, execRecip, execRsqrt, execSqrt, execTanh, execSigmoid, execGelu,
    execSilu, execErf, execSin, execCos, execSoftplus, execCmp, execRsum, execRcsum, execRmax, execRmin, execRargmax, execRargmin,
    execRlse, execRsumsq, execRcount, execScansum, execScanmax, execCompact, execTopk, execLnorm, execRmsnorm, execSoftmax, execGnorm,
    execConvert, execQuantMx, execFinish, execFill, execIota, execCopy, execPermute, execGather, execScatter, execEvEmit, execEvCount,
    execCblAdd, execCblSub, execCblAnd, execCblOr, execCblXor, execCblSll, execCblSrl, execCblSra, execCblSlt, execCblSltu, execCblMin,
    execCblMax, execCblMul, execCblMulh, execCblDiv, execCblDivu, execCblRem, execCblRemu, execCblAddi, execCblAndi, execCblOri,
    execCblXori, execCblSlli, execCblSrli, execCblSrai, execCblSlti, execCblLb, execCblLbu, execCblLh, execCblLhu, execCblLw, execCblSb,
    execCblSh, execCblSw, execCblCget, execCblCput, execCblLwh, execCblSwh, execCblHget, execCblHput, execCblBeq, execCblBne,
    execCblBlt, execCblBge, execCblBltu, execCblBgeu, execCblTsetAdd, execCblTsetWrite]

/-- A step takes the first command, and only that, off the queue. -/
theorem pending_of_step_next {s t : State} (h : step s = .next t) : t.pending = s.pending.tail := by
  unfold step at h
  split at h
  next hp =>
    obtain rfl := Host.Outcome.next.inj h
    rw [tick_pending, hp, List.tail_nil]
  next c cs hp =>
    rw [hp]
    exact exec_keepsQueue c { s with pending := cs } t h

/-- Settles O60: no operation writes the queue, a step takes its first command off it, and of the parts of a cc the beginning
alone counts and the commit record alone writes bytes. -/
theorem stepsTakeCommandsAndCycles : Obligations.StepsTakeCommandsAndCycles := by
  unfold Obligations.StepsTakeCommandsAndCycles
  refine ⟨fun s t h => ?_, fun s hs => ?_⟩
  · have ht := pending_of_step_next h
    refine ⟨ht, fun hok => ?_⟩
    rw [queueOk, ht, List.all_eq_true]
    exact fun i hi => List.all_eq_true.1 hok i (List.mem_of_mem_tail hi)
  · obtain ⟨hnow, hccnt⟩ := tick_counts s
    obtain ⟨hsram, hjtag⟩ := tick_keeps s
    refine ⟨tick s, by simp [step, hs], hnow, hccnt, hsram, hjtag, tick_hbm, fun hn k hk => tick_hbm_outside hn ?_⟩
    unfold InRing
    omega

end Sys2Proof.Machine
end

section
/-! PROOFS. What work may change that stores nothing: reports, answers, abandonment, events, links. -/

namespace Sys2Proof.Machine

/-- Between `s` and `t` only registers, table words as written, fault and trace records, tenants, queues, Cobblers, VCs, ports,
unit states, free values and what is noted of the message and the cc under way have changed: the epoch state machine, the count
of cc, memory, tacks and their updates on the way, tables in force, stream channels, the pair and the clocks are as before. -/
def WorkFrame (s t : State) : Prop :=
  t = { s with regs := t.regs, tab := t.tab, flt := t.flt, trc := t.trc, tens := t.tens, queues := t.queues, cbls := t.cbls
               vcs := t.vcs, ports := t.ports, units := t.units, once := t.once, freeCtr := t.freeCtr, cc := t.cc }

namespace WorkFrame

theorem refl (s : State) : WorkFrame s s := rfl

theorem trans {s t u : State} (h : WorkFrame s t) (k : WorkFrame t u) : WorkFrame s u := by
  unfold WorkFrame at h k
  rw [h] at k
  exact k

theorem ite {s t u : State} {c : Prop} [Decidable c] (ht : WorkFrame s t) (hu : WorkFrame s u) :
    WorkFrame s (if c then t else u) := by
  split <;> assumption

/-- What every step of a fold keeps, its end keeps. -/
theorem foldl {α : Type} {f : State → α → State} (hf : ∀ s x, WorkFrame s (f s x)) :
    ∀ (l : List α) (s : State), WorkFrame s (l.foldl f s)
  | [], s => refl s
  | x :: l, s => (hf s x).trans (foldl hf l (f s x))

theorem epc {s t : State} (h : WorkFrame s t) : t.epc = s.epc := by rw [h]
theorem now {s t : State} (h : WorkFrame s t) : t.now = s.now := by rw [h]
theorem mem {s t : State} (h : WorkFrame s t) : t.mem = s.mem := by rw [h]
theorem tacks {s t : State} (h : WorkFrame s t) : t.tacks = s.tacks := by rw [h]
theorem tackUpd {s t : State} (h : WorkFrame s t) : t.tackUpd = s.tackUpd := by rw [h]

end WorkFrame

/-! ### Single updates -/

theorem setReg_workFrame (s : State) (k v : Nat) : WorkFrame s (s.setReg k v) := rfl
theorem bump_workFrame (s : State) (k n : Nat) : WorkFrame s (s.bump k n) := rfl
theorem setBit_workFrame (s : State) (k i : Nat) : WorkFrame s (s.setBit k i) := rfl
theorem setTw_workFrame (s : State) (sel i w v : Nat) : WorkFrame s (s.setTw sel i w v) := rfl
theorem tick1_workFrame (s : State) : WorkFrame s s.tick1 := rfl
theorem once_workFrame (s : State) (o : List Nat) : WorkFrame s { s with once := o } := rfl
theorem modTen_workFrame (s : State) (t : Nat) (f : TenSt → TenSt) : WorkFrame s (s.modTen t f) := rfl
theorem modQ_workFrame (s : State) (q : Nat) (f : QueueSt → QueueSt) : WorkFrame s (s.modQ q f) := rfl
theorem setCbl_workFrame (s : State) (k : Nat) (c : CblSt) : WorkFrame s (s.setCbl k c) := rfl
theorem modVc_workFrame (s : State) (v : Nat) (f : VcSt → VcSt) : WorkFrame s (s.modVc v f) := rfl
theorem setPort_workFrame (s : State) (p : Nat) (x : PortSt) : WorkFrame s (s.setPort p x) := rfl
theorem modPort_workFrame (s : State) (p : Nat) (f : PortSt → PortSt) : WorkFrame s (s.modPort p f) := rfl
theorem modUnit_workFrame (s : State) (u : Nat) (f : UnitSt → UnitSt) : WorkFrame s (s.modUnit u f) := rfl
theorem modFlight_workFrame (s : State) (q n : Nat) (f : Flight → Flight) : WorkFrame s (s.modFlight q n f) := rfl
theorem chainFault_workFrame (s : State) (q c : Nat) : WorkFrame s (chainFault s q c) := rfl

/-! ### Reports -/

/-- Between `s` and `t` only trace records, their drop count and event, and what is noted of the cc have changed. -/
def TraceFrame (s t : State) : Prop := t = { s with trc := t.trc, regs := t.regs, cc := t.cc }

theorem TraceFrame.trans {s t u : State} (h : TraceFrame s t) (k : TraceFrame t u) : TraceFrame s u := by
  unfold TraceFrame at h k
  rw [h] at k
  exact k

theorem TraceFrame.workFrame {s t : State} (h : TraceFrame s t) : WorkFrame s t := by
  unfold TraceFrame at h
  rw [h]
  rfl

theorem traceHold_traceFrame (s : State) (r : Nat × Nat) : TraceFrame s (traceHold s r) := rfl
theorem bump_traceFrame (s : State) (k n : Nat) : TraceFrame s (s.bump k n) := rfl
theorem setBit_traceFrame (s : State) (k i : Nat) : TraceFrame s (s.setBit k i) := rfl

/-- R404 to R407: a trace record. -/
theorem traceAdd_traceFrame (s : State) (tag kind t q d : Nat) : TraceFrame s (traceAdd s tag kind t q d) := by
  unfold traceAdd
  split
  · rfl
  · extract_lets u
    have hu : TraceFrame s u := traceHold_traceFrame s _
    clear_value u
    split
    · exact hu
    · exact hu.trans ((bump_traceFrame u _ _).trans (setBit_traceFrame _ _ _))

theorem traceAdd_workFrame (s : State) (tag kind t q d : Nat) : WorkFrame s (traceAdd s tag kind t q d) :=
  (traceAdd_traceFrame s tag kind t q d).workFrame

theorem traceTen_workFrame (s : State) (tag kind t q d : Nat) : WorkFrame s (traceTen s tag kind t q d) :=
  .ite (traceAdd_workFrame s tag kind t q d) (.refl s)

/-- R395: a fault record. -/
theorem recordFault_workFrame (s : State) (r : FaultRec) : WorkFrame s (recordFault s r) := by
  unfold recordFault
  extract_lets r1 flt s1
  have h1 : WorkFrame s s1 := rfl
  exact .ite (h1.trans ((modTen_workFrame s1 _ _).trans (traceTen_workFrame _ _ _ _ _ _))) h1

theorem flightOnce_workFrame (s : State) (q n code u l d : Nat) : WorkFrame s (flightOnce s q n code u l d) := by
  unfold flightOnce flightFault
  split
  · exact .refl s
  · refine .ite (.refl s) ?_
    exact (recordFault_workFrame s _).trans ((modFlight_workFrame _ q n _).trans (chainFault_workFrame _ _ _))

theorem setObs_workFrame (s : State) (u o c : Nat) : WorkFrame s (setObs s u o c) := .ite (.refl s) (modUnit_workFrame s u _)

theorem portObs_workFrame (s : State) (p : Nat) : WorkFrame s (portObs s p) := by
  unfold portObs
  exact .ite (.refl s) (setObs_workFrame s _ _ _)

theorem evDrop_workFrame (s : State) (cause n : Nat) : WorkFrame s (evDrop s cause n) := .ite (.refl s) (bump_workFrame s _ n)

/-! ### Messages and ports -/

theorem takeRx_workFrame (s : State) (p v : Nat) (m : Msg) : WorkFrame s (takeRx s p v m) := by
  unfold takeRx
  extract_lets x
  split
  · exact .ite (setPort_workFrame s p _) (.refl s)
  · exact .refl s

theorem pushRsp_workFrame (s : State) (p : Nat) (m : Msg) (heads units : Nat) : WorkFrame s (pushRsp s p m heads units) := by
  unfold pushRsp pushMsg
  exact .ite (modPort_workFrame s p _) (modPort_workFrame s p _)

theorem reject_workFrame (s : State) (p : Nat) (m : Msg) (r : ReqShape) (status : Nat) : WorkFrame s (reject s p m r status) :=
  .ite (pushRsp_workFrame s p _ _ _) (.refl s)

theorem reqDone_workFrame (s : State) (p : Nat) (r : Req) (ok : Bool) (st f : Nat) (ls : List RemoteLine) :
    WorkFrame s (reqDone s p r ok st f ls) := by
  unfold reqDone
  extract_lets s1
  have h1 : WorkFrame s s1 := modPort_workFrame s p _
  split
  · rename_i q n _
    have h2 := h1.trans (modFlight_workFrame s1 q n fun f => { f with remote := f.remote - 1, lines := if r.write then f.lines else f.lines ++ ls })
    exact .ite h2 (h2.trans (flightOnce_workFrame _ _ _ _ _ _ _))
  · exact h1

/-- R290: a Welt port enters QUARANTINED. -/
theorem portTo_quarantined_workFrame (s : State) {p : Nat} (hp : p < 8) : WorkFrame s (portTo s p .quarantined) := by
  unfold portTo
  extract_lets old leaves s1 s2 s3 s4 s5 w sAlign k n f sHello clear s6 s7
  have h1 : WorkFrame s s1 := .ite (.foldl (fun u r => reqDone_workFrame u p r false 0x09 0 _) _ s) (.refl s)
  have h2 : WorkFrame s s2 := .ite (h1.trans (evDrop_workFrame s1 7 _)) h1
  have h3 : WorkFrame s s3 := .ite (h2.trans (modPort_workFrame s2 p _)) h2
  have h4 : WorkFrame s s4 := .ite (h3.trans (setBit_workFrame s3 _ _)) h3
  have h5 : WorkFrame s s5 := h4.trans (modPort_workFrame s4 p _)
  clear_value s5
  have h6 : WorkFrame s s6 := h5.trans (modPort_workFrame s5 p _)
  have h7 : WorkFrame s s7 := h6.trans (portObs_workFrame s6 p)
  rw [if_neg (show p ≠ 8 by omega)]
  exact .ite (.refl s) h7

/-- R289, R290: strikes of a Welt port, and the quarantine they may lead to. -/
theorem addStrikes_workFrame (s : State) {p : Nat} (n : Nat) (hp : p < 8) : WorkFrame s (addStrikes s p n) := by
  unfold addStrikes
  extract_lets s1 qth
  have h1 : WorkFrame s s1 := modPort_workFrame s p _
  refine .ite (.refl s) (.ite ?_ h1)
  exact h1.trans ((portTo_quarantined_workFrame s1 hp).trans (recordFault_workFrame _ _))

/-- R287: a refusal on a Welt port is counted and struck. -/
theorem refusal_workFrame (s : State) {p : Nat} (hp : p < 8) : WorkFrame s (refusal s p) := by
  unfold refusal
  extract_lets n
  exact .trans (.ite (setTw_workFrame s 9 p 7 _) (.refl s)) (addStrikes_workFrame _ 1 hp)

/-! ### Answers of chains, and abandonment -/

theorem retireAnswer_workFrame (s : State) (q : Nat) (c : Chain) (status tag : Nat) :
    WorkFrame s (retireAnswer s q c status tag) := by
  unfold retireAnswer submitRsp
  refine .ite ?_ (.refl s)
  split
  · exact .refl s
  · exact .ite (.refl s) (pushRsp_workFrame s _ _ _ _)

theorem answerHead_workFrame (s : State) (q : Nat) (c : Chain) : WorkFrame s (answerHead s q c) := by
  unfold answerHead
  split
  · exact retireAnswer_workFrame s q c _ _
  · exact (tick1_workFrame s).trans (retireAnswer_workFrame _ q c _ _)

/-- R55: the heads a queue will not start are answered. -/
theorem answerFifo_workFrame (s : State) (q : Nat) : WorkFrame s (answerFifo s q) := by
  unfold answerFifo
  exact .trans (.foldl (fun u c => answerHead_workFrame u q c) _ s) (modQ_workFrame _ q _)

theorem abandonQueue_workFrame (s : State) (q : Nat) : WorkFrame s (abandonQueue s q) := by
  unfold abandonQueue
  extract_lets x tag s1 s2
  have h1 : WorkFrame s s1 := by
    unfold s1
    split
    · exact .refl s
    · exact retireAnswer_workFrame s q _ _ _
  have h2 : WorkFrame s s2 := h1.trans (.foldl (fun u c => retireAnswer_workFrame u q c _ _) _ s1)
  exact h2.trans ((answerFifo_workFrame s2 q).trans (modQ_workFrame _ q _))

theorem cblEnd_workFrame (s : State) (k : Nat) : WorkFrame s (cblEnd s k) := by
  unfold cblEnd
  extract_lets c s1
  have h1 : WorkFrame s s1 := setCbl_workFrame s k _
  exact .ite (.refl s) (.ite (h1.trans (modFlight_workFrame s1 _ _ _)) h1)

theorem cblRecord_workFrame (s : State) (k code level detail : Nat) : WorkFrame s (cblRecord s k code level detail) := by
  unfold cblRecord
  extract_lets c s1
  have h1 : WorkFrame s s1 := recordFault_workFrame s _
  split
  · exact h1
  · exact h1.trans ((modFlight_workFrame s1 _ _ _).trans (chainFault_workFrame _ _ _))

/-- R219 to R221: the due events of a VC dropped. -/
theorem dropDue_workFrame (s : State) (v cause : Nat) : WorkFrame s (dropDue s v cause) := by
  unfold dropDue dueLeaves clearDue setSlot
  refine .ite (.refl s) ?_
  exact .trans ((modVc_workFrame s v _).trans (modVc_workFrame _ v _)) ((evDrop_workFrame _ _ _).trans (modVc_workFrame _ v _))

theorem evAbandon_workFrame (s : State) (t : Nat) : WorkFrame s (evAbandon s t) :=
  .foldl (fun u v => .ite (dropDue_workFrame u v 3) (.refl u)) _ s

/-- R32, R221: a tenant's work is abandoned. -/
theorem abandonTenant_workFrame (s : State) (t : Nat) : WorkFrame s (abandonTenant s t) := by
  unfold abandonTenant
  extract_lets s1 s2 s3
  have h2 : WorkFrame s s2 := (modTen_workFrame s t _).trans (.foldl abandonQueue_workFrame _ s1)
  have h3 : WorkFrame s s3 := h2.trans (.foldl cblEnd_workFrame _ s2)
  exact h3.trans (evAbandon_workFrame s3 t)

/-- R33: the EPOCH_DEADLINE records of a tenant. -/
theorem deadlineRecords_workFrame (s : State) (t level : Nat) : WorkFrame s (deadlineRecords s t level) := by
  unfold deadlineRecords
  extract_lets s1
  have h1 : WorkFrame s s1 := .foldl (fun u q =>
    (recordFault_workFrame u _).trans (.foldl (fun x i => chainFault_workFrame x q i) _ _)) _ s
  exact h1.trans (.foldl (fun u k => cblRecord_workFrame u k _ _ _) _ s1)

/-! ### Events -/

/-- Between `s` and `t` only VCs and registers have changed: what remote events do. -/
def EventFrame (s t : State) : Prop := t = { s with vcs := t.vcs, regs := t.regs, cc := t.cc }

namespace EventFrame

theorem refl (s : State) : EventFrame s s := rfl

theorem workFrame {s t : State} (h : EventFrame s t) : WorkFrame s t := by
  unfold EventFrame at h
  rw [h]
  rfl

theorem trans {s t u : State} (h : EventFrame s t) (k : EventFrame t u) : EventFrame s u := by
  unfold EventFrame at h k
  rw [h] at k
  exact k

theorem ite {s t u : State} {c : Prop} [Decidable c] (ht : EventFrame s t) (hu : EventFrame s u) :
    EventFrame s (if c then t else u) := by
  split <;> assumption

theorem foldl {α : Type} {f : State → α → State} (hf : ∀ u a, EventFrame u (f u a)) (l : List α) :
    ∀ s, EventFrame s (l.foldl f s) := by
  induction l with
  | nil => exact fun s => .refl s
  | cons a l ih => exact fun s => (hf s a).trans (ih _)

end EventFrame

theorem modVc_eventFrame (s : State) (v : Nat) (f : VcSt → VcSt) : EventFrame s (s.modVc v f) := rfl

theorem evDrop_eventFrame (s : State) (cause n : Nat) : EventFrame s (evDrop s cause n) := .ite (.refl s) rfl

/-- R217: an event of tenant `t`, `ahead` epochs from its step `d`, comes to VC `v`. -/
def remoteStep (t d ahead ev : Nat) (s : State) (v : Nat) : State :=
  if !(evEnabled s t v && evRemote s v) then s
  else if !hubOn s || !s.isOn v then evDrop s 8 1
  else if ahead = 0 then
    if delivOver s v then evDrop s 4 1
    else s.modVc v fun x => { x with extra := x.extra ++ [ev] }
  else if ahead ≤ 16 then fileEvent s v d ev
  else if ahead < 2 ^ 39 then evDrop s 5 1
  else evDrop s 4 1

/-- The epochs from the present one to step `d`, modulo the 2^40 - 1 epoch numbers (R21, R217). -/
def epochsAhead (s : State) (d : Nat) : Nat := if s.epc.count ≤ d then d - s.epc.count else (d + (2 ^ 40 - 1)) - s.epc.count

theorem remoteEvent_eq (s : State) (t d ev : Nat) :
    remoteEvent s t d ev = (List.range 64).foldl (remoteStep t d (epochsAhead s d) ev) s := rfl

theorem fileEvent_eventFrame (s : State) (v d ev : Nat) : EventFrame s (fileEvent s v d ev) :=
  .ite (modVc_eventFrame s v _) (evDrop_eventFrame s 0 1)

theorem remoteStep_eventFrame (t d ahead ev : Nat) (s : State) (v : Nat) : EventFrame s (remoteStep t d ahead ev s v) := by
  unfold remoteStep
  refine .ite (.refl s) (.ite (evDrop_eventFrame s 8 1) (.ite ?_ ?_))
  · exact .ite (evDrop_eventFrame s 4 1) (modVc_eventFrame s v _)
  · exact .ite (fileEvent_eventFrame s v d ev) (.ite (evDrop_eventFrame s 5 1) (evDrop_eventFrame s 4 1))

theorem remoteEvent_eventFrame (s : State) (t d ev : Nat) : EventFrame s (remoteEvent s t d ev) := by
  rw [remoteEvent_eq]
  exact .foldl (remoteStep_eventFrame t d _ ev) _ s

end Sys2Proof.Machine
end

section
/-! PROOFS. The boundary triggers and the deadline (R20, R23, R25, R26, R31, R37). -/

namespace Sys2Proof.Machine

theorem sat32_eq_min (n : Nat) : sat32 n = min n (2 ^ 32 - 1) := by
  unfold sat32
  split <;> omega

/-! ### What a trigger does in each epoch state -/

/-- The state in which trigger `b` has been seen in this cc. -/
def triggered (s : State) (b : Nat) : State := { s with epc := { s.epc with cause := 2 ^ b, causeCc := s.now } }

/-- R20: in IDLE with RUN at 1 a boundary starts at CLEAR. -/
theorem trigger_idle_run {s : State} (b : Nat) (hst : s.epc.state = .idle) (hrun : bit (s.reg 0x0200) 0 = true)
    (hclk : s.frozen = false) : (trigger s b).1 = startOpen (triggered s b) := by
  simp [trigger, triggered, hst, hrun, hclk]

/-- R23: in OPEN the close sequence starts. -/
theorem trigger_opened {s : State} (b : Nat) (hst : s.epc.state = .opened) :
    trigger s b = (startClose (triggered s b), false) := by
  simp [trigger, triggered, hst]

/-- R25: in IDLE with RUN at 0, and in a boundary begun in an earlier cc, a trigger is only counted. -/
theorem trigger_merged {s : State} (b : Nat) (h : s.epc.state = .idle ∧ bit (s.reg 0x0200) 0 = false ∨
    s.epc.state ≠ .idle ∧ s.epc.state ≠ .opened ∧ s.epc.since ≠ s.now) : (trigger s b).1 = s.bump 0x0220 1 := by
  obtain ⟨hst, hrun⟩ | ⟨hidle, hopen, hsince⟩ := h
  · simp [trigger, hst, hrun]
  · unfold trigger
    extract_lets merged again first join
    split
    · exact absurd ‹_› hidle
    · exact absurd ‹_› hopen
    · simp [hsince, merged]

/-- The epoch a close sequence started by trigger `b` leaves. -/
def closingEpoch (s : State) (b : Nat) : Epoch :=
  { startBoundary s.epc with cause := 2 ^ b, causeCc := s.now, closeAt := s.now, fromIdle := false, state := .drain, since := s.now }

/-- R28, R405: a close sequence changes the epoch, and the trace record it forms what that changes. -/
theorem startClose_triggered (s : State) (b : Nat) :
    TraceFrame { s with epc := closingEpoch s b } (startClose (triggered s b)) :=
  traceAdd_traceFrame { s with epc := closingEpoch s b } _ _ _ _ _

theorem startClose_triggered_epc (s : State) (b : Nat) : (startClose (triggered s b)).epc = closingEpoch s b :=
  (startClose_triggered s b).workFrame.epc

theorem setBit_reg (s : State) (k i j : Nat) : (s.setBit k i).reg j = if k = j then s.reg k ||| 2 ^ i else s.reg j :=
  State.setReg_reg s k j _

/-- Forming a trace record leaves every register but TRC_DROPPED and its event. -/
theorem traceAdd_reg (s : State) (tag kind t q d : Nat) {k : Nat} (h1 : k ≠ 0x0594) (h2 : k ≠ 0x0598) :
    (traceAdd s tag kind t q d).reg k = s.reg k := by
  unfold traceAdd
  split
  · rfl
  · extract_lets u
    have hu : u.reg k = s.reg k := rfl
    clear_value u
    split
    · exact hu
    · rw [setBit_reg, if_neg (Ne.symm h2), State.bump_reg, if_neg (Ne.symm h1), hu]

theorem startClose_reg (s : State) {k : Nat} (h1 : k ≠ 0x0594) (h2 : k ≠ 0x0598) : (startClose s).reg k = s.reg k := by
  unfold startClose
  extract_lets e u
  exact traceAdd_reg u _ _ _ _ _ h1 h2

/-! ### The MSP trigger -/

theorem not_frozen_of_mspOn {s : State} (h : s.mspOn = true) : s.frozen = false := by
  simp only [State.mspOn, Bool.and_eq_true, Bool.not_eq_true'] at h
  exact h.2

/-- EPC_CTRL.RUN as a boundary command writes it. -/
def runWord (run : Bool) : Nat := if run then 1 else 0

theorem bit_runWord (run : Bool) : bit (runWord run) 0 = run := by cases run <;> rfl

/-- R20: EPC_CTRL is written and the MSP trigger occurs. -/
theorem exec_epcCtrlBoundary_on {s : State} (run : Bool) (hon : s.mspOn = true) (hlive : s.live = true) :
    exec (.epcCtrlBoundary run) s = .next (trigger (s.setReg 0x0200 (runWord run)) 0).1 := by
  have hlive' : (s.setReg 0x0200 (runWord run)).live = true := hlive
  show execEpcCtrlBoundary run s = _
  rw [execEpcCtrlBoundary, if_neg (by simp [hon])]
  exact congrArg _ (if_pos hlive')

theorem mspTrigger_starts_or_counts (s : State) (run : Bool) (hon : s.mspOn = true) (hlive : s.live = true) (hcc : s.epc.since ≠ s.now) :
    ∃ t, exec (.epcCtrlBoundary run) s = .next t ∧ t.reg 0x0200 = (if run then 1 else 0) ∧
      (s.epc.state = .idle → run = true → t.epc.state = .clear ∧ t.epc.fromIdle = true ∧ t.epc.since = s.now ∧ t.epc.cause = 1) ∧
      (s.epc.state = .opened → t.epc.state = .drain ∧ t.epc.since = s.now ∧ t.epc.closeAt = s.now ∧ t.epc.cause = 1) ∧
      ((s.epc.state = .idle ∧ run = false ∨ s.epc.state ≠ .idle ∧ s.epc.state ≠ .opened) →
        t.epc = s.epc ∧ t.reg 0x0220 = min (s.reg 0x0220 + 1) (2 ^ 32 - 1) ∧ t = { s with regs := t.regs, cc := t.cc }) := by
  have hrun : (s.setReg 0x0200 (runWord run)).reg 0x0200 = runWord run := by rw [State.setReg_reg, if_pos rfl]
  refine ⟨_, exec_epcCtrlBoundary_on run hon hlive, ?_⟩
  by_cases hopen : s.epc.state = .opened
  · rw [trigger_opened (s := s.setReg 0x0200 (runWord run)) 0 hopen]
    refine ⟨(startClose_reg _ (by decide) (by decide)).trans hrun, fun h => by simp [hopen] at h, fun _ => ?_, fun h => by simp [hopen] at h⟩
    rw [startClose_triggered_epc]
    exact ⟨rfl, rfl, rfl, rfl⟩
  · by_cases hmerged : s.epc.state = .idle ∧ run = false ∨ s.epc.state ≠ .idle
    · have hm := trigger_merged (s := s.setReg 0x0200 (runWord run)) 0 (hmerged.imp
        (fun h => ⟨h.1, by rw [hrun, bit_runWord, h.2]⟩) fun h => ⟨h, hopen, hcc⟩)
      rw [hm]
      refine ⟨?_, fun h1 h2 => ?_, fun h => absurd h hopen, fun _ => ⟨rfl, ?_, rfl⟩⟩
      · rw [State.bump_reg, if_neg (by decide)]
        exact hrun
      · simp [h1, h2] at hmerged
      · rw [State.bump_reg, if_pos rfl, sat32_eq_min, State.setReg_reg, if_neg (by decide)]
    · obtain ⟨hidle, hr⟩ : s.epc.state = .idle ∧ run = true := by
        rw [not_or, not_and, Decidable.not_not] at hmerged
        exact ⟨hmerged.2, by simpa using hmerged.1 hmerged.2⟩
      rw [trigger_idle_run (s := s.setReg 0x0200 (runWord run)) 0 hidle (by rw [hrun, bit_runWord, hr]) (not_frozen_of_mspOn hon)]
      exact ⟨hrun, fun _ _ => ⟨rfl, rfl, rfl, rfl⟩, fun h => absurd h hopen, fun h => by simp [hidle, hr] at h⟩

/-! ### The period and the schedule -/

/-- R26: the period of the open elapses, with its trigger enabled. -/
theorem exec_periodExpiry_due {s : State} (hlive : s.live = true) (hhit : s.epc.periodHit = false) (hcount : s.epc.count ≠ 0)
    (hdue : s.epc.openAt + s.epc.period ≤ s.now) (hen : bit (s.reg 0x0218) 1 = true) :
    exec .periodExpiry s = .next (trigger { s with epc := { s.epc with periodHit := true } } 2).1 := by
  show execPeriodExpiry s = _
  rw [execPeriodExpiry, if_neg (by simp [hlive, hhit, hcount, hdue])]
  exact congrArg _ (if_pos hen)

/-- R37: TOD has reached the instant less its lead. -/
theorem exec_scheduleTrigger_due {s : State} (hlive : s.live = true) (hen : bit (s.reg 0x0218) 2 = true)
    (harmed : s.epc.armed = true) (hhit : s.epc.schedHit = false) (hdue : todReached s (instant s - s.reg 0x0234) = true) :
    exec .scheduleTrigger s =
      let t := (trigger { s with epc := { s.epc with schedHit := true } } 3).1
      .next (if t.epc.state = .idle then t else { t with epc := { t.epc with held := true } }) := by
  show execScheduleTrigger s = _
  rw [execScheduleTrigger, if_neg (by simp [hlive, hen, harmed, hhit, hdue])]

/-- A trace frame behind a change of the epoch is a frame of both. -/
theorem TraceFrame.withEpc {s t : State} {e : Epoch} (h : TraceFrame { s with epc := e } t) (e' : Epoch) :
    ({ t with epc := e' } : State) = { s with epc := e', trc := t.trc, regs := t.regs, cc := t.cc } := by
  unfold TraceFrame at h
  generalize t.trc = a, t.regs = b, t.cc = c at h
  rw [h]

theorem periodAndSchedule_close (s : State) (hlive : s.live = true) (hopen : s.epc.state = .opened) :
    (s.epc.periodHit = false → s.epc.count ≠ 0 → s.epc.openAt + s.epc.period ≤ s.now → bit (s.reg 0x0218) 1 = true →
      ∃ t, exec .periodExpiry s = .next t ∧ t.epc.state = .drain ∧ t.epc.cause = 2 ^ 2 ∧ t.epc.since = s.now ∧ t.epc.periodHit = true ∧
        t = { s with epc := t.epc, trc := t.trc, regs := t.regs, cc := t.cc }) ∧
    (bit (s.reg 0x0218) 2 = true → s.epc.armed = true → s.epc.schedHit = false → todReached s (instant s - s.reg 0x0234) = true →
      ∃ t, exec .scheduleTrigger s = .next t ∧ t.epc.state = .drain ∧ t.epc.cause = 2 ^ 3 ∧ t.epc.since = s.now ∧ t.epc.held = true ∧
        t.epc.schedHit = true ∧ t = { s with epc := t.epc, trc := t.trc, regs := t.regs, cc := t.cc }) := by
  refine ⟨fun hhit hcount hdue hen => ?_, fun hen harmed hhit hdue => ?_⟩
  · let p : State := { s with epc := { s.epc with periodHit := true } }
    have htr : trigger p 2 = _ := trigger_opened 2 hopen
    have hepc := startClose_triggered_epc p 2
    have hframe := startClose_triggered p 2
    refine ⟨_, exec_periodExpiry_due hlive hhit hcount hdue hen, ?_⟩
    rw [htr]
    clear htr
    generalize startClose (triggered p 2) = t at hepc hframe
    refine ⟨?_, ?_, ?_, ?_, hframe.withEpc t.epc⟩ <;> rw [hepc] <;> rfl
  · let p : State := { s with epc := { s.epc with schedHit := true } }
    have htr : trigger p 3 = _ := trigger_opened 3 hopen
    have hepc := startClose_triggered_epc p 3
    have hframe := startClose_triggered p 3
    refine ⟨_, exec_scheduleTrigger_due hlive hen harmed hhit hdue, ?_⟩
    rw [htr]
    clear htr
    generalize startClose (triggered p 3) = t at hepc hframe
    rw [if_neg (by rw [hepc]; exact fun h => nomatch h)]
    refine ⟨?_, ?_, ?_, rfl, ?_, hframe.withEpc _⟩ <;> rw [hepc] <;> rfl

/-! ### The deadline -/

/-- The epoch but for the tenants EPC_ABANDON names. -/
def sansAbandoned (e : Epoch) : Epoch := { e with abandoned := 0 }

/-- R31 to R33: abandonment at the deadline changes nothing of the epoch but the tenants it names. -/
theorem deadlineAbandon_epc (s : State) (level : Nat) : sansAbandoned (deadlineAbandon s level).epc = sansAbandoned s.epc := by
  unfold deadlineAbandon
  refine foldl_keeps_view (fun u : State => sansAbandoned u.epc) (fun u t => ?_) _ s
  dsimp only
  split
  · rfl
  · split
    · rw [(evAbandon_workFrame u t).epc]
    · have h := ((deadlineRecords_workFrame u t level).trans (abandonTenant_workFrame _ t)).epc
      generalize abandonTenant (deadlineRecords u t level) t = x at h
      exact (congrArg sansAbandoned h :)

theorem deadlinePasses_epc (s : State) (level : Nat) : sansAbandoned (deadlinePasses s level).epc = sansAbandoned s.epc := by
  unfold deadlinePasses
  extract_lets old u
  have hu : sansAbandoned u.epc = sansAbandoned s.epc := deadlineAbandon_epc s level
  clear_value u
  split
  · exact hu
  · rw [State.setBit_epc, hu]

/-- What the abandonment at the deadline leaves of the epoch, read field by field. -/
theorem deadlinePasses_fields (s : State) (level : Nat) :
    let e := (deadlinePasses s level).epc
    e.state = s.epc.state ∧ e.since = s.epc.since ∧ e.cause = s.epc.cause ∧ e.deadlineHit = s.epc.deadlineHit := by
  have h := deadlinePasses_epc s level
  generalize (deadlinePasses s level).epc = e at h
  exact ⟨(congrArg Epoch.state h :), (congrArg Epoch.since h :), (congrArg Epoch.cause h :), (congrArg Epoch.deadlineHit h :)⟩

/-- The state in which the deadline of the open has passed. -/
def pastDeadline (s : State) : State := { s with epc := { s.epc with deadlineHit := true } }

/-- R31: bit 5 added to EPC_CAUSE. -/
def deadlineCaused (s : State) : State := { s with epc := { s.epc with cause := s.epc.cause ||| 32 } }

/-- R31: the deadline of the open passes in OPEN. -/
theorem exec_deadlineExpiry_opened {s : State} (hlive : s.live = true) (hhit : s.epc.deadlineHit = false)
    (hdue : s.epc.openAt + s.epc.deadline ≤ s.now) (hopen : s.epc.state = .opened) :
    exec .deadlineExpiry s = .next (deadlinePasses (startClose (triggered (pastDeadline s) 5)) 4) := by
  show execDeadlineExpiry s = _
  unfold execDeadlineExpiry
  rw [if_neg (by simp [hlive, hhit, hdue])]
  extract_lets epc p
  have hp : p = pastDeadline s := rfl
  have hst : p.epc.state = .opened := hopen
  clear_value p
  rw [hst]
  dsimp only
  rw [trigger_opened 5 hst, hp]

/-- R31, R23: the deadline of the open passes in a DRAIN begun in an earlier cc. -/
theorem exec_deadlineExpiry_drain {s : State} (hlive : s.live = true) (hhit : s.epc.deadlineHit = false)
    (hdue : s.epc.openAt + s.epc.deadline ≤ s.now) (hst : s.epc.state = .drain) (hcc : s.epc.since ≠ s.now) :
    exec .deadlineExpiry s =
      if drained (pastDeadline s) then .next (pastDeadline s)
      else .next (deadlinePasses (deadlineCaused (pastDeadline s)) 3) := by
  show execDeadlineExpiry s = _
  unfold execDeadlineExpiry
  rw [if_neg (by simp [hlive, hhit, hdue])]
  extract_lets epc p
  have hp : p = pastDeadline s := rfl
  have hst' : p.epc.state = .drain := hst
  have hcc' : p.epc.since ≠ p.now := hcc
  clear_value p
  split
  · rename_i h
    exact absurd (h.symm.trans hst') nofun
  · rw [if_neg hcc', ← hp]
    split <;> rfl
  · rename_i _ h
    exact absurd hst' h

theorem deadline_closes_or_abandons (s : State) (hlive : s.live = true) (hhit : s.epc.deadlineHit = false)
    (hdue : s.epc.openAt + s.epc.deadline ≤ s.now) :
    (s.epc.state = .opened →
      ∃ t, exec .deadlineExpiry s = .next t ∧ t.epc.state = .drain ∧ t.epc.since = s.now ∧ bit t.epc.cause 5 = true ∧ t.epc.deadlineHit = true) ∧
    (s.epc.state = .drain → s.epc.since ≠ s.now → drained { s with epc := { s.epc with deadlineHit := true } } = false →
      ∃ t, exec .deadlineExpiry s = .next t ∧ t.epc.state = .drain ∧ t.epc.cause = s.epc.cause ||| 32 ∧ t.epc.deadlineHit = true) ∧
    (s.epc.state = .drain → s.epc.since ≠ s.now → drained { s with epc := { s.epc with deadlineHit := true } } = true →
      exec .deadlineExpiry s = .next { s with epc := { s.epc with deadlineHit := true } }) := by
  refine ⟨fun hopen => ?_, fun hst hcc hdr => ?_, fun hst hcc hdr => ?_⟩
  · refine ⟨_, exec_deadlineExpiry_opened hlive hhit hdue hopen, ?_⟩
    obtain ⟨hstate, hsince, hcause, hpassed⟩ := deadlinePasses_fields (startClose (triggered (pastDeadline s) 5)) 4
    rw [hstate, hsince, hcause, hpassed, startClose_triggered_epc]
    exact ⟨rfl, rfl, show bit (2 ^ 5) 5 = true by decide, rfl⟩
  · refine ⟨_, (exec_deadlineExpiry_drain hlive hhit hdue hst hcc).trans (if_neg (ne_true_of_eq_false hdr)), ?_⟩
    obtain ⟨hstate, -, hcause, hpassed⟩ := deadlinePasses_fields (deadlineCaused (pastDeadline s)) 3
    generalize deadlinePasses (deadlineCaused (pastDeadline s)) 3 = t at hstate hcause hpassed
    exact ⟨hstate.trans hst, hcause, hpassed⟩
  · exact (exec_deadlineExpiry_drain hlive hhit hdue hst hcc).trans (if_pos hdr)

/-- Settles O15: in OPEN every trigger is `startClose`; elsewhere it is a count, but for the MSP's from IDLE. -/
theorem boundaryTriggersAndDeadline : Obligations.BoundaryTriggersAndDeadline :=
  ⟨mspTrigger_starts_or_counts, periodAndSchedule_close, deadline_closes_or_abandons⟩

end Sys2Proof.Machine
end

section
/-! PROOFS. What a write through a tenant's windows may change. -/

namespace Sys2Proof.Machine

/-- Between `s` and `t` only what `WorkFrame` names, memory, the pair and the key table have changed, and of memory no byte of
CBUF or local memory: what a store to HBM and its journal records may change. -/
def WriteFrame (s t : State) : Prop :=
  t = { s with regs := t.regs, tab := t.tab, flt := t.flt, trc := t.trc, tens := t.tens, queues := t.queues, cbls := t.cbls
               vcs := t.vcs, ports := t.ports, units := t.units, once := t.once, freeCtr := t.freeCtr, cc := t.cc
               mem := t.mem, twn := t.twn, keys := t.keys } ∧ t.mem.sram = s.mem.sram

namespace WriteFrame

theorem refl (s : State) : WriteFrame s s := ⟨rfl, rfl⟩

theorem trans {s t u : State} (h : WriteFrame s t) (k : WriteFrame t u) : WriteFrame s u := by
  obtain ⟨h, hsram⟩ := h
  obtain ⟨k, ksram⟩ := k
  refine ⟨?_, ksram.trans hsram⟩
  rw [h] at k
  exact k

theorem ite {s t u : State} {c : Prop} [Decidable c] (ht : WriteFrame s t) (hu : WriteFrame s u) :
    WriteFrame s (if c then t else u) := by
  split <;> assumption

theorem foldl {α : Type} {f : State → α → State} (hf : ∀ s x, WriteFrame s (f s x)) :
    ∀ (l : List α) (s : State), WriteFrame s (l.foldl f s)
  | [], s => refl s
  | x :: l, s => (hf s x).trans (foldl hf l (f s x))

theorem epc {s t : State} (h : WriteFrame s t) : t.epc = s.epc := by rw [h.1]
theorem now {s t : State} (h : WriteFrame s t) : t.now = s.now := by rw [h.1]
theorem tacks {s t : State} (h : WriteFrame s t) : t.tacks = s.tacks := by rw [h.1]
theorem tackUpd {s t : State} (h : WriteFrame s t) : t.tackUpd = s.tackUpd := by rw [h.1]
theorem str {s t : State} (h : WriteFrame s t) (c : Nat) : t.str c = s.str c := by rw [h.1]; rfl

end WriteFrame

theorem WorkFrame.writeFrame {s t : State} (h : WorkFrame s t) : WriteFrame s t := by
  unfold WorkFrame at h
  rw [h]
  exact ⟨rfl, rfl⟩

theorem Reports.writeFrame {s t : State} (h : Reports s t) : WriteFrame s t := by
  obtain ⟨h, -, hsram⟩ := h
  refine ⟨?_, hsram⟩
  rw [h]

theorem WritesHbm.writeFrame {p : Nat → Prop} {s t : State} (h : WritesHbm p s t) : WriteFrame s t := by
  obtain ⟨m, ⟨h, -, hsram⟩, hm, -⟩ := h
  refine ⟨?_, hsram.trans hm⟩
  rw [h]

/-! ### The journal -/

theorem startSession_writeFrame (s : State) (t : Nat) : WriteFrame s (startSession s t) := ⟨rfl, rfl⟩

theorem setTwn_writeFrame (s : State) (w : TwnSt) : WriteFrame s { s with twn := w } := ⟨rfl, rfl⟩

theorem ringPut_writeFrame (s : State) (reg off : Nat) (bs : List Byte) : WriteFrame s (ringPut s reg off bs) := by
  unfold ringPut
  extract_lets n o s1
  have h1 : WriteFrame s s1 := (writePhys_writes s _ _ _ _).writeFrame
  exact .ite h1 (h1.trans (writePhys_writes s1 _ _ _ _).writeFrame)

theorem txAppend_writeFrame (s : State) (r : JRec) : WriteFrame s (txAppend s r) := by
  unfold txAppend
  extract_lets s1 twn
  exact (ringPut_writeFrame s _ _ _).trans (setTwn_writeFrame s1 _)

/-- R324: a journal record. -/
theorem jrnlForm_writeFrame (s : State) (r : JRec) : WriteFrame s (jrnlForm s r) := by
  unfold jrnlForm
  extract_lets auth s1 r1 s2 twn2 s3 twn3
  have h1 : WriteFrame s s1 := .ite (startSession_writeFrame s _) (.refl s)
  have h2 : WriteFrame s s2 := h1.trans (txAppend_writeFrame s1 _)
  have h3 : WriteFrame s s3 := h1.trans (bump_workFrame s1 _ _).writeFrame
  clear_value s2 s3
  exact .ite (h2.trans (setTwn_writeFrame s2 _)) (h3.trans (setTwn_writeFrame s3 _))

theorem jrnlLines_writeFrame (s : State) (rk t taddr first : Nat) (ls : List Nat) (seed : Bool) :
    WriteFrame s (jrnlLines s rk t taddr first ls seed) := by
  unfold jrnlLines
  exact .foldl (fun u l => jrnlForm_writeFrame u _) _ s

/-! ### Requests -/

theorem writeLine_writeFrame (s : State) (a : Agent) (l : Nat) (new : List (Option Byte)) (poison : Bool) (mask : List Byte) :
    WriteFrame s (writeLine s a l new poison mask) :=
  (writeLine_writes s a l new poison mask).writeFrame

theorem writeLines_writeFrame (s : State) (a : Agent) (ls : List LineWr) :
    WriteFrame s (ls.foldl (fun s x => writeLine s a x.line x.new x.poison x.mask) s) :=
  WriteFrame.foldl (f := fun u (x : LineWr) => writeLine u a x.line x.new x.poison x.mask)
    (fun u x => writeLine_writeFrame u a x.line x.new x.poison x.mask) ls s

/-- A record a requester writes once. -/
theorem agentOnce_writeFrame (s : State) (a : Agent) (c d : Nat) : WriteFrame s (agentOnce s a c d) :=
  (agentOnce_reports s a c d).writeFrame

/-- R304, R323: one write request. -/
theorem reqWrite_writeFrame (s : State) (a : Agent) (t w : Nat) (ls : List LineWr) : WriteFrame s (reqWrite s a t w ls).1 := by
  unfold reqWrite
  extract_lets first addr prot
  split
  · exact (modTen_workFrame s t _).writeFrame.trans (agentOnce_writeFrame _ _ _ _)
  · rename_i s1 s2 _
    have h1 : WriteFrame s s1 := .ite (modTen_workFrame s t _).writeFrame (.refl s)
    clear_value s1
    have h2 : WriteFrame s s2 := h1.trans (writeLines_writeFrame s1 a ls)
    clear_value s2
    exact .ite (h2.trans (jrnlLines_writeFrame s2 _ _ _ _ _ _)) h2

/-- R227: a write to tenant addresses. -/
theorem tenWrite_writeFrame (s : State) (a : Agent) (t addr : Nat) (new : List (Option Byte)) (poison : Bool) :
    WriteFrame s (tenWrite s a t addr new poison).1 := by
  unfold tenWrite
  split
  · exact .refl s
  · split
    · exact .refl s
    · split
      · exact .refl s
      · exact reqWrite_writeFrame s a t _ _

/-- R227, R239: a read of tenant addresses. -/
theorem tenRead_reports {s : State} {a : Agent} {t addr n : Nat} {r : List Byte × Bool × State}
    (h : tenRead s a t addr n = some r) : Reports s r.2.2 := by
  obtain ⟨pa, -, rfl⟩ := Option.map_eq_some_iff.1 h
  exact readPhys_reports s a pa n

end Sys2Proof.Machine
end

section
/-! PROOFS. The close sequence, OPENING and the open (R20, R21, R26, R29, R34, R35, R38). -/

namespace Sys2Proof.Machine

/-! ### DRAIN, FLUSH and COMMIT end -/

/-- The state a complete drain leaves: heads no queue will start are answered, EVT_STRETCH_LAST is taken (R34, R220). -/
def drainedFrom (s : State) : State :=
  let s := (List.range 64).foldl answerFifo s
  s.setReg 0x0788 (min (2 ^ 32 - 1) ((s.vcs.map fun e => e.2.stretch).foldl max 0))

theorem drainedFrom_workFrame (s : State) : WorkFrame s (drainedFrom s) :=
  .trans (.foldl answerFifo_workFrame (List.range 64) s) (setReg_workFrame _ _ _)

/-- R29: drain is complete. -/
theorem exec_drainComplete_due {s : State} (hlive : s.live = true) (hst : s.epc.state = .drain) (hdr : drained s = true) :
    exec .drainComplete s =
      let u := drainedFrom s
      .next (epcTo { u with epc := { u.epc with drainAt := u.now } } .flush) :=
  if_neg (by simp [hlive, hst, hdr])

/-- R34: every write of the epoch has been acknowledged and every record flushed. -/
theorem exec_flushComplete_due {s : State} (hlive : s.live = true) (hst : s.epc.state = .flush) (hdue : s.epc.since + 16 ≤ s.now)
    (hacc : s.mem.acc.any flushes = false) (hflt : s.flt.ring = []) (htrc : s.trc.held = []) :
    exec .flushComplete s = .next (epcTo { s with epc := { s.epc with formed := false, unacked := false } } .commit) :=
  if_neg (by simp [hlive, hst, hdue, hacc, hflt, htrc])

/-- R35: the record is formed and no acknowledgement is awaited. -/
theorem exec_commitEnd_due {s : State} (hlive : s.live = true) (hst : s.epc.state = .commit) (hformed : s.epc.formed = true)
    (hack : s.twn.commitAt = none) :
    exec .commitEnd s = .next (epcTo { s with epc := { s.epc with waitCc := s.now - (s.epc.since + 48) } } .clear) :=
  if_neg (by simp [hlive, hst, hformed, hack])

theorem closeSequence_advances (s : State) (hlive : s.live = true) :
    (s.epc.state = .drain → drained s = true →
      ∃ t, exec .drainComplete s = .next t ∧ t.epc.state = .flush ∧ t.epc.since = s.now ∧ t.epc.drainAt = s.now ∧ t.epc.count = s.epc.count) ∧
    (s.epc.state = .flush → s.epc.since + 16 ≤ s.now → s.mem.acc.any flushes = false → s.flt.ring = [] → s.trc.held = [] →
      ∃ t, exec .flushComplete s = .next t ∧ t.epc.state = .commit ∧ t.epc.since = s.now ∧ t = { s with epc := t.epc }) ∧
    (s.epc.state = .commit → s.epc.formed = true → s.twn.commitAt = none →
      ∃ t, exec .commitEnd s = .next t ∧ t.epc.state = .clear ∧ t.epc.since = s.now ∧ t = { s with epc := t.epc }) := by
  refine ⟨fun hst hdr => ?_, fun hst hdue hacc hflt htrc => ?_, fun hst hformed hack => ?_⟩
  · have hu := drainedFrom_workFrame s
    refine ⟨_, exec_drainComplete_due hlive hst hdr, ?_⟩
    generalize drainedFrom s = u at hu
    exact ⟨rfl, hu.now, hu.now, (congrArg Epoch.count hu.epc :)⟩
  · exact ⟨_, exec_flushComplete_due hlive hst hdue hacc hflt htrc, rfl, rfl, rfl⟩
  · exact ⟨_, exec_commitEnd_due hlive hst hformed hack, rfl, rfl, rfl⟩

/-! ### OPENING -/

theorem grantMasks_now (s : State) : (grantMasks s).now = s.now := by
  unfold grantMasks
  refine foldl_keeps_view (fun acc : State × Nat => acc.1.now) (fun acc q => ?_) _ (s, 0)
  dsimp only
  split <;> rfl

theorem nextStep_now (s : State) : (nextStep s).now = s.now := by
  unfold nextStep
  refine foldl_keeps_view State.now (fun u v => ?_) _ s
  dsimp only
  split <;> split <;> rfl

/-- Every tenant's journal budget unused (R304). -/
def freshBudgets (s : State) : State :=
  (List.range 32).foldl (fun s t => s.modTen t fun x => { x with jused := 0, jexhausted := false }) s

theorem freshBudgets_now (s : State) : (freshBudgets s).now = s.now := by
  unfold freshBudgets
  refine foldl_keeps_view State.now (fun u t => ?_) _ s
  rfl

/-- What the next epoch finds prepared as OPENING starts (R71, R304, R333, Table 02.6). -/
def openingFrom (s : State) : State := pairJudge (sendTState (freshBudgets (nextStep (grantMasks s))))

theorem openingFrom_now (s : State) : (openingFrom s).now = s.now := by
  rw [openingFrom, (pairJudge_quiet _).2.1, (sendTState_quiet _).2.1, freshBudgets_now, nextStep_now, grantMasks_now]

/-- R20: the apply stage is over. -/
theorem exec_opening_due {s : State} (hlive : s.live = true) (hst : s.epc.state = .clear) (happ : s.epc.applied = true)
    (hdue : s.epc.since + 128 ≤ s.now) :
    exec .opening s = .next (if s.epc.runRead = false then epcTo { s with epc := { s.epc with held := false } } .idle
      else epcTo (openingFrom s) .opening) := by
  show execOpening s = _
  unfold execOpening openingFrom freshBudgets
  rw [if_neg (by simp [hlive, hst, happ, hdue])]
  simp only [Bool.not_eq_true', apply_ite Host.Outcome.next]

theorem opening_or_idle (s : State) (hlive : s.live = true) (hst : s.epc.state = .clear) (happ : s.epc.applied = true)
    (hdue : s.epc.since + 128 ≤ s.now) :
    ∃ t, exec .opening s = .next t ∧ t.epc.since = s.now ∧ (s.epc.runRead = true → t.epc.state = .opening) ∧
      (s.epc.runRead = false → t.epc.state = .idle ∧ t = { s with epc := t.epc }) := by
  have hnow := openingFrom_now s
  refine ⟨_, exec_opening_due hlive hst happ hdue, ?_⟩
  generalize openingFrom s = u at hnow
  cases hrun : s.epc.runRead with
  | false => exact ⟨rfl, nofun, fun _ => ⟨rfl, rfl⟩⟩
  | true => exact ⟨hnow, fun _ => rfl, nofun⟩

/-! ### The open -/

/-- What an open sets of the epoch: its state, the cc of the open, its number, its period and its deadline. -/
def openedAs (e : Epoch) : EState × Nat × Nat × Nat × Nat := (e.state, e.openAt, e.count, e.period, e.deadline)

/-- The schedule's instant is no part of it. -/
theorem openedAs_instant (e : Epoch) (sec ns : Nat) (hit : Bool) :
    openedAs { e with instSec := sec, instNs := ns, schedHit := hit } = openedAs e := rfl

/-- R38: the schedule moves on, or disarms. -/
theorem advanceSchedule_openedAs (s : State) : openedAs (advanceSchedule s).epc = openedAs s.epc := by
  unfold advanceSchedule
  split
  · rfl
  · dsimp only
    split
    · rfl
    · exact (openedAs_instant _ _ _ _).trans (congrArg openedAs (State.bump_epc s 0x0244 _))

theorem strDrop_epc (s : State) (c other n : Nat) : (strDrop s c other n).epc = s.epc := rfl

theorem strRd_epc (s : State) (c : Nat) : (strRd s c).2.epc = s.epc := by
  unfold strRd
  split
  · rfl
  · rename_i r hr
    split
    · exact (tenRead_reports hr).epc
    · exact (tenRead_reports hr).epc

/-- R217, R218, R313: what a ring brings for the step changes nothing of the epoch. -/
theorem ingest_epc (s : State) (c : Nat) : (ingest s c).epc = s.epc := by
  unfold ingest
  extract_lets x t u r
  split
  · rfl
  · have hr : r.2.epc = s.epc := strRd_epc u c
    clear_value r
    split
    · exact hr
    · rename_i rd _
      extract_lets n fetched
      split
      · exact hr
      · refine (tenWrite_writeFrame _ _ _ _ _ _).epc.trans ((foldl_keeps_view State.epc (fun a i => ?_) _ r.2).trans hr)
        extract_lets k
        split
        · exact strDrop_epc a c 1 1
        · rename_i e he
          have hread := (tenRead_reports he).epc
          extract_lets b ev
          split
          · exact (evDrop_workFrame b 9 1).epc.trans hread
          · split
            · exact hread
            · exact (remoteEvent_eventFrame b t _ ev).workFrame.epc.trans hread

/-- R21, R26: the epoch opened in this cc. -/
theorem openEpoch_openedAs (s : State) (late : Bool) :
    openedAs (openEpoch s late).epc = (.opened, s.now, if s.epc.count = 2 ^ 40 - 1 then 1 else s.epc.count + 1,
      max 4096 (s.reg 0x0210), max 4096 (s.reg 0x0214)) := by
  unfold openEpoch
  extract_lets wrap e cost e' s1 s2 s3 s4 s5 s6 s7
  have h1 : openedAs s1.epc = (.opened, s.now, if s.epc.count = 2 ^ 40 - 1 then 1 else s.epc.count + 1,
      max 4096 (s.reg 0x0210), max 4096 (s.reg 0x0214)) := rfl
  have h2 : s2.epc = s1.epc := by unfold s2; split <;> rfl
  have h3 : s3.epc = s2.epc := by unfold s3; split <;> rfl
  have h4 : openedAs s4.epc = openedAs s3.epc := by
    unfold s4
    split
    · exact advanceSchedule_openedAs s3
    · rfl
  have hq : ∀ (u : State) (q : Nat), (u.modQ q fun x => { x with credit := queueWeight u q }).epc = u.epc := fun _ _ => rfl
  have h6 : s6.epc = s4.epc := foldl_keeps_view State.epc hq _ s5
  have h7 : s7.epc = s6.epc := (traceAdd_workFrame s6 _ _ _ _ _).epc
  have hin : (List.foldl ingest s7 (List.range 8)).epc = s7.epc := foldl_keeps_view State.epc ingest_epc _ s7
  rw [hin, h7, h6, h4, h3, h2, h1]

/-- The parts of the open, read one by one. -/
theorem openEpoch_fields (s : State) (late : Bool) :
    let e := (openEpoch s late).epc
    e.state = .opened ∧ e.openAt = s.now ∧ e.count = (if s.epc.count = 2 ^ 40 - 1 then 1 else s.epc.count + 1) ∧
      e.period = max 4096 (s.reg 0x0210) ∧ e.deadline = max 4096 (s.reg 0x0214) := by
  have h := openEpoch_openedAs s late
  generalize (openEpoch s late).epc = e at h
  simpa only [openedAs, Prod.mk.injEq] using h

/-- R21, R37: OPENING is over and no schedule instant is ahead. -/
theorem exec_epochOpen_due {s : State} (hlive : s.live = true) (hst : s.epc.state = .opening) (hdue : s.epc.since + 48 ≤ s.now)
    (hsched : schedHeld s = false ∨ todReached s (instant s) = true) :
    ∃ late, exec .epochOpen s = .next (openEpoch s late) := by
  have hnot : (schedHeld s && !todReached s (instant s)) = false := by
    obtain h | h := hsched <;> simp [h]
  refine ⟨schedHeld s && !s.epc.waiting && decide (instant s * 2 ^ 48 + s.tod.incr ≤ todTotal s), ?_⟩
  show execEpochOpen s = _
  rw [execEpochOpen, if_neg (by simp [hlive, hst, hdue, hnot])]

/-- R37: a boundary that waits opens at its instant. -/
theorem exec_scheduleHoldRelease_due {s : State} (hlive : s.live = true) (hst : s.epc.state = .opening)
    (hwait : s.epc.waiting = true) (htod : todReached s (instant s) = true) :
    exec .scheduleHoldRelease s = .next (openEpoch s false) := by
  show execScheduleHoldRelease s = _
  rw [execScheduleHoldRelease, if_neg (by simp [hlive, hst, hwait, htod])]

/-- Settles O17: each command of the close sequence moves the epoch on by `epcTo`; whatever an open does besides, it leaves
what `openedAs` names. -/
theorem closeSequenceAdvancesAndOpens : Obligations.CloseSequenceAdvancesAndOpens := by
  refine ⟨closeSequence_advances, fun s hlive => ⟨opening_or_idle s hlive, fun hst hdue hsched => ?_, fun hst hwait htod => ?_⟩⟩
  · obtain ⟨late, hexec⟩ := exec_epochOpen_due hlive hst hdue hsched
    exact ⟨_, hexec, openEpoch_fields s late⟩
  · obtain ⟨hstate, hopenAt, hcount, -⟩ := openEpoch_fields s false
    exact ⟨_, exec_scheduleHoldRelease_due hlive hst hwait htod, hstate, hopenAt, hcount⟩

end Sys2Proof.Machine
end

section
/-! PROOFS. What a partner's TACK_SET and EPOCH_CTRL do (R23 to R25, R84, R276, R287). -/

namespace Sys2Proof.Machine

/-! ### Messages taken -/

/-- Between `s` and `t` only ports and the codes of the message under way have changed: what taking a message does. -/
def AdmitFrame (s t : State) : Prop := t = { s with ports := t.ports, once := t.once }

theorem AdmitFrame.trans {s t u : State} (h : AdmitFrame s t) (k : AdmitFrame t u) : AdmitFrame s u := by
  unfold AdmitFrame at h k
  rw [h] at k
  exact k

theorem AdmitFrame.workFrame {s t : State} (h : AdmitFrame s t) : WorkFrame s t := by
  unfold AdmitFrame at h
  rw [h]
  rfl

theorem setPort_admitFrame (s : State) (p : Nat) (x : PortSt) : AdmitFrame s (s.setPort p x) := rfl
theorem once_admitFrame (s : State) (o : List Nat) : AdmitFrame s { s with once := o } := rfl

/-- R267: a message leaves its receive buffer; the quota of its port stays. -/
theorem takeRx_admits (s : State) (p v : Nat) (m : Msg) :
    AdmitFrame s (takeRx s p v m) ∧ ((takeRx s p v m).port p).qrate = (s.port p).qrate := by
  unfold takeRx
  extract_lets x
  split
  · split
    · refine ⟨setPort_admitFrame s p _, ?_⟩
      rw [State.setPort_port, if_pos rfl]
      rfl
    · exact ⟨rfl, rfl⟩
  · exact ⟨rfl, rfl⟩

theorem egressTake_admits (s : State) (p heads units : Nat) :
    AdmitFrame s (egressTake s p heads units) ∧ ((egressTake s p heads units).port p).qrate = (s.port p).qrate := by
  refine ⟨setPort_admitFrame s p _, ?_⟩
  rw [egressTake, State.modPort, State.setPort_port, if_pos rfl]

/-- `m` is the next request of an open port, its header is in order, and its response has room. -/
structure RequestAt (s : State) (p : Nat) (m : Msg) : Prop where
  on : s.linkOn = true
  up : (s.port p).state = .up
  next : rxNext s p 2 m = true
  running : s.halted = false
  src : m.src = expNode s p
  status : m.status = 0
  fault : m.fault = 0
  room : egressRoom s p 1 0 = true

/-- R254, R277, R293: a request that breaks no rule reaches its own checks. -/
theorem withRequest_admits {s : State} {p : Nat} {m : Msg} {r : ReqShape} (h : RequestAt s p m) (hunits : r.units = 0)
    (hbad : r.bad = false) :
    ∃ u, AdmitFrame s u ∧ (u.port p).qrate = (s.port p).qrate ∧ ∀ k : State → State, withRequest s p m r k = k u := by
  let u : State := { (if r.owed then egressTake (takeRx s p 2 m) p 1 r.units else takeRx s p 2 m) with once := [] }
  obtain ⟨hon, hup, hrx, hhalt, hsrc, hstatus, hfault, hroom⟩ := h
  have htake := takeRx_admits s p 2 m
  have hegress := egressTake_admits (takeRx s p 2 m) p 1 r.units
  have hu : AdmitFrame s u ∧ (u.port p).qrate = (s.port p).qrate := by
    unfold u
    split
    · exact ⟨(htake.1.trans hegress.1).trans (once_admitFrame _ []), hegress.2.trans htake.2⟩
    · exact ⟨htake.1.trans (once_admitFrame _ []), htake.2⟩
  have hframe := hu.1
  have hsrc' : m.src = expNode u p := by rw [hframe]; exact hsrc
  have hhalt' : u.halted = false := by rw [hframe]; exact hhalt
  refine ⟨u, hu.1, hu.2, fun k => ?_⟩
  unfold withRequest
  extract_lets x s1 s2
  have h2 : s2 = u := rfl
  rw [if_neg (by simp [x, hon, hup, hrx, linkState]), if_neg (by simp [x, hup]), if_neg (by simp [x, hup]), if_neg (by simp [hunits, hroom]),
    h2, if_neg (by simp [hbad, ← hsrc', hstatus, hfault]), if_neg (by simp [hhalt'])]

/-- R287, R283: a partner with the right, without a quota, passes. -/
theorem withRights_granted {s : State} {p : Nat} {m : Msg} {w : Nat} (r : ReqShape) (k : State → State)
    (hright : bit (s.tw 9 p w) m.tenant = true) (hrep : isReplica s m.tenant = false) (hquota : (s.port p).qrate = 0) :
    withRights s p m r w k = k s := by
  unfold withRights
  rw [if_neg (by simp [hright, hrep])]
  simp [takeToken, hquota]

/-! ### TACK_SET -/

/-- What a TACK_SET asks of its admission. -/
def tackShape (s : State) (m : Msg) : ReqShape :=
  { rsp := 0x23, owed := bit (mword m 0) 41, empty := ctrlAck s false
    bad := !(msgFits s m 0x13 8 && bits (mword m 0) 47 42 == 0 && bits (mword m 0) 39 10 == 0) }

/-- The tack a TACK_SET names, and whether its entry is closed to this update by a partner. -/
def tackNamed (m : Msg) : Nat := bits (mword m 0) 9 0
def tackClosed (s : State) (m : Msg) : Bool :=
  !bit (s.tf 6 (tackNamed m) 0) 31 || (bit (mword m 0) 40 && !bit (s.tf 6 (tackNamed m) 0) 30)

/-- R276, R287: an admitted TACK_SET of a tack its tenant owns updates it, or is refused and noted. -/
theorem exec_tackSet_admitted {s : State} {p : Fin 8} {m : Msg} (h : RequestAt s p m) (hquota : (s.port p).qrate = 0)
    (hfit : msgFits s m 0x13 8 = true) (hhi : bits (mword m 0) 47 42 = 0) (hlo : bits (mword m 0) 39 10 = 0)
    (hright : bit (s.tw 9 p 4) m.tenant = true) (hrep : isReplica s m.tenant = false)
    (hown : s.ownsTack m.tenant (tackNamed m) = true) :
    ∃ u, AdmitFrame s u ∧ exec (.tackSet p m) s = .next (if tackClosed s m
      then reject (refusal (u.tackBit (tackNamed m) 2) p) p m (tackShape s m) 0x05
      else reject (tackUpdate u (80 + 2 * p) (tackNamed m) (bit (mword m 0) 40) (bits (mword m 0) 63 48)) p m (tackShape s m) 0x00) := by
  obtain ⟨u, hu, huq, hk⟩ := withRequest_admits (r := tackShape s m) h rfl (by simp [tackShape, hfit, hhi, hlo])
  have hright' : bit (u.tw 9 p 4) m.tenant = true := by rw [hu]; exact hright
  have hrep' : isReplica u m.tenant = false := by rw [hu]; exact hrep
  have hclosed : tackClosed u m = tackClosed s m := by rw [hu]; rfl
  refine ⟨u, hu, ?_⟩
  show execTackSet p m s = _
  unfold execTackSet
  extract_lets w r k
  have hr : r = tackShape s m := rfl
  have hown' : ¬ (!u.ownsTack m.tenant k) = true := by
    have h : u.ownsTack m.tenant k = true := by rw [hu]; exact hown
    rw [h]
    decide
  rw [hr, hk, withRights_granted _ _ hright' hrep' (huq.trans hquota), if_neg hown', ← hclosed]
  rfl

theorem tackBit_tack (s : State) (k i j : Nat) : (s.tackBit k i).tack j = if k = j then
    { s.tack k with saturated := (s.tack k).saturated || i == 1, extRefused := (s.tack k).extRefused || i == 2 } else s.tack j :=
  State.setTack_tack s k j _

theorem bits_lt (n hi lo : Nat) : bits n hi lo < 2 ^ (hi + 1 - lo) := Nat.mod_lt _ (Nat.two_pow_pos _)

theorem WorkFrame.tack {s t : State} (h : WorkFrame s t) (j : Nat) : t.tack j = s.tack j := by rw [h]; rfl

theorem tackSet_updates_or_refuses {s : State} {p : Fin 8} {m : Msg} (h : RequestAt s p m) (hquota : (s.port p).qrate = 0) :
    msgFits s m 0x13 8 = true → bits (mword m 0) 47 42 = 0 → bits (mword m 0) 39 10 = 0 → bit (s.tw 9 p 4) m.tenant = true →
      isReplica s m.tenant = false → s.ownsTack m.tenant (tackNamed m) = true →
      (bit (s.tf 6 (tackNamed m) 0) 31 = true → (bit (mword m 0) 40 = true → bit (s.tf 6 (tackNamed m) 0) 30 = true) →
        ∃ t, exec (.tackSet p m) s = .next t ∧ t.tacks = s.tacks ∧ t.mem = s.mem ∧ t.epc = s.epc ∧
          t.tackUpd = s.tackUpd ++ [{ due := s.now + 2, rank := 80 + 2 * p.val, tack := tackNamed m, write := bit (mword m 0) 40
                                      value := bits (mword m 0) 63 48 }]) ∧
      (bit (s.tf 6 (tackNamed m) 0) 31 = false ∨ bit (mword m 0) 40 = true ∧ bit (s.tf 6 (tackNamed m) 0) 30 = false →
        ∃ t, exec (.tackSet p m) s = .next t ∧ t.tackUpd = s.tackUpd ∧ t.mem = s.mem ∧ (t.tack (tackNamed m)).extRefused = true ∧
          (t.tack (tackNamed m)).value = (s.tack (tackNamed m)).value ∧ ∀ j, j ≠ tackNamed m → t.tack j = s.tack j) := by
  intro hfit hhi hlo hright hrep hown
  obtain ⟨u, hu, hexec⟩ := exec_tackSet_admitted h hquota hfit hhi hlo hright hrep hown
  have hsu := hu.workFrame
  refine ⟨fun hext hwrite => ?_, fun hclosed => ?_⟩
  · have hopen : ¬ tackClosed s m = true := by
      simpa [tackClosed, hext] using hwrite
    rw [if_neg hopen] at hexec
    have ht := reject_workFrame (tackUpdate u (80 + 2 * p) (tackNamed m) (bit (mword m 0) 40) (bits (mword m 0) 63 48)) p m
      (tackShape s m) 0x00
    refine ⟨_, hexec, ht.tacks.trans hsu.tacks, ht.mem.trans hsu.mem, ht.epc.trans hsu.epc, ht.tackUpd.trans ?_⟩
    rw [tackUpdate, hsu.tackUpd, hsu.now, Nat.mod_eq_of_lt (bits_lt _ 63 48)]
  · have hclosed' : tackClosed s m = true := by
      simpa [tackClosed] using hclosed
    rw [if_pos hclosed'] at hexec
    have ht := (refusal_workFrame (u.tackBit (tackNamed m) 2) p.isLt).trans (reject_workFrame _ p m (tackShape s m) 0x05)
    have htack := fun j => (ht.tack j).trans (tackBit_tack u (tackNamed m) 2 j)
    refine ⟨_, hexec, ht.tackUpd.trans hsu.tackUpd, ht.mem.trans hsu.mem, ?_, ?_, fun j hj => ?_⟩
    · rw [htack, if_pos rfl]
      simp
    · rw [htack, if_pos rfl]
      exact (congrArg TackSt.value (hsu.tack (tackNamed m)) :)
    · rw [htack, if_neg (Ne.symm hj)]
      exact hsu.tack j

/-! ### EPOCH_CTRL -/

/-- What an EPOCH_CTRL asks of its admission. -/
def epochShape (s : State) (m : Msg) : ReqShape :=
  { rsp := 0x23, empty := ctrlAck s true, bad := !(msgFits s m 0x14 8 && mword m 0 == 1 && m.tenant == 0) }

/-- R276: what an EPOCH_CTRL of a partner with authority does: the MSG trigger where it is enabled. -/
def msgTrigger (s : State) : State × Bool := if bit (s.reg 0x0218) 0 then trigger s 1 else (s, true)

/-- R276, R287: an admitted EPOCH_CTRL is refused for want of authority, or is the MSG trigger. -/
theorem exec_epochCtrl_admitted {s : State} {p : Fin 8} {m : Msg} (h : RequestAt s p m) (hfit : msgFits s m 0x14 8 = true)
    (hword : mword m 0 = 1) (hten : m.tenant = 0) :
    ∃ u, AdmitFrame s u ∧ exec (.epochCtrl p m) s = .next (if !bit (s.tw 9 p 0) 28
      then reject (refusal u p) p m (epochShape s m) 0x06
      else answer (msgTrigger u).1 p m 0x23 0x00 0 (leBytes 8 ((if (msgTrigger u).2 then 2 ^ 40 else 0) + u.epc.count))) := by
  obtain ⟨u, hu, -, hk⟩ := withRequest_admits (r := epochShape s m) h rfl (by simp [epochShape, hfit, hword, hten])
  have hauth : u.tw 9 p 0 = s.tw 9 p 0 := by rw [hu]; rfl
  refine ⟨u, hu, ?_⟩
  show execEpochCtrl p m s = _
  unfold execEpochCtrl
  extract_lets r
  have hr : r = epochShape s m := rfl
  rw [hr, hk, hauth]
  rfl

theorem epochCtrl_triggers_or_not {s : State} {p : Fin 8} {m : Msg} (h : RequestAt s p m) (hfit : msgFits s m 0x14 8 = true)
    (hword : mword m 0 = 1) (hten : m.tenant = 0) :
    (bit (s.tw 9 p 0) 28 = true → bit (s.reg 0x0218) 0 = true → s.epc.state = .opened →
      ∃ t, exec (.epochCtrl p m) s = .next t ∧ t.epc.state = .drain ∧ t.epc.cause = 2 ∧ t.epc.since = s.now ∧ t.mem = s.mem) ∧
    ((bit (s.tw 9 p 0) 28 = false ∨ bit (s.reg 0x0218) 0 = false) →
      ∃ t, exec (.epochCtrl p m) s = .next t ∧ t.epc = s.epc ∧ t.mem = s.mem ∧ t.tacks = s.tacks) := by
  obtain ⟨u, hu, hexec⟩ := exec_epochCtrl_admitted h hfit hword hten
  have hsu := hu.workFrame
  have hreg : u.reg 0x0218 = s.reg 0x0218 := by rw [hu]; rfl
  have hans : ∀ w b, WorkFrame w (answer w p m 0x23 0x00 0 b) := fun w b => pushRsp_workFrame w p _ _ _
  refine ⟨fun hauth hen hopen => ?_, fun hnot => ?_⟩
  · rw [if_neg (by rw [hauth]; decide)] at hexec
    have htr : msgTrigger u = (startClose (triggered u 1), false) := by
      rw [msgTrigger, if_pos (by rw [hreg, hen]), trigger_opened 1 (by rw [hsu.epc, hopen])]
    rw [htr] at hexec
    have ht := hans (startClose (triggered u 1)) (leBytes 8 u.epc.count)
    have hepc := ht.epc.trans (startClose_triggered_epc u 1)
    have hmem := ht.mem.trans (startClose_triggered u 1).workFrame.mem
    refine ⟨_, hexec.trans (by rw [if_neg Bool.false_ne_true, Nat.zero_add]), ?_, ?_, ?_, hmem.trans hsu.mem⟩
    · rw [hepc]; rfl
    · rw [hepc]; rfl
    · rw [hepc]; exact hsu.now
  · suffices h : ∃ t, exec (.epochCtrl p m) s = .next t ∧ WorkFrame u t by
      obtain ⟨t, htexec, ht⟩ := h
      exact ⟨t, htexec, ht.epc.trans hsu.epc, ht.mem.trans hsu.mem, ht.tacks.trans hsu.tacks⟩
    cases hauth : bit (s.tw 9 p 0) 28 with
    | false =>
      rw [if_pos (by rw [hauth]; rfl)] at hexec
      exact ⟨_, hexec, (refusal_workFrame u p.isLt).trans (reject_workFrame _ p m (epochShape s m) 0x06)⟩
    | true =>
      rw [if_neg (by rw [hauth]; decide)] at hexec
      have hen : bit (s.reg 0x0218) 0 = false := hnot.resolve_left (by rw [hauth]; decide)
      have htr : msgTrigger u = (u, true) := by rw [msgTrigger, if_neg (by rw [hreg, hen]; decide)]
      rw [htr] at hexec
      exact ⟨_, hexec, hans u _⟩

end Sys2Proof.Machine
end

section
/-! PROOFS. What a partner's EVENT_BATCH does (R217, R222). -/

namespace Sys2Proof.Machine

/-! ### Messages of the EV channel -/

/-- `m` is the next message of the EV channel of an open port, and its header is in order. -/
structure EventAt (s : State) (p : Nat) (m : Msg) : Prop where
  on : s.linkOn = true
  up : (s.port p).state = .up
  next : rxNext s p 3 m = true
  running : s.halted = false
  status : m.status = 0
  fault : m.fault = 0

/-- R264, R277: a message of the EV channel that breaks no rule is taken at a port that is UP. -/
theorem withEv_admits {s : State} {p : Nat} {m : Msg} {bad : Bool} (h : EventAt s p m) (hbad : bad = false) :
    ∃ u, AdmitFrame s u ∧ u.halted = false ∧ ∀ k : State → State, withEv s p m bad k = k u := by
  obtain ⟨hon, hup, hrx, hhalt, hstatus, hfault⟩ := h
  have hu : AdmitFrame s { takeRx s p 3 m with once := [] } := (takeRx_admits s p 3 m).1.trans (once_admitFrame _ [])
  refine ⟨_, hu, by rw [hu]; exact hhalt, fun k => ?_⟩
  unfold withEv withRx
  extract_lets x u
  rw [if_neg (by simp [x, hon, hup, hrx, linkState]), show x.state = .up from hup]
  dsimp only
  rw [if_neg (by simp [hbad, hstatus, hfault])]

/-! ### One remote event at one VC -/

theorem evDrop_vc (s : State) (cause n v : Nat) : (evDrop s cause n).vc v = s.vc v := by
  unfold evDrop
  split <;> rfl

theorem modVc_vc (s : State) (w v : Nat) (f : VcSt → VcSt) : (s.modVc w f).vc v = if w = v then f (s.vc w) else s.vc v :=
  State.setVc_vc s w v _

theorem vc_ite (c : Prop) [Decidable c] (s t : State) (v : Nat) : (if c then s else t).vc v = if c then s.vc v else t.vc v :=
  apply_ite (fun u : State => u.vc v) c s t

/-- An event that comes to one VC leaves the others. -/
theorem remoteStep_vc_ne (t d ahead ev : Nat) (s : State) {w v : Nat} (h : w ≠ v) :
    (remoteStep t d ahead ev s w).vc v = s.vc v := by
  simp only [remoteStep, fileEvent, setSlot, vc_ite, evDrop_vc, modVc_vc, if_neg h, ite_self]

/-- Steps that each leave every VC but their own do to VC `v` what the step of `v` does to it as it stood. -/
theorem foldl_vc {f : State → Nat → State} (hf : ∀ u w, EventFrame u (f u w)) {v : Nat}
    (hne : ∀ u w, w ≠ v → (f u w).vc v = u.vc v) {l : List Nat} (hl : l.Nodup) (hv : v ∈ l) :
    ∀ s, ∃ u, EventFrame s u ∧ u.vc v = s.vc v ∧ (l.foldl f s).vc v = (f u v).vc v := by
  induction l with
  | nil => exact absurd hv List.not_mem_nil
  | cons w l ih =>
    obtain ⟨hw, hl⟩ := List.nodup_cons.1 hl
    intro s
    rcases List.mem_cons.1 hv with rfl | hmem
    · refine ⟨s, .refl s, rfl, ?_⟩
      have hrest : ∀ (l : List Nat) (u : State), v ∉ l → (l.foldl f u).vc v = u.vc v := by
        intro l
        induction l with
        | nil => exact fun u _ => rfl
        | cons x l ih =>
          intro u hx
          rw [List.mem_cons, not_or] at hx
          exact (ih _ hx.2).trans (hne u x (Ne.symm hx.1))
      exact hrest l _ hw
    · have hwv : w ≠ v := fun h => hw (h ▸ hmem)
      obtain ⟨u, hu, huv, hfold⟩ := ih hl hmem (f s w)
      exact ⟨u, (hf s w).trans hu, huv.trans (hne s w hwv), hfold⟩

/-! ### The events of a batch -/

/-- VC `v` takes remote events of tenant `t` (R217, Table 19.7). -/
def Receives (s : State) (t v : Nat) : Prop :=
  evEnabled s t v = true ∧ evRemote s v = true ∧ hubOn s = true ∧ s.isOn v = true

theorem Receives.congr {s u : State} {t v : Nat} (h : Receives s t v) (hu : EventFrame s u)
    (hvalid : (u.vc v).evValid = (s.vc v).evValid) : Receives u t v := by
  obtain ⟨hen, hrem, hhub, hon⟩ := h
  refine ⟨?_, by rw [hu]; exact hrem, by rw [hu]; exact hhub, by rw [hu]; exact hon⟩
  have htab : u.tfB 8 (64 * v + 63) 0 29 25 = s.tfB 8 (64 * v + 63) 0 29 25 := by rw [hu]; rfl
  rw [evEnabled, hvalid, htab]
  exact hen

theorem delivOver_congr {s u : State} {v : Nat} (hu : EventFrame s u) (hend : (u.vc v).delivEnd = (s.vc v).delivEnd) :
    delivOver u v = delivOver s v := by
  have hepc : u.epc = s.epc := by rw [hu]
  have hstr : stretches u = stretches s := by rw [hu]; rfl
  rw [delivOver, delivOver, hend, hepc, hstr]

/-- Of a remote event, VC `v` sees its own step. -/
theorem remoteEvent_vc (s : State) (t d ev : Nat) {v : Nat} (hv : v < 64) :
    ∃ u, EventFrame s u ∧ u.vc v = s.vc v ∧ (remoteEvent s t d ev).vc v = (remoteStep t d (epochsAhead s d) ev u v).vc v := by
  rw [remoteEvent_eq]
  exact foldl_vc (remoteStep_eventFrame t d _ ev) (fun u w h => remoteStep_vc_ne t d _ ev u h) List.nodup_range
    (List.mem_range.2 hv) s

/-- R217: an event of the epoch under way joins the step of a VC that still delivers. -/
theorem remoteEvent_joins {s : State} {t v ev : Nat} (hv : v < 64) (hr : Receives s t v) (hd : delivOver s v = false) :
    (remoteEvent s t s.epc.count ev).vc v = { s.vc v with extra := (s.vc v).extra ++ [ev] } := by
  obtain ⟨u, hu, huv, hvc⟩ := remoteEvent_vc s t s.epc.count ev hv
  obtain ⟨hen, hrem, hhub, hon⟩ := hr.congr hu (congrArg VcSt.evValid huv)
  have hd' : delivOver u v = false := (delivOver_congr hu (congrArg VcSt.delivEnd huv)).trans hd
  have hzero : epochsAhead s s.epc.count = 0 := by simp [epochsAhead]
  rw [hvc, hzero, remoteStep, if_neg (by simp [hen, hrem]), if_neg (by simp [hhub, hon]), if_pos rfl, if_neg (by simp [hd']),
    modVc_vc, if_pos rfl, huv]

/-- R215, R217: an event of one of the 16 next epochs is filed by its step, while the slot has room. -/
theorem remoteEvent_filed {s : State} {t v d ev : Nat} (hv : v < 64) (hr : Receives s t v) (hlo : s.epc.count < d)
    (hhi : d ≤ s.epc.count + 16) (hroom : (delaySlot s v (d % 16)).length < 4096) :
    ((remoteEvent s t d ev).vc v).evValid = (s.vc v).evValid ∧
    delaySlot (remoteEvent s t d ev) v (d % 16) = delaySlot s v (d % 16) ++ [{ addr := ev, bit4 := bit d 4 }] := by
  obtain ⟨u, hu, huv, hvc⟩ := remoteEvent_vc s t d ev hv
  obtain ⟨hen, hrem, hhub, hon⟩ := hr.congr hu (congrArg VcSt.evValid huv)
  have hslot : delaySlot u v (d % 16) = delaySlot s v (d % 16) := by rw [delaySlot, huv, delaySlot]
  have hahead : epochsAhead s d = d - s.epc.count := if_pos hlo.le
  rw [hahead, remoteStep, if_neg (by simp [hen, hrem]), if_neg (by simp [hhub, hon]), if_neg (by omega), if_pos (by omega),
    fileEvent, hslot, if_pos hroom, setSlot, modVc_vc, if_pos rfl] at hvc
  rw [delaySlot, hvc]
  exact ⟨(congrArg VcSt.evValid huv :), mget_mset_self _ _ _ _⟩

/-- The events of a batch, one after another. -/
def remoteEvents (s : State) (t d : Nat) (evs : List Nat) : State := evs.foldl (fun s ev => remoteEvent s t d ev) s

theorem remoteEvents_eventFrame (t d : Nat) (evs : List Nat) (s : State) : EventFrame s (remoteEvents s t d evs) :=
  .foldl (fun u ev => remoteEvent_eventFrame u t d ev) evs s

theorem remoteEvents_join {t v : Nat} (hv : v < 64) : ∀ (evs : List Nat) (s : State), Receives s t v → delivOver s v = false →
    ((remoteEvents s t s.epc.count evs).vc v).extra = (s.vc v).extra ++ evs
  | [], s, _, _ => (List.append_nil _).symm
  | ev :: evs, s, hr, hd => by
    have hf := remoteEvent_eventFrame s t s.epc.count ev
    have hvc := remoteEvent_joins (ev := ev) hv hr hd
    have hcount : (remoteEvent s t s.epc.count ev).epc.count = s.epc.count := by rw [hf]
    have ih := remoteEvents_join hv evs (remoteEvent s t s.epc.count ev) (hr.congr hf (by rw [hvc]))
      ((delivOver_congr hf (by rw [hvc])).trans hd)
    rw [hcount, hvc] at ih
    rw [remoteEvents, List.foldl_cons]
    exact ih.trans (by simp)

theorem remoteEvents_filed {t v d : Nat} (hv : v < 64) : ∀ (evs : List Nat) (s : State), Receives s t v → s.epc.count < d →
    d ≤ s.epc.count + 16 → (delaySlot s v (d % 16)).length + evs.length ≤ 4096 →
    delaySlot (remoteEvents s t d evs) v (d % 16) =
      delaySlot s v (d % 16) ++ evs.map fun ev => { addr := ev, bit4 := bit d 4 }
  | [], s, _, _, _, _ => (List.append_nil _).symm
  | ev :: evs, s, hr, hlo, hhi, hroom => by
    rw [List.length_cons] at hroom
    have hf := remoteEvent_eventFrame s t d ev
    obtain ⟨hvalid, hslot⟩ := remoteEvent_filed (ev := ev) hv hr hlo hhi (by omega)
    have hcount : (remoteEvent s t d ev).epc.count = s.epc.count := by rw [hf]
    have ih := remoteEvents_filed hv evs (remoteEvent s t d ev) (hr.congr hf hvalid) (by rw [hcount]; exact hlo)
      (by rw [hcount]; exact hhi) (by rw [hslot]; simp; omega)
    rw [remoteEvents, List.foldl_cons]
    refine ih.trans ?_
    rw [hslot, List.append_assoc]
    rfl

/-! ### EVENT_BATCH -/

/-- The tenant, the step and the events of an EVENT_BATCH (Table 10.7). -/
def batchTenant (m : Msg) : Nat := bits (mword m 0) 44 40
def batchDue (m : Msg) : Nat := bits (mword m 0) 39 0
def batchCount (m : Msg) : Nat := bits (mword m 0) 55 50
def batchEvents (m : Msg) : List Nat := (List.range (batchCount m)).map (eventAt m)

/-- R217, R222: an admitted EVENT_BATCH is counted and dropped without the right, or its events come in turn. -/
theorem exec_eventBatch_admitted {s : State} {p : Fin 8} {m : Msg} (h : EventAt s p m) (hclk : s.frozen = false)
    (hfit : batchFits s m = true) :
    ∃ u, AdmitFrame s u ∧ exec (.eventBatch p m) s = .next (if !bit (s.tw 9 p 5) (batchTenant m) then evDrop u 10 (batchCount m)
      else remoteEvents u (batchTenant m) (batchDue m) (batchEvents m)) := by
  obtain ⟨u, hu, hhalt, hk⟩ := withEv_admits (bad := !batchFits s m) h (by rw [hfit]; rfl)
  have hright : u.tw 9 p 5 = s.tw 9 p 5 := by rw [hu]; rfl
  refine ⟨u, hu, ?_⟩
  show execEventBatch p m s = _
  unfold execEventBatch
  extract_lets w n
  rw [if_neg (by rw [hclk]; decide), hk, if_neg (by rw [hhalt]; decide), hright, remoteEvents, batchEvents, List.foldl_map]
  rfl

theorem batchFits_count {s : State} {m : Msg} (h : batchFits s m = true) : 1 ≤ batchCount m := by
  simp only [batchFits, Bool.and_eq_true, decide_eq_true_eq] at h
  obtain ⟨⟨⟨⟨⟨-, h⟩, -⟩, -⟩, -⟩, -⟩ := h
  exact h

theorem evDrop_reg {s : State} {cause n : Nat} (hn : 1 ≤ n) :
    (evDrop s cause n).reg (0x0790 + 4 * cause) = min (s.reg (0x0790 + 4 * cause) + n) (2 ^ 32 - 1) := by
  rw [evDrop, if_neg (by omega), State.bump_reg, if_pos rfl, sat32_eq_min]

theorem eventBatch_delivers_or_drops {s : State} {p : Fin 8} {m : Msg} (h : EventAt s p m) (hclk : s.frozen = false)
    (hfit : batchFits s m = true) :
    (bit (s.tw 9 p 5) (batchTenant m) = true → hubOn s = true → ∀ v, v < 64 → evEnabled s (batchTenant m) v = true →
      evRemote s v = true → s.isOn v = true →
       ∃ t, exec (.eventBatch p m) s = .next t ∧ t.mem = s.mem ∧ t.tacks = s.tacks ∧ t.epc = s.epc ∧
         (batchDue m = s.epc.count → delivOver s v = false →
           (t.vc v).extra = (s.vc v).extra ++ (List.range (batchCount m)).map (eventAt m)) ∧
         (s.epc.count < batchDue m → batchDue m ≤ s.epc.count + 16 →
           (delaySlot s v (batchDue m % 16)).length + batchCount m ≤ 4096 →
           delaySlot t v (batchDue m % 16) = delaySlot s v (batchDue m % 16) ++
             (List.range (batchCount m)).map fun i => { addr := eventAt m i, bit4 := bit (batchDue m) 4 })) ∧
    (bit (s.tw 9 p 5) (batchTenant m) = false →
       ∃ t, exec (.eventBatch p m) s = .next t ∧ t.vcs = s.vcs ∧
         t.reg 0x07B8 = min (s.reg 0x07B8 + batchCount m) (2 ^ 32 - 1) ∧ t.mem = s.mem) := by
  obtain ⟨u, hu, hexec⟩ := exec_eventBatch_admitted h hclk hfit
  have hsu := hu.workFrame
  have hvc : ∀ v, u.vc v = s.vc v := fun v => by rw [hu]; rfl
  have hslot : ∀ v i, delaySlot u v i = delaySlot s v i := fun v i => by rw [delaySlot, hvc, delaySlot]
  refine ⟨fun hright hhub v hv hen hrem hvon => ?_, fun hright => ?_⟩
  · rw [if_neg (by rw [hright]; decide)] at hexec
    have hrecv : Receives u (batchTenant m) v := by rw [hu]; exact ⟨hen, hrem, hhub, hvon⟩
    have ht := remoteEvents_eventFrame (batchTenant m) (batchDue m) (batchEvents m) u
    have hmem : (remoteEvents u (batchTenant m) (batchDue m) (batchEvents m)).mem = s.mem := by rw [ht]; exact hsu.mem
    have htacks : (remoteEvents u (batchTenant m) (batchDue m) (batchEvents m)).tacks = s.tacks := by rw [ht]; exact hsu.tacks
    have hepc : (remoteEvents u (batchTenant m) (batchDue m) (batchEvents m)).epc = s.epc := by rw [ht]; exact hsu.epc
    refine ⟨_, hexec, hmem, htacks, hepc, fun hdue hd => ?_, fun hlo hhi hroom => ?_⟩
    · have hd' : delivOver u v = false := by rw [hu]; exact hd
      have hjoin := remoteEvents_join hv (batchEvents m) u hrecv hd'
      rwa [hsu.epc, ← hdue, hvc] at hjoin
    · have hfiled := remoteEvents_filed (d := batchDue m) hv (batchEvents m) u hrecv (by rw [hsu.epc]; exact hlo)
        (by rw [hsu.epc]; exact hhi) (by rw [hslot, batchEvents, List.length_map, List.length_range]; exact hroom)
      rw [hfiled, hslot, batchEvents, List.map_map]
      rfl
  · rw [if_pos (by rw [hright]; rfl)] at hexec
    have hreg : u.reg 0x07B8 = s.reg 0x07B8 := by rw [hu]; rfl
    have ht := evDrop_eventFrame u 10 (batchCount m)
    refine ⟨_, hexec, ?_, ?_, ?_⟩
    · rw [evDrop, if_neg (by have := batchFits_count hfit; omega), hu]
      rfl
    · rw [← hreg]
      exact evDrop_reg (batchFits_count hfit)
    · rw [ht]
      exact hsu.mem

end Sys2Proof.Machine
end

section
/-! PROOFS. A write of one whole HBM line behind the other writes of its cc (R240, R242). -/

namespace Sys2Proof.Machine

theorem allBytes_length (bs : List Byte) : (allBytes bs).length = bs.length := List.length_map _

theorem overlay_allBytes {old bs : List Byte} (h : old.length = bs.length) : overlay old (allBytes bs) = bs := by
  induction bs generalizing old with
  | nil => exact List.zipWith_nil_right
  | cons b bs ih =>
    cases old with
    | nil => exact absurd h (by simp)
    | cons o old => exact congrArg (b :: ·) (ih (Nat.succ.inj h))

theorem isWhole_allBytes (bs : List Byte) : isWhole (allBytes bs) [] = true := by simp [isWhole, isFull, allBytes]

/-- R240: a whole write leaves its own bytes. -/
theorem CellWr.on_whole {p : CellWr} {c : Cell} {bs : List Byte} (hnew : p.new = allBytes bs) (hmask : p.mask = [])
    (hlen : c.bytes.length = bs.length) : (p.on c).bytes = bs := by
  rw [CellWr.on, hnew, hmask, if_pos (isWhole_allBytes bs)]
  exact overlay_allBytes hlen

/-- R242: with none behind it, a write is the last of its cell. -/
theorem ccPlace_last (p : CellWr) (c : Cell) :
    ∀ {ws : List CellWr}, ccBehind ws p.cell p.rank = false → (ccPlace p c ws).2 = p.on c
  | [], _ => rfl
  | x :: xs, h => by
    obtain ⟨hx, hxs⟩ : (x.cell == p.cell && decide (p.rank < x.rank)) = false ∧ ccBehind xs p.cell p.rank = false := by
      simpa only [ccBehind, List.any_cons, Bool.or_eq_false_iff] using h
    rw [ccPlace, if_neg (by simpa using hx)]
    exact ccPlace_last p c hxs

/-- R242: with no write behind it, an access finds the line as it stands. -/
theorem ccBefore_last {ws : List CellWr} {cell r : Nat} (now : Cell) (h : ccBehind ws cell r = false) :
    ccBefore ws cell r now = now := by
  have hnone : (ws.find? fun p => p.cell == cell && decide (r < p.rank)) = none :=
    List.find?_eq_none.2 (by simpa [ccBehind] using h)
  rw [ccBefore, hnone]

theorem placeLine_hbm (s : State) (p : CellWr) (c : Cell) :
    (placeLine s p c).mem.hbm = putBytes s.mem.hbm (p.cell * 64) ((ccPlace p c s.cc.hbm).2.bytes.take 64) := rfl

theorem placeLine_last_hbm {s : State} {p : CellWr} {c : Cell} {bs : List Byte} (hnew : p.new = allBytes bs)
    (hmask : p.mask = []) (hbs : bs.length = 64) (hc : c.bytes.length = 64)
    (hlast : ccBehind s.cc.hbm p.cell p.rank = false) :
    (placeLine s p c).mem.hbm = putBytes s.mem.hbm (p.cell * 64) bs := by
  rw [placeLine_hbm, ccPlace_last p c hlast, CellWr.on_whole hnew hmask (hc.trans hbs.symm), List.take_of_length_le hbs.le]

/-- R240: a whole line, written behind the other writes of its cc, is stored. -/
theorem writeLine_whole_hbm {s : State} {a : Agent} {l : Nat} {bs : List Byte} (poison : Bool) (hbs : bs.length = 64)
    (hon : hbmOn s l = true) (hlast : ccBehind s.cc.hbm l (hbmRank a) = false) :
    (writeLine s a l (allBytes bs) poison).mem.hbm = putBytes s.mem.hbm (l * 64) bs := by
  have hseen : (s.lineSeen (hbmRank a) l).bytes.length = 64 := by
    rw [State.lineSeen, ccBefore_last _ hlast]
    exact bytesAt_length _ _ _
  unfold writeLine
  extract_lets st ag c p s1 s2 s3
  rw [if_neg (by rw [hon]; decide)]
  have hs3 : s3 = s2 := if_pos (isWhole_allBytes bs)
  rw [hs3]
  split
  · exact placeLine_last_hbm rfl rfl hbs hseen hlast
  · exact placeLine_last_hbm rfl rfl hbs hseen hlast

/-- Bytes that begin a line and fill it are that line. -/
theorem cut_line {pa : Nat} {new : List (Option Byte)} (hpa : pa % 64 = 0) (hlen : new.length = 64) :
    cut 64 pa new = [(pa / 64, new)] := by
  have hline : pa / 64 * 64 = pa := by omega
  rw [cut, hpa, hlen]
  refine congrArg (fun x => [(pa / 64, x)]) (List.ext_getElem (by simp [hlen]) fun i h _ => ?_)
  have hi : i < new.length := by simpa [hlen] using h
  simp [hline, hi]

theorem bytesAt_putBytes_prefix (m : List (Nat × Byte)) (a : Nat) (bs rest : List Byte) :
    bytesAt (putBytes m a (bs ++ rest)) a bs.length = bs := by
  refine List.ext_getElem (bytesAt_length _ _ _) fun i h hi => ?_
  simp [bytesAt, mget_putBytes, hi, Nat.lt_add_right]

end Sys2Proof.Machine
end

section
/-! PROOFS. What stream ingress does: the DATA of an open frame, and the publication of a frame (R308, R310 to R312). -/

namespace Sys2Proof.Machine

/-! ### STREAM_DATA -/

/-- DATA written behind what the frame holds, up to the slot's end (R311). -/
def frameFit (s : State) (c : Nat) (f : Frame) (data : List Byte) : List Byte := data.take (strSlot s c - 64 - f.bytes)

/-- R311: DATA of an open frame is written, and counted; the frame's other fields stay. -/
theorem frameData_open {s : State} {c : Nat} {f : Frame} (data : List Byte) (hframe : (s.str c).frame = some f)
    (hdrop : f.drop = false) (hrefused : f.refusedWr = false) :
    ∃ w, ∃ g : Frame, WriteFrame s w ∧ frameData s c data = w.setStr c { s.str c with frame := some g } ∧
      g.bytes = f.bytes + (frameFit s c f data).length ∧ g.fseq = f.fseq ∧ g.index = f.index := by
  unfold frameData
  rw [hframe]
  dsimp only
  rw [if_neg (by simp [hdrop, hrefused]), ← frameFit]
  have hw := tenWrite_writeFrame s (strAgent s c) (strTen s c) (frameAt s c f.index + 64 + f.bytes)
    (allBytes (frameFit s c f data)) false
  generalize tenWrite s (strAgent s c) (strTen s c) (frameAt s c f.index + 64 + f.bytes) (allBytes (frameFit s c f data)) false = w at hw
  rw [State.modStr, hw.str]
  exact ⟨w.1, _, hw, rfl, rfl, rfl, rfl⟩

/-- R308, R309: a STREAM_DATA without FIRST or LAST that its channel's staging has room for is staged, and its DATA written. -/
theorem exec_streamData_admitted {s : State} {p : Fin 8} {m : Msg} (h : EventAt s p m)
    (hroom : stageRoom s (bits (mword m 0) 2 0) (msgFlits s p 3 m) = true) (hfit : streamFits s p m = true)
    (hmode : strEvent s (bits (mword m 0) 2 0) = false) (hfirst : bit (mword m 0) 8 = false)
    (hlast : bit (mword m 0) 9 = false) :
    ∃ u, u = { s with ports := u.ports, once := u.once, cc := u.cc } ∧
      exec (.streamData p m) s = .next (frameData u (bits (mword m 0) 2 0) (m.payload.drop 8)) := by
  obtain ⟨v, hv, hhalt, hk⟩ := withEv_admits (bad := !streamFits s p m) h (by rw [hfit]; rfl)
  refine ⟨stage v (bits (mword m 0) 2 0) (msgFlits s p 3 m), by rw [hv]; rfl, ?_⟩
  show execStreamData p m s = _
  unfold execStreamData
  extract_lets w c n fits
  rw [if_neg (by simp [fits, c, w, n, hroom]), hk]
  have hhalt' : (stage v c n).halted = false := hhalt
  have hmode' : strEvent (stage v c n) c = false := by rw [hv]; exact hmode
  rw [if_neg (by rw [hhalt']; decide), if_neg (by rw [hmode']; decide), if_neg (by simp [w, hlast]), if_neg (by simp [w, hfirst])]

theorem streamData_adds_to_frame {s : State} {p : Fin 8} {m : Msg} {f : Frame} (h : EventAt s p m)
    (hroom : stageRoom s (bits (mword m 0) 2 0) (msgFlits s p 3 m) = true) (hfit : streamFits s p m = true)
    (hmode : strEvent s (bits (mword m 0) 2 0) = false) (hfirst : bit (mword m 0) 8 = false)
    (hlast : bit (mword m 0) 9 = false)
    (hframe : (s.str (bits (mword m 0) 2 0)).frame = some f) (hdrop : f.drop = false) (hrefused : f.refusedWr = false) :
    let c := bits (mword m 0) 2 0
    ∃ t g, exec (.streamData p m) s = .next t ∧ (t.str c).frame = some g ∧
      g.bytes = f.bytes + min (m.payload.length - 8) (strSlot s c - 64 - f.bytes) ∧ g.fseq = f.fseq ∧ g.index = f.index ∧
      (t.str c).unpub = (s.str c).unpub ∧ (t.str c).wr = (s.str c).wr ∧ t.mem.sram = s.mem.sram ∧
      ∀ d, d ≠ c → t.str d = s.str d := by
  obtain ⟨u, hu, hexec⟩ := exec_streamData_admitted h hroom hfit hmode hfirst hlast
  generalize bits (mword m 0) 2 0 = c at hframe hexec ⊢
  intro _
  have hstr : ∀ d, u.str d = s.str d := fun d => by rw [hu]; rfl
  have hslot : strSlot u c = strSlot s c := by rw [hu]; rfl
  obtain ⟨w, g, hw, hdata, hbytes, hfseq, hindex⟩ := frameData_open (m.payload.drop 8) ((hstr c).symm ▸ hframe) hdrop hrefused
  have hsram : w.mem.sram = s.mem.sram := hw.2.trans (by rw [hu])
  rw [hdata] at hexec
  refine ⟨_, g, hexec, ?_, ?_, hfseq, hindex, ?_, ?_, hsram, fun d hd => ?_⟩
  · rw [State.setStr_str, if_pos rfl]
  · rw [hbytes, frameFit, List.length_take, List.length_drop, hslot, Nat.min_comm]
  · rw [State.setStr_str, if_pos rfl, hstr]
  · rw [State.setStr_str, if_pos rfl, hstr]
  · rw [State.setStr_str, if_neg (Ne.symm hd), hw.str, hstr]

/-! ### FRAME_PUBLISH -/

/-- R227: a line that lies in a window of a running tenant is written. -/
theorem tenWrite_line {s : State} {a : Agent} {t addr w : Nat} {bs : List Byte} (poison : Bool) (hbs : bs.length = 64)
    (hrun : s.tenRun t = true) (hwin : findWin s t addr 64 = some w) :
    tenWrite s a t addr (allBytes bs) poison = winWrite s a t w addr (allBytes bs) poison := by
  have hlen : (allBytes bs).length = 64 := (allBytes_length bs).trans hbs
  rw [tenWrite, if_neg (by simp [← List.length_eq_zero_iff, hlen]), if_neg (by simp [hrun]), hlen, hwin]

/-- R304: only a requester with a budget can find it spent. -/
theorem reqWrite_performed (s : State) {a : Agent} (t w : Nat) (ls : List LineWr) (hbudget : drawsBudget a = false) :
    (reqWrite s a t w ls).2 = false := by
  unfold reqWrite
  extract_lets
  rw [if_neg (by simp [hbudget])]

/-- R304, R323: an unprotected write has no budget and no journal. -/
theorem reqWrite_unprotected {s : State} (a : Agent) {t w : Nat} (ls : List LineWr) (hprot : winProt s t w = false) :
    (reqWrite s a t w ls).1 = ls.foldl (fun s x => writeLine s a x.line x.new x.poison x.mask) s := by
  simp [reqWrite, hprot]

/-- R227, R240: a whole line of an unprotected window, written behind the other writes of its cc, is stored. -/
theorem tenWrite_line_hbm {s : State} {a : Agent} {t addr w : Nat} {bs : List Byte} (poison : Bool) (hbs : bs.length = 64)
    (hrun : s.tenRun t = true) (hwin : findWin s t addr 64 = some w) (hprot : winProt s t w = false)
    (halign : paOf s t w addr % 64 = 0) (hon : hbmOn s (paOf s t w addr / 64) = true)
    (hlast : ccBehind s.cc.hbm (paOf s t w addr / 64) (hbmRank a) = false) :
    (tenWrite s a t addr (allBytes bs) poison).1.mem.hbm = putBytes s.mem.hbm (paOf s t w addr) bs := by
  rw [tenWrite_line poison hbs hrun hwin, winWrite, cut_line halign ((allBytes_length bs).trans hbs), reqWrite_unprotected a _ hprot]
  have hline : paOf s t w addr / 64 * 64 = paOf s t w addr := by omega
  exact (writeLine_whole_hbm poison hbs hon hlast).trans (by rw [hline])

/-- The WR line a publication writes: WR and DROP_FULL (R310). -/
def wrLine (wr dropFull : Nat) : List Byte := leBytes 4 wr ++ leBytes 4 dropFull ++ List.replicate 56 0

theorem wrLine_length (wr dropFull : Nat) : (wrLine wr dropFull).length = 64 := by simp [wrLine, leBytes_length]

theorem bytesAt_wrLine (m : List (Nat × Byte)) (a wr dropFull : Nat) :
    bytesAt (putBytes m a (wrLine wr dropFull)) a 8 = leBytes 4 wr ++ leBytes 4 dropFull := by
  have h := bytesAt_putBytes_prefix m a (leBytes 4 wr ++ leBytes 4 dropFull) (List.replicate 56 0)
  rwa [List.length_append, leBytes_length, leBytes_length] at h

/-- The state whose channel `c` has published its oldest entry `u` (R312). -/
def publishedFrom (s : State) (c : Nat) (u : Unpub) (rest : List Unpub) : State :=
  s.setStr c { s.str c with
    wr := ((s.str c).wr + u.n) % 2 ^ 32, unpub := rest, written := sat32 ((s.str c).written + 1) }

/-- The write of the WR line of channel `c`'s ring, which the entry in force in `o` names (R310, R312). -/
def wrWrite (s o : State) (c : Nat) (bs : List Byte) : State × Bool :=
  tenWrite s (strAgent o c) (strTen o c) (strBase o c) (allBytes bs) false

/-- FTACK of the entry in force in `o` gains 1 where that entry asks for it and the WR line was written (R312). -/
def ftackUpdate (o : State) (c : Nat) (w : State × Bool) : State :=
  if bit (o.tf 0x0B c 0) 15 && !w.2 then tackUpdate w.1 (80 + 2 * strPort o c + 1) (o.tfB 0x0B c 0 9 0) false 1 else w.1

theorem ftackUpdate_keeps (o : State) (c : Nat) (w : State × Bool) :
    ftackUpdate o c w = { w.1 with tackUpd := (ftackUpdate o c w).tackUpd } := by
  unfold ftackUpdate
  split <;> rfl

theorem ftackUpdate_without {o : State} {c : Nat} {w : State × Bool} (h : bit (o.tf 0x0B c 0) 15 = false) :
    ftackUpdate o c w = w.1 := if_neg (by rw [h, Bool.false_and]; exact Bool.false_ne_true)

theorem ftackUpdate_with {o : State} {c : Nat} {w : State × Bool} (h : bit (o.tf 0x0B c 0) 15 = true) (hw : w.2 = false) :
    ftackUpdate o c w = tackUpdate w.1 (80 + 2 * strPort o c + 1) (o.tfB 0x0B c 0 9 0) false 1 :=
  if_pos (by rw [h, hw]; rfl)

/-- R312: with every line acknowledged the oldest entry is published, its WR line written, its FTACK updated. -/
theorem exec_framePublish_due {s : State} {c : Fin 8} {u : Unpub} {rest : List Unpub} (hunpub : (s.str c).unpub = u :: rest)
    (hlive : s.live = true) (hacc : noAcc s (.stream c) = true) :
    exec (.framePublish c) s = .next (ftackUpdate (strView s c u.words) c
      (wrWrite (publishedFrom s c u rest) (strView s c u.words) c (wrLine (((s.str c).wr + u.n) % 2 ^ 32) (s.str c).dropFull))) := by
  show execFramePublish c s = _
  unfold execFramePublish
  extract_lets x
  rw [show x.unpub = u :: rest from hunpub]
  dsimp only
  rw [if_neg (by simp [hlive, hacc])]
  rfl

theorem publishedFrom_str (s : State) (c : Nat) (u : Unpub) (rest : List Unpub) :
    (publishedFrom s c u rest).str c = { s.str c with
      wr := ((s.str c).wr + u.n) % 2 ^ 32, unpub := rest, written := sat32 ((s.str c).written + 1) } := by
  rw [publishedFrom, State.setStr_str, if_pos rfl]

/-- What the WR line's write does when its ring lies in window `w`: it is performed, and the whole line stored where nothing protects
it and no other write of the cc follows. -/
theorem wrWrite_publishes (s o : State) (c w : Nat) (u : Unpub) (rest : List Unpub) {line : List Byte} (hlen : line.length = 64)
    (hrun : s.tenRun (strTen o c) = true) (hwin : findWin s (strTen o c) (strBase o c) 64 = some w) :
    (wrWrite (publishedFrom s c u rest) o c line).2 = false ∧
    ∀ pa, paOf s (strTen o c) w (strBase o c) = pa → winProt s (strTen o c) w = false → pa % 64 = 0 →
      s.eff (88 + stackOf pa) = 3 → ccBehind s.cc.hbm (pa / 64) (hbmRank (strAgent o c)) = false →
      (wrWrite (publishedFrom s c u rest) o c line).1.mem.hbm = putBytes s.mem.hbm pa line := by
  refine ⟨?_, ?_⟩
  · rw [wrWrite, tenWrite_line (s := publishedFrom s c u rest) (w := w) false hlen hrun hwin]
    exact reqWrite_performed _ _ _ _ rfl
  · rintro pa rfl hprot halign heff hbehind
    have hline : paOf s (strTen o c) w (strBase o c) / 64 * 64 = paOf s (strTen o c) w (strBase o c) := by omega
    have hon : hbmOn s (paOf s (strTen o c) w (strBase o c) / 64) = true := by rw [hbmOn, hline, heff]; rfl
    exact tenWrite_line_hbm (s := publishedFrom s c u rest) (w := w) false hlen hrun hwin hprot halign hon hbehind

theorem framePublish_advances (s : State) (c : Fin 8) (u : Unpub) (rest : List Unpub) (hunpub : (s.str c).unpub = u :: rest)
    (hlive : s.live = true) (hacc : noAcc s (.stream c) = true) :
    let o := strView s c u.words
    ∃ t, exec (.framePublish c) s = .next t ∧ (t.str c).wr = ((s.str c).wr + u.n) % 2 ^ 32 ∧ (t.str c).unpub = rest ∧
      (t.str c).written = min ((s.str c).written + 1) (2 ^ 32 - 1) ∧ (bit (o.tf 0x0B c 0) 15 = false → t.tackUpd = s.tackUpd) ∧
      t.tacks = s.tacks ∧ t.mem.sram = s.mem.sram ∧
      (∀ w pa, s.tenRun (strTen o c) = true → findWin s (strTen o c) (strBase o c) 64 = some w → paOf s (strTen o c) w (strBase o c) = pa →
        (bit (o.tf 0x0B c 0) 15 = true → t.tackUpd = s.tackUpd ++
          [{ due := s.now + 2, rank := 80 + 2 * strPort o c + 1, tack := o.tfB 0x0B c 0 9 0, write := false, value := 1 }]) ∧
        (winProt s (strTen o c) w = false → pa % 64 = 0 → s.eff (88 + stackOf pa) = 3 →
          ccBehind s.cc.hbm (pa / 64) (hbmRank (strAgent o c)) = false →
          bytesAt t.mem.hbm pa 8 = leBytes 4 (t.str c).wr ++ leBytes 4 (s.str c).dropFull)) := by
  intro o
  have hexec := exec_framePublish_due hunpub hlive hacc
  have hlen := wrLine_length (((s.str c).wr + u.n) % 2 ^ 32) (s.str c).dropFull
  have hbytes := fun m pa => bytesAt_wrLine m pa (((s.str c).wr + u.n) % 2 ^ 32) (s.str c).dropFull
  generalize wrLine (((s.str c).wr + u.n) % 2 ^ 32) (s.str c).dropFull = line at hexec hlen hbytes
  have hpub := fun w => wrWrite_publishes s o c w u rest hlen
  have hframe : WriteFrame (publishedFrom s c u rest) (wrWrite (publishedFrom s c u rest) o c line).1 :=
    tenWrite_writeFrame _ _ _ _ _ _
  change exec (.framePublish c) s = .next (ftackUpdate o c (wrWrite (publishedFrom s c u rest) o c line)) at hexec
  generalize wrWrite (publishedFrom s c u rest) o c line = x at hexec hpub hframe
  have hkeeps := ftackUpdate_keeps o c x
  have hstr : (ftackUpdate o c x).str c = (publishedFrom s c u rest).str c := by
    rw [hkeeps]
    exact hframe.str c
  rw [publishedFrom_str] at hstr
  have hmem : (ftackUpdate o c x).mem = x.1.mem := by rw [hkeeps]
  have htacks : (ftackUpdate o c x).tacks = s.tacks := by rw [hkeeps]; exact hframe.tacks
  refine ⟨_, hexec, (congrArg StrSt.wr hstr :), (congrArg StrSt.unpub hstr :), (congrArg StrSt.written hstr :).trans (sat32_eq_min _),
    fun hquiet => ?_, htacks, ?_, fun w pa hrun hwin hpa => ⟨fun hftack => ?_, fun hprot halign heff hbehind => ?_⟩⟩
  · rw [ftackUpdate_without hquiet]
    exact hframe.tackUpd
  · rw [hmem]
    exact hframe.2
  · obtain ⟨hdone, -⟩ := hpub w hrun hwin
    rw [ftackUpdate_with hftack hdone, tackUpdate, hframe.tackUpd, hframe.now]
    rfl
  · obtain ⟨-, hstored⟩ := hpub w hrun hwin
    rw [hmem, hstored pa hpa hprot halign heff hbehind, hbytes, hstr]

/-! ### O54 -/

/-- Settles O54: each message, once admitted, is the update, trigger, events, data or publication of its rule. -/
theorem partnerMessagesTakeEffect : Obligations.PartnerMessagesTakeEffect := by
  refine ⟨fun s p m hon hup hrx hhalt hsrc hstatus hfault hroom hquota => ⟨?_, ?_⟩,
    fun s p m hon hup hrx hhalt hclk hfit hstatus hfault => ?_, fun s => ⟨?_, framePublish_advances s⟩⟩
  · exact tackSet_updates_or_refuses ⟨hon, hup, hrx, hhalt, hsrc, hstatus, hfault, hroom⟩ hquota
  · exact epochCtrl_triggers_or_not ⟨hon, hup, hrx, hhalt, hsrc, hstatus, hfault, hroom⟩
  · exact eventBatch_delivers_or_drops ⟨hon, hup, hrx, hhalt, hstatus, hfault⟩ hclk hfit
  · rintro p m c f hon hup hrx hhalt hroom hfit hstatus hfault rfl
    exact streamData_adds_to_frame ⟨hon, hup, hrx, hhalt, hstatus, hfault⟩ hroom hfit

end Sys2Proof.Machine
end

section
/-! PROOFS. What the queue engine does to the record of a queue: its stop, the issue of a descriptor, where its chain goes on. -/

namespace Sys2Proof.Machine

/-! ### Frames of the queue engine -/

/-- Between `s` and `t` only what reports, answers and the issue of a descriptor touch has changed, and queue records: memory,
tacks, the count of cc, tables, Cobblers, VCs and Awl units are as before. -/
def EngineFrame (s t : State) : Prop :=
  t = { s with regs := t.regs, flt := t.flt, trc := t.trc, tens := t.tens, queues := t.queues, ports := t.ports
               freeCtr := t.freeCtr, cc := t.cc, issue := t.issue, lastTen := t.lastTen }

/-- Between `s` and `t` only ports and free values have changed: what the answers of chains do. -/
def AnswerFrame (s t : State) : Prop := t = { s with ports := t.ports, freeCtr := t.freeCtr }

/-- Between `s` and `t` only registers, fault and trace records, tenants and what is noted of the cc have changed: what a report
does. -/
def NoteFrame (s t : State) : Prop := t = { s with regs := t.regs, flt := t.flt, trc := t.trc, tens := t.tens, cc := t.cc }

namespace EngineFrame

theorem refl (s : State) : EngineFrame s s := rfl

theorem trans {s t u : State} (h : EngineFrame s t) (k : EngineFrame t u) : EngineFrame s u := by
  unfold EngineFrame at h k
  rw [h] at k
  exact k

theorem ite {s t u : State} {c : Prop} [Decidable c] (ht : EngineFrame s t) (hu : EngineFrame s u) :
    EngineFrame s (if c then t else u) := by
  split <;> assumption

theorem mem {s t : State} (h : EngineFrame s t) : t.mem = s.mem := by rw [h]
theorem tacks {s t : State} (h : EngineFrame s t) : t.tacks = s.tacks := by rw [h]
theorem now {s t : State} (h : EngineFrame s t) : t.now = s.now := by rw [h]

end EngineFrame

namespace AnswerFrame

theorem refl (s : State) : AnswerFrame s s := rfl

theorem trans {s t u : State} (h : AnswerFrame s t) (k : AnswerFrame t u) : AnswerFrame s u := by
  unfold AnswerFrame at h k
  rw [h] at k
  exact k

theorem ite {s t u : State} {c : Prop} [Decidable c] (ht : AnswerFrame s t) (hu : AnswerFrame s u) :
    AnswerFrame s (if c then t else u) := by
  split <;> assumption

/-- What every step of a fold keeps, its end keeps. -/
theorem foldl {α : Type} {f : State → α → State} (hf : ∀ s x, AnswerFrame s (f s x)) :
    ∀ (l : List α) (s : State), AnswerFrame s (l.foldl f s)
  | [], s => refl s
  | x :: l, s => (hf s x).trans (foldl hf l (f s x))

theorem q {s t : State} (h : AnswerFrame s t) (r : Nat) : t.q r = s.q r := by rw [h]; rfl
theorem flt {s t : State} (h : AnswerFrame s t) : t.flt = s.flt := by rw [h]

theorem engineFrame {s t : State} (h : AnswerFrame s t) : EngineFrame s t := by
  unfold AnswerFrame at h
  rw [h]
  rfl

end AnswerFrame

namespace NoteFrame

theorem trans {s t u : State} (h : NoteFrame s t) (k : NoteFrame t u) : NoteFrame s u := by
  unfold NoteFrame at h k
  rw [h] at k
  exact k

theorem q {s t : State} (h : NoteFrame s t) (r : Nat) : t.q r = s.q r := by rw [h]; rfl

theorem engineFrame {s t : State} (h : NoteFrame s t) : EngineFrame s t := by
  unfold NoteFrame at h
  rw [h]
  rfl

end NoteFrame

theorem TraceFrame.noteFrame {s t : State} (h : TraceFrame s t) : NoteFrame s t := by
  unfold TraceFrame at h
  rw [h]
  rfl

theorem TraceFrame.flt {s t : State} (h : TraceFrame s t) : t.flt = s.flt := by rw [h]

/-! ### Records and answers -/

theorem modQ_engineFrame (s : State) (q : Nat) (f : QueueSt → QueueSt) : EngineFrame s (s.modQ q f) := rfl
theorem modFlight_engineFrame (s : State) (q n : Nat) (f : Flight → Flight) : EngineFrame s (s.modFlight q n f) := rfl
theorem chainFault_engineFrame (s : State) (q c : Nat) : EngineFrame s (chainFault s q c) := rfl

@[simp] theorem State.modQ_q (s : State) (i j : Nat) (f : QueueSt → QueueSt) :
    (s.modQ i f).q j = if i = j then f (s.q i) else s.q j :=
  State.setQ_q s i j _

@[simp] theorem State.modFlight_q (s : State) (i j n : Nat) (f : Flight → Flight) :
    (s.modFlight i n f).q j =
      if i = j then { s.q i with flight := (s.q i).flight.map fun y => if y.seq = n then f y else y } else s.q j :=
  State.modQ_q s i j _

theorem chainFault_q (s : State) (q c r : Nat) :
    (chainFault s q c).q r = { s.q r with chain := ((chainFault s q c).q r).chain, owed := ((chainFault s q c).q r).owed } := by
  unfold chainFault
  extract_lets up
  rw [State.modQ_q]
  split
  · rename_i h
    subst h
    rfl
  · rfl

/-- R405: a trace record of a tenant that is traced. -/
theorem traceTen_traceFrame (s : State) (tag kind t q d : Nat) : TraceFrame s (traceTen s tag kind t q d) := by
  unfold traceTen
  split
  · exact traceAdd_traceFrame s tag kind t q d
  · rfl

/-- The record as it is written: with the TIME and EPOCH of its cc. -/
def stamped (s : State) (r : FaultRec) : FaultRec := { r with time := s.ccnt, epoch := s.epc.count }

theorem recordFault_noteFrame (s : State) (r : FaultRec) : NoteFrame s (recordFault s r) := by
  unfold recordFault
  extract_lets r1 flt s1
  have h1 : NoteFrame s s1 := rfl
  split
  · exact h1.trans (NoteFrame.trans (show NoteFrame s1 (s1.modTen r1.tenant fun t => { t with faults := sat32 (t.faults + 1) }) from rfl)
      (traceTen_traceFrame _ _ _ _ _ _).noteFrame)
  · exact h1

theorem recordFault_due (s : State) (r : FaultRec) :
    (recordFault s r).flt.due = faultInsert (s.now + 4, stamped s r) s.flt.due := by
  unfold recordFault
  extract_lets r1 flt s1
  have h1 : s1.flt.due = faultInsert (s.now + 4, stamped s r) s.flt.due := rfl
  split
  · rw [(traceTen_traceFrame _ _ _ _ _ _).flt]
    exact h1
  · exact h1

theorem mem_faultInsert (r : Nat × FaultRec) (l : List (Nat × FaultRec)) : r ∈ faultInsert r l := by
  induction l with
  | nil => exact List.mem_singleton.2 rfl
  | cons x xs ih =>
    unfold faultInsert
    split
    · exact List.mem_cons_of_mem x ih
    · exact List.mem_cons_self

/-- R395, R398: the record is on its way to the FIFO. -/
theorem recordFault_mem_due (s : State) (r : FaultRec) : (s.now + 4, stamped s r) ∈ (recordFault s r).flt.due := by
  rw [recordFault_due]
  exact mem_faultInsert _ _

theorem pushRsp_answerFrame (s : State) (p : Nat) (m : Msg) (heads units : Nat) : AnswerFrame s (pushRsp s p m heads units) :=
  .ite rfl rfl

theorem submitRsp_answerFrame (s : State) (q : Nat) (c : Chain) (status phase tag epoch : Nat) :
    AnswerFrame s (submitRsp s q c status phase tag epoch) := by
  unfold submitRsp
  split
  · exact .refl s
  · exact .ite (.refl s) (pushRsp_answerFrame s _ _ _ _)

theorem retireAnswer_answerFrame (s : State) (q : Nat) (c : Chain) (status tag : Nat) :
    AnswerFrame s (retireAnswer s q c status tag) :=
  .ite (submitRsp_answerFrame s q c _ _ _ _) (.refl s)

theorem answerHead_answerFrame (s : State) (q : Nat) (c : Chain) : AnswerFrame s (answerHead s q c) := by
  unfold answerHead
  split
  · exact retireAnswer_answerFrame s q c _ _
  · exact AnswerFrame.trans (t := s.tick1) rfl (retireAnswer_answerFrame _ q c _ _)

/-- R55: answering the heads of a FIFO changes of the queues that FIFO alone. -/
theorem answerFifo_engineFrame (s : State) (q : Nat) : EngineFrame s (answerFifo s q) := by
  unfold answerFifo
  exact (AnswerFrame.foldl (fun u c => answerHead_answerFrame u q c) _ s).engineFrame.trans (modQ_engineFrame _ q _)

theorem answerFifo_q (s : State) (q r : Nat) : (answerFifo s q).q r = { s.q r with fifo := ((answerFifo s q).q r).fifo } := by
  have h := (AnswerFrame.foldl (fun u c => answerHead_answerFrame u q c) (s.q q).fifo s).q
  unfold answerFifo
  extract_lets u
  rw [State.modQ_q, h, h]
  split
  · rename_i hq
    subst hq
    rfl
  · rfl

theorem answerFifo_flt (s : State) (q : Nat) : (answerFifo s q).flt = s.flt :=
  (AnswerFrame.foldl (fun u c => answerHead_answerFrame u q c) (s.q q).fifo s).flt

/-! ### A queue stops -/

/-- A queue record after its queue has stopped: nothing is fetched, no chain runs; heads in the FIFO and the counts of chains
owed aside, the rest is as before. -/
def Halted (x y : QueueSt) : Prop :=
  y = { x with fifo := y.fifo, owed := y.owed, stopped := true, chain := none, fetch := [], next := none }

theorem Halted.stopped {x y : QueueSt} (h : Halted x y) : y.stopped = true := by rw [h]
theorem Halted.flight {x y : QueueSt} (h : Halted x y) : y.flight = x.flight := by rw [h]

theorem stopQueue_engineFrame (s : State) (q tag : Nat) : EngineFrame s (stopQueue s q tag) := by
  unfold stopQueue
  extract_lets u
  have hu : EngineFrame s u := by
    unfold u
    split
    · exact .refl s
    · exact (retireAnswer_answerFrame s q _ _ _).engineFrame
  exact hu.trans ((answerFifo_engineFrame u q).trans (modQ_engineFrame _ q _))

/-- R47, R55: a stop answers; of the queue records it changes that queue's alone. -/
theorem stopQueue_halts (s : State) (q tag : Nat) :
    Halted (s.q q) ((stopQueue s q tag).q q) ∧ (stopQueue s q tag).flt = s.flt := by
  unfold stopQueue
  extract_lets u
  have hu : AnswerFrame s u := by
    unfold u
    split
    · exact .refl s
    · exact retireAnswer_answerFrame s q _ _ _
  refine ⟨?_, (answerFifo_flt u q).trans hu.flt⟩
  rw [State.modQ_q, if_pos rfl, answerFifo_q u q q, hu.q q]
  rfl

/-- The record of a fault of level QUEUE found by the queue engine (R397). -/
def queueRecord (s : State) (q code tag detail : Nat) : FaultRec :=
  { tag := tag, code := code, unit := 103, tenant := s.qTen q, tv := true, queue := q, qv := true, level := 2, detail := detail }

theorem queueFault_engineFrame (s : State) (q code tag detail : Nat) : EngineFrame s (queueFault s q code tag detail) := by
  unfold queueFault
  extract_lets s1 s2
  have h1 : EngineFrame s s1 := (recordFault_noteFrame s _).engineFrame
  have h2 : EngineFrame s s2 := by
    unfold s2
    split
    · exact h1
    · exact h1.trans (chainFault_engineFrame s1 q _)
  exact h2.trans (stopQueue_engineFrame s2 q tag)

/-- R47, R397: a fault of level QUEUE stops its queue, and its record is on its way. -/
theorem queueFault_halts (s : State) (q code tag detail : Nat) :
    Halted (s.q q) ((queueFault s q code tag detail).q q) ∧
    ∃ e, e ∈ (queueFault s q code tag detail).flt.due ∧ e.2 = stamped s (queueRecord s q code tag detail) := by
  unfold queueFault
  extract_lets s1 s2
  have hq1 : s1.q q = s.q q := (recordFault_noteFrame s _).q q
  have h2 : s2.q q = { s.q q with chain := (s2.q q).chain, owed := (s2.q q).owed } ∧ s2.flt = s1.flt := by
    unfold s2
    split
    · exact ⟨by rw [hq1], rfl⟩
    · exact ⟨by rw [chainFault_q, hq1], rfl⟩
  obtain ⟨hq2, hflt2⟩ := h2
  obtain ⟨hhalt, hflt⟩ := stopQueue_halts s2 q tag
  refine ⟨?_, (s.now + 4, stamped s (queueRecord s q code tag detail)), ?_, rfl⟩
  · unfold Halted at hhalt ⊢
    rw [hq2] at hhalt
    exact hhalt
  · rw [hflt, hflt2]
    exact recordFault_mem_due s _

end Sys2Proof.Machine
end

section
/-! PROOFS. The issue of a descriptor, and where its queue goes on (R45, R63, R81 to R83). -/

namespace Sys2Proof.Machine

/-! ### The issue -/

/-- The descriptor in flight that an issue makes of a front descriptor, before what its opcode adds. -/
def issuedFlight (s : State) (q : Nat) (fr : Front) : Flight :=
  let e := if s.qTimed q then ([], 0) else sbEntries q (s.q q) fr.w fr.ps
  { seq := (s.q q).nextSeq, words := fr.w, wrote := fr.f.wrote, recs := fr.f.recs, chain := fr.f.chain, issued := s.now, params := fr.ps
    entries := e.1, need := e.2 }

/-- A queue record after its front descriptor has issued in cc `now` as `f`: of the rest its credit alone may differ. -/
def Issued (now : Nat) (f : Flight) (x y : QueueSt) : Prop :=
  y = { x with credit := y.credit, fetch := x.fetch.drop 1, flight := x.flight ++ [f], nextSeq := x.nextSeq + 1, base := now }

/-- Between `s` and `t` of the queue records only credits have changed. -/
def CreditFrame (s t : State) : Prop :=
  EngineFrame s t ∧ ∀ r, t.q r = { s.q r with credit := (t.q r).credit }

theorem CreditFrame.refl (s : State) : CreditFrame s s := ⟨.refl s, fun _ => rfl⟩

theorem CreditFrame.trans {s t u : State} (h : CreditFrame s t) (k : CreditFrame t u) : CreditFrame s u := by
  obtain ⟨h, hq⟩ := h
  obtain ⟨k, kq⟩ := k
  refine ⟨h.trans k, fun r => ?_⟩
  rw [kq r, hq r]

theorem CreditFrame.foldl {α : Type} {f : State → α → State} (hf : ∀ s x, CreditFrame s (f s x)) :
    ∀ (l : List α) (s : State), CreditFrame s (l.foldl f s)
  | [], s => refl s
  | x :: l, s => (hf s x).trans (foldl hf l (f s x))

theorem setCredit_creditFrame (s : State) (q : Nat) (f : QueueSt → Nat) :
    CreditFrame s (s.modQ q fun x => { x with credit := f x }) := by
  refine ⟨modQ_engineFrame s q _, fun r => ?_⟩
  rw [State.modQ_q]
  split
  · rename_i h
    subst h
    rfl
  · rfl

/-- R62: a grant changes credits, and the tenant granted last. -/
theorem grant_creditFrame (s : State) (q : Nat) : CreditFrame s (grant s q) := by
  unfold grant
  extract_lets t load u
  have hu : CreditFrame s u := by
    unfold u
    split
    · exact .foldl (fun v r => setCredit_creditFrame v r fun _ => queueWeight v r) _ s
    · exact .refl s
  exact hu.trans ((setCredit_creditFrame u q fun x => x.credit - 1).trans ⟨rfl, fun _ => rfl⟩)

theorem noteIssue_creditFrame (s : State) (q : Nat) : CreditFrame s (noteIssue s q) := ⟨rfl, fun _ => rfl⟩
theorem bump_creditFrame (s : State) (k n : Nat) : CreditFrame s (s.bump k n) := ⟨rfl, fun _ => rfl⟩

theorem TraceFrame.creditFrame {s t : State} (h : TraceFrame s t) : CreditFrame s t :=
  ⟨h.noteFrame.engineFrame, fun r => by rw [h.noteFrame.q r]⟩

/-- R63, R66, R69: the front descriptor is in flight, behind those of its queue, and gone from the front. -/
theorem issueIt_issues (s : State) (q : Nat) (fr : Front) (mk : Flight → Flight) :
    EngineFrame s (issueIt s q fr mk) ∧ Issued s.now (mk (issuedFlight s q fr)) (s.q q) ((issueIt s q fr mk).q q) := by
  unfold issueIt
  extract_lets x timed e fl s1 s2 s3
  have h2 : CreditFrame s s2 := by
    refine (noteIssue_creditFrame s q).trans ?_
    unfold s2
    split
    · exact bump_creditFrame s1 _ _
    · exact grant_creditFrame s1 q
  have h4 : CreditFrame s3 (if dTrace fr.w = true then traceTen s3 (tagOf fr.w) 1 (s3.qTen q) q (dOpcode fr.w) else s3) := by
    split
    · exact (traceTen_traceFrame s3 _ _ _ _ _).creditFrame
    · exact .refl s3
  obtain ⟨h2, hq2⟩ := h2
  obtain ⟨h4, hq4⟩ := h4
  refine ⟨h2.trans ((modQ_engineFrame s2 q _).trans h4), ?_⟩
  have hq3 : s3.q q = { s2.q q with fetch := (s2.q q).fetch.drop 1, flight := (s2.q q).flight ++ [fl]
                                    nextSeq := (s2.q q).nextSeq + 1, base := s2.now } := by
    unfold s3
    rw [State.modQ_q, if_pos rfl]
  unfold Issued
  rw [hq4 q, hq3, hq2 q, h2.now]
  rfl

/-- R48: a front descriptor that passes the checks made at issue does what its opcode says. -/
theorem startIssue_due {s : State} {q op : Nat} {fr : Front} (hfront : frontOf s q = some fr) (hop : dOpcode fr.w = op)
    (hbad : issueBad s q fr = none) (k : Front → State) : startIssue op q s k = .next (k fr) := by
  rw [startIssue, hfront]
  dsimp only
  rw [if_neg (not_not_intro hop), hbad]

/-! ### Where the queue goes on -/

theorem goTo_engineFrame (s : State) (q a tag : Nat) : EngineFrame s (goTo s q a tag) := rfl
theorem lastTakes_engineFrame (s : State) (q : Nat) : EngineFrame s (lastTakes s q) := rfl
theorem endChain_engineFrame (s : State) (q n : Nat) : EngineFrame s (endChain s q n) := rfl

theorem goWhere_engineFrame (s : State) (q n tag : Nat) (o : Option Nat) : EngineFrame s (goWhere s q n tag o) := by
  cases o with
  | none => exact endChain_engineFrame s q n
  | some a => exact goTo_engineFrame s q a tag

theorem goLast_engineFrame (s : State) (q n tag : Nat) : EngineFrame s (goLast s q n tag) :=
  (lastTakes_engineFrame s q).trans (goWhere_engineFrame _ q n tag _)

theorem goNext_engineFrame (s : State) (q n : Nat) (w : List Nat) : EngineFrame s (goNext s q n w) :=
  .ite (goLast_engineFrame s q n _) (goTo_engineFrame s q _ _)

@[simp] theorem goTo_q (s : State) (q a tag : Nat) :
    (goTo s q a tag).q q = { s.q q with next := some (a, tag), nextAt := s.now + 1 } := by
  rw [goTo, State.modQ_q, if_pos rfl]

/-- The counters after the LAST of a loop's body has decided (R82). -/
def cntAfter (cnt : List Nat) (o : Option (Nat × Nat)) : List Nat := match o with | some c => cnt.set c.1 c.2 | none => cnt

@[simp] theorem lastTakes_q (s : State) (q : Nat) :
    (lastTakes s q).q q = { s.q q with loops := (lastGoes (s.q q).loops).2.1
                                       cnt := cntAfter (s.q q).cnt (lastGoes (s.q q).loops).2.2 } := by
  rw [lastTakes, State.modQ_q, if_pos rfl]
  rfl

/-- Descriptor `n` marked as the last of its chain. -/
def markEnd (n : Nat) (fs : List Flight) : List Flight := fs.map fun f => if f.seq = n then { f with ends := true } else f

@[simp] theorem endChain_q (s : State) (q n : Nat) :
    (endChain s q n).q q = { s.q q with flight := markEnd n (s.q q).flight, chain := none, owed := (s.q q).owed ++ (s.q q).chain.toList
                                        fetch := [], next := none, loops := [] } := by
  rw [endChain, State.modQ_q, if_pos rfl, State.modFlight_q, if_pos rfl]
  rfl

/-- R45: LAST outside every loop ends the chain. -/
theorem goLast_outside {s : State} {q : Nat} (n tag : Nat) (h : (s.q q).loops = []) :
    goLast s q n tag = endChain (lastTakes s q) q n := by
  rw [goLast, h]
  rfl

/-- R82: the LAST of a body whose loop has turns left goes round again. -/
theorem lastGoes_round {o : LoopEntry} (os : List LoopEntry) (h : 1 < o.left) : lastGoes (o :: os) =
    (some o.body, { o with left := o.left - 1, iter := o.iter + 1 } :: os,
      if o.idx ≤ 7 then some (o.idx, (o.iter + 1) % 2 ^ 32) else none) :=
  if_pos h

/-- R82: the LAST of a body on its last turn leaves the loop. -/
theorem lastGoes_leave {o : LoopEntry} (os : List LoopEntry) (h : o.left ≤ 1) : lastGoes (o :: os) = (o.next, os, none) :=
  if_neg (Nat.not_lt.2 h)

/-! ### LOOP -/

/-- The address at which a LOOP's body begins, and the counter it names (R81). -/
def loopBody (fr : Front) : Nat := bits (fr.ps.getD 0 0) 39 0
def loopIdx (fr : Front) : Nat := bits (fr.ps.getD 1 0) 15 8

/-- A LOOP in flight: it is complete as it issues. -/
def issuedDone (s : State) (q : Nat) (fr : Front) : State := issueIt s q fr fun f => { f with complete := true }

/-- What a LOOP with LAST has decided of the loop around it as it issues (R82). -/
def lastTaken (fr : Front) (u : State) (q : Nat) : State := if dLast fr.w then lastTakes u q else u

/-- Where a descriptor leads its queue as it issues: to its NEXT, or with LAST where the innermost loop decides; a LOOP leaves its
own loop to there. -/
def leadsTo (x : QueueSt) (fr : Front) : Option Nat := if dLast fr.w then (lastGoes x.loops).1 else some (dNext fr.w)

/-- R81: a LOOP with turns to make, in flight, has pushed its entry and started its counter. -/
def loopPushed (s : State) (q : Nat) (fr : Front) (n : Nat) : State :=
  (lastTaken fr (issuedDone s q fr) q).modQ q fun x =>
    { x with loops := { left := n, body := loopBody fr, idx := loopIdx fr, next := leadsTo (s.q q) fr } :: x.loops
             cnt := if loopIdx fr ≤ 7 then x.cnt.set (loopIdx fr) 0 else x.cnt }

/-- R81: the turns a LOOP is to make. -/
def loopTurns (s : State) (q : Nat) (fr : Front) : Nat := loopCount (s.q q) (fr.ps.getD 1 0)

theorem exec_loop_due {s : State} {q : Fin 64} {fr : Front} (hfront : frontOf s q = some fr) (hop : dOpcode fr.w = 0x01)
    (hbad : issueBad s q fr = none) :
    exec (.loop q) s = .next (
      if loopTurns s q fr ≠ 0 ∧ 4 ≤ (s.q q).loops.length then queueFault s q 0x06 (tagOf fr.w) 0
      else if loopTurns s q fr = 0 then goNext (issuedDone s q fr) q (lastSeq (issuedDone s q fr) q) fr.w
      else goTo (loopPushed s q fr (loopTurns s q fr)) q (loopBody fr) (tagOf fr.w)) :=
  startIssue_due hfront hop hbad _

theorem issuedDone_engineFrame (s : State) (q : Nat) (fr : Front) : EngineFrame s (issuedDone s q fr) :=
  (issueIt_issues s q fr _).1

theorem issuedDone_q (s : State) (q : Nat) (fr : Front) :
    Issued s.now { issuedFlight s q fr with complete := true } (s.q q) ((issuedDone s q fr).q q) :=
  (issueIt_issues s q fr _).2

theorem lastTaken_engineFrame (fr : Front) (u : State) (q : Nat) : EngineFrame u (lastTaken fr u q) :=
  .ite (lastTakes_engineFrame u q) (.refl u)

theorem loopPushed_engineFrame (s : State) (q : Nat) (fr : Front) (n : Nat) : EngineFrame s (loopPushed s q fr n) :=
  (issuedDone_engineFrame s q fr).trans ((lastTaken_engineFrame fr _ q).trans (modQ_engineFrame _ q _))

/-- R81: the entry pushed without LAST, on the loops and counters as they were. -/
theorem loopPushed_plain {s : State} {q : Nat} {fr : Front} (n : Nat) (h : dLast fr.w = false) :
    ((loopPushed s q fr n).q q).loops =
      { left := n, body := loopBody fr, idx := loopIdx fr, next := some (dNext fr.w) } :: (s.q q).loops ∧
    ((loopPushed s q fr n).q q).cnt = if loopIdx fr ≤ 7 then (s.q q).cnt.set (loopIdx fr) 0 else (s.q q).cnt := by
  have hq := issuedDone_q s q fr
  unfold Issued at hq
  rw [loopPushed, lastTaken, leadsTo, h, if_neg Bool.false_ne_true, if_neg Bool.false_ne_true, State.modQ_q, if_pos rfl, hq]
  exact ⟨rfl, rfl⟩

/-- R82: the entry pushed with LAST, on the loops as the decision leaves them. -/
theorem loopPushed_last {s : State} {q : Nat} {fr : Front} (n : Nat) (h : dLast fr.w = true) :
    ((loopPushed s q fr n).q q).loops =
      { left := n, body := loopBody fr, idx := loopIdx fr, next := (lastGoes (s.q q).loops).1 } :: (lastGoes (s.q q).loops).2.1 := by
  have hq := issuedDone_q s q fr
  unfold Issued at hq
  rw [loopPushed, lastTaken, leadsTo, if_pos h, if_pos h, State.modQ_q, if_pos rfl, lastTakes_q, hq]

/-- R81: a LOOP without turns to make skips its body. -/
theorem loop_skips {s : State} {q : Fin 64} {fr : Front} (hfront : frontOf s q = some fr) (hop : dOpcode fr.w = 0x01)
    (hbad : issueBad s q fr = none) (hzero : loopTurns s q fr = 0) :
    ∃ t, exec (.loop q) s = .next t ∧ EngineFrame s t ∧ (dLast fr.w = false →
      (t.q q).loops = (s.q q).loops ∧ (t.q q).next = some (dNext fr.w, tagOf fr.w) ∧ (t.q q).cnt = (s.q q).cnt) := by
  have hexec := exec_loop_due hfront hop hbad
  rw [if_neg (fun h => h.1 hzero), if_pos hzero] at hexec
  refine ⟨_, hexec, (issuedDone_engineFrame s q fr).trans (goNext_engineFrame _ q _ fr.w), fun hlast => ?_⟩
  have hq := issuedDone_q s q fr
  unfold Issued at hq
  rw [goNext, if_neg (by simp [hlast]), goTo_q, hq]
  exact ⟨rfl, rfl, rfl⟩

/-- R81: a fifth loop of a queue is not opened. -/
theorem loop_faults {s : State} {q : Fin 64} {fr : Front} (hfront : frontOf s q = some fr) (hop : dOpcode fr.w = 0x01)
    (hbad : issueBad s q fr = none) (hturns : loopTurns s q fr ≠ 0) (hdeep : 4 ≤ (s.q q).loops.length) :
    ∃ t, exec (.loop q) s = .next t ∧ EngineFrame s t ∧
      (t.q q).stopped = true ∧ (t.q q).flight = (s.q q).flight ∧ ∃ e, e ∈ t.flt.due ∧ e.2.code = 0x06 := by
  have hexec := exec_loop_due hfront hop hbad
  rw [if_pos ⟨hturns, hdeep⟩] at hexec
  obtain ⟨hhalt, e, he, hrec⟩ := queueFault_halts s q 0x06 (tagOf fr.w) 0
  exact ⟨_, hexec, queueFault_engineFrame s q 0x06 (tagOf fr.w) 0, hhalt.stopped, hhalt.flight, e, he, by rw [hrec]; rfl⟩

/-- R81: a LOOP with turns to make and room for its entry begins its body. -/
theorem loop_opens {s : State} {q : Fin 64} {fr : Front} (hfront : frontOf s q = some fr) (hop : dOpcode fr.w = 0x01)
    (hbad : issueBad s q fr = none) (hturns : loopTurns s q fr ≠ 0) (hroom : ¬ 4 ≤ (s.q q).loops.length) :
    ∃ t, exec (.loop q) s = .next t ∧ EngineFrame s t ∧ (t.q q).next = some (loopBody fr, tagOf fr.w) ∧
      (t.q q).loops = ((loopPushed s q fr (loopTurns s q fr)).q q).loops ∧
      (t.q q).cnt = ((loopPushed s q fr (loopTurns s q fr)).q q).cnt := by
  have hexec := exec_loop_due hfront hop hbad
  rw [if_neg (fun h => hroom h.2), if_neg hturns] at hexec
  refine ⟨_, hexec, (loopPushed_engineFrame s q fr _).trans (goTo_engineFrame _ q _ _), ?_⟩
  rw [goTo_q]
  exact ⟨rfl, rfl, rfl⟩

/-! ### BRANCH -/

/-- R78, R83: a BRANCH is taken. -/
def branchTaken (s : State) (q : Nat) (fr : Front) : Bool :=
  cmpHolds (s.q q) (bits (fr.ps.getD 1 0) 1 0) == bit (fr.ps.getD 1 0) 8

/-- R83: a BRANCH ends its chain by its END bit of the outcome. -/
def branchEnds (s : State) (q : Nat) (fr : Front) : Bool :=
  (branchTaken s q fr && bit (fr.ps.getD 1 0) 9) || (!branchTaken s q fr && bit (fr.ps.getD 1 0) 10)

/-- A queue record whose chain has ended: its answer is owed, nothing of it is fetched, no loop is open. -/
def ChainEnded (x y : QueueSt) : Prop :=
  y.chain = none ∧ y.next = none ∧ y.loops = [] ∧ y.owed = x.owed ++ x.chain.toList

/-- R45: the descriptor that issues ends its chain. -/
theorem endChain_issued {now n : Nat} {f : Flight} {x : QueueSt} {s : State} {q : Nat} (h : Issued now f x (s.q q)) :
    ChainEnded x ((endChain s q n).q q) := by
  unfold Issued at h
  rw [endChain_q, h]
  exact ⟨rfl, rfl, rfl, rfl⟩

/-- R45, R82: LAST outside every loop ends the chain of the descriptor that issues. -/
theorem goLast_issued {now n tag : Nat} {f : Flight} {x : QueueSt} {s : State} {q : Nat} (h : Issued now f x (s.q q))
    (hnone : x.loops = []) : ChainEnded x ((goLast s q n tag).q q) := by
  unfold Issued at h
  rw [goLast_outside n tag (by rw [h]; exact hnone), endChain_q, lastTakes_q, h]
  exact ⟨rfl, rfl, rfl, rfl⟩

theorem branchEnds_taken {s : State} {q : Nat} {fr : Front} (h : branchTaken s q fr = true) :
    branchEnds s q fr = bit (fr.ps.getD 1 0) 9 := by
  rw [branchEnds, h, Bool.true_and, Bool.not_true, Bool.false_and, Bool.or_false]

theorem branchEnds_not_taken {s : State} {q : Nat} {fr : Front} (h : branchTaken s q fr = false) :
    branchEnds s q fr = bit (fr.ps.getD 1 0) 10 := by
  rw [branchEnds, h, Bool.false_and, Bool.not_false, Bool.true_and, Bool.false_or]

/-- R78, R83: the state a BRANCH leaves. -/
def branchNext (s : State) (q : Nat) (fr : Front) : State :=
  if branchEnds s q fr then endChain (issuedDone s q fr) q (lastSeq (issuedDone s q fr) q)
  else if dLast fr.w then goLast (issuedDone s q fr) q (lastSeq (issuedDone s q fr) q) (tagOf fr.w)
  else goTo (issuedDone s q fr) q (if branchTaken s q fr then bits (fr.ps.getD 0 0) 39 0 else dNext fr.w) (tagOf fr.w)

theorem exec_branch_due {s : State} {q : Fin 64} {fr : Front} (hfront : frontOf s q = some fr) (hop : dOpcode fr.w = 0x02)
    (hbad : issueBad s q fr = none) : exec (.branch q) s = .next (branchNext s q fr) :=
  startIssue_due hfront hop hbad _

theorem branchNext_engineFrame (s : State) (q : Nat) (fr : Front) : EngineFrame s (branchNext s q fr) :=
  (issuedDone_engineFrame s q fr).trans
    (.ite (endChain_engineFrame _ q _) (.ite (goLast_engineFrame _ q _ _) (goTo_engineFrame _ q _ _)))

theorem goLast_cmp (s : State) (q n tag : Nat) : ((goLast s q n tag).q q).cmp = (s.q q).cmp := by
  unfold goLast goWhere
  split
  · rw [endChain_q, lastTakes_q]
  · rw [goTo_q, lastTakes_q]

/-- R78: a BRANCH leaves the comparators. -/
theorem branchNext_cmp (s : State) (q : Nat) (fr : Front) : ((branchNext s q fr).q q).cmp = (s.q q).cmp := by
  have hq := issuedDone_q s q fr
  unfold Issued at hq
  have hcmp : ((issuedDone s q fr).q q).cmp = (s.q q).cmp := by rw [hq]
  unfold branchNext
  split
  · rw [endChain_q, hcmp]
  · split
    · rw [goLast_cmp, hcmp]
    · rw [goTo_q, hcmp]

/-- R83: a BRANCH that ends no chain goes on at its target when taken, at its NEXT when not. -/
theorem branchNext_next {s : State} {q : Nat} {fr : Front} (hends : branchEnds s q fr = false) (hlast : dLast fr.w = false) :
    ((branchNext s q fr).q q).next =
      some (if branchTaken s q fr then bits (fr.ps.getD 0 0) 39 0 else dNext fr.w, tagOf fr.w) := by
  rw [branchNext, hends, hlast, if_neg Bool.false_ne_true, if_neg Bool.false_ne_true, goTo_q]

/-- R45, R83: a BRANCH whose END bit of its outcome says so, or with LAST outside every loop, ends its chain. -/
theorem branchNext_ended {s : State} {q : Nat} {fr : Front}
    (h : branchEnds s q fr = true ∨ dLast fr.w = true ∧ (s.q q).loops = []) :
    ChainEnded (s.q q) ((branchNext s q fr).q q) := by
  have hq := issuedDone_q s q fr
  unfold branchNext
  split
  · exact endChain_issued hq
  · rename_i hends
    obtain ⟨hlast, hnone⟩ := h.resolve_left hends
    rw [if_pos hlast]
    exact goLast_issued hq hnone

/-! ### EPOCH_END -/

/-- R45: the state an EPOCH_END leaves. -/
def epochEnded (s : State) (q : Nat) (fr : Front) : State :=
  (endChain (issuedDone s q fr) q (lastSeq (issuedDone s q fr) q)).modQ q fun x => { x with ended := true }

theorem exec_epochEnd_due {s : State} {q : Fin 64} {fr : Front} (hfront : frontOf s q = some fr) (hop : dOpcode fr.w = 0x05)
    (hbad : issueBad s q fr = none) : exec (.epochEnd q) s = .next (epochEnded s q fr) :=
  startIssue_due hfront hop hbad _

theorem epochEnded_engineFrame (s : State) (q : Nat) (fr : Front) : EngineFrame s (epochEnded s q fr) :=
  (issuedDone_engineFrame s q fr).trans ((endChain_engineFrame _ q _).trans (modQ_engineFrame _ q _))

/-- R45: after an EPOCH_END its chain is owed its answer, and its queue fetches and issues nothing. -/
theorem epochEnded_q (s : State) (q : Nat) (fr : Front) :
    let x := (epochEnded s q fr).q q
    x.ended = true ∧ x.chain = none ∧ x.fetch = [] ∧ x.next = none ∧ x.owed = (s.q q).owed ++ (s.q q).chain.toList ∧
      x.flight.length = (s.q q).flight.length + 1 := by
  have hq := issuedDone_q s q fr
  unfold Issued at hq
  rw [epochEnded, State.modQ_q, if_pos rfl, endChain_q, hq]
  refine ⟨rfl, rfl, rfl, rfl, rfl, ?_⟩
  simp [markEnd]

theorem qLive_of_ended {s : State} {q : Nat} (h : (s.q q).ended = true) : qLive s q = false := by
  simp [qLive, h]

/-! ### O31 -/

/-- Settles O31: a LOOP skips, faults or opens by its turns and the loops open; a BRANCH and an EPOCH_END go where `branchNext` and
`epochEnded` lead. -/
theorem loopsBranchesAndEnds : Obligations.LoopsBranchesAndEnds := by
  refine ⟨fun s q fr hfront hop hbad => ?_, fun s q fr hfront hop hbad => ?_, fun s q fr hfront hop hbad => ?_⟩
  · intro n idx body
    by_cases hzero : n = 0
    · obtain ⟨t, hexec, ht, hskip⟩ := loop_skips hfront hop hbad hzero
      exact ⟨t, hexec, ht.mem, ht.tacks, fun _ h => absurd hzero h, fun _ => hskip, fun h => absurd hzero h⟩
    by_cases hdeep : 4 ≤ (s.q q).loops.length
    · obtain ⟨t, hexec, ht, hfault⟩ := loop_faults hfront hop hbad hzero hdeep
      exact ⟨t, hexec, ht.mem, ht.tacks, fun h => absurd hdeep (Nat.not_le.2 h), fun h => absurd h hzero, fun _ _ => hfault⟩
    · obtain ⟨t, hexec, ht, hnext, hloops, hcnt⟩ := loop_opens hfront hop hbad hzero hdeep
      refine ⟨t, hexec, ht.mem, ht.tacks, fun _ _ => ?_, fun h => absurd h hzero, fun _ h => absurd h hdeep⟩
      rw [hloops, hcnt]
      refine ⟨hnext, loopPushed_plain n, fun hlast hnone => ?_, fun o os hlast hsome => ⟨fun hleft => ?_, fun hleft => ?_⟩⟩
      · exact (loopPushed_last n hlast).trans (by rw [hnone]; rfl)
      · exact (loopPushed_last n hlast).trans (by rw [hsome, lastGoes_round os hleft]; rfl)
      · exact (loopPushed_last n hlast).trans (by rw [hsome, lastGoes_leave os hleft]; rfl)
  · intro p1 taken
    have ht := branchNext_engineFrame s q fr
    refine ⟨_, exec_branch_due hfront hop hbad, ht.mem, ht.tacks, branchNext_cmp s q fr, fun htaken hend hlast => ?_,
      fun htaken hend hlast => ?_, fun h => branchNext_ended ?_⟩
    · rw [branchNext_next ((branchEnds_taken htaken).trans hend) hlast, show branchTaken s q fr = true from htaken, if_pos rfl]
    · rw [branchNext_next ((branchEnds_not_taken htaken).trans hend) hlast, show branchTaken s q fr = false from htaken,
        if_neg Bool.false_ne_true]
    · rcases h with ⟨htaken, hend⟩ | ⟨htaken, hend⟩ | hlast
      · exact .inl ((branchEnds_taken htaken).trans hend)
      · exact .inl ((branchEnds_not_taken htaken).trans hend)
      · exact .inr hlast
  · have ht := epochEnded_engineFrame s q fr
    obtain ⟨hended, hchain, hfetch, hnext, howed, hflight⟩ := epochEnded_q s q fr
    exact ⟨_, exec_epochEnd_due hfront hop hbad, hended, hchain, hfetch, hnext, howed, hflight, qLive_of_ended hended, ht.mem, ht.tacks⟩

end Sys2Proof.Machine
end

section
/-! PROOFS. WAIT (R45, R86, R87): its issue, its satisfaction, its timeout. -/

namespace Sys2Proof.Machine

/-! ### Descriptors in flight -/

/-- What changes no number of a descriptor in flight finds it again, changed. -/
theorem State.flightAt_modFlight (s : State) (q n : Nat) {g : Flight → Flight} (hg : ∀ f, (g f).seq = f.seq) :
    (s.modFlight q n g).flightAt q n = (s.flightAt q n).map g := by
  have hseq : (fun f : Flight => f.seq == n) ∘ (fun y => if y.seq = n then g y else y) = fun f => f.seq == n := by
    funext y
    by_cases h : y.seq = n <;> simp [h, hg]
  rw [State.flightAt, State.modFlight_q, if_pos rfl, List.find?_map, hseq, State.flightAt]
  cases h : (s.q q).flight.find? fun f => f.seq == n with
  | none => rfl
  | some f =>
    have hf : f.seq = n := by simpa using List.find?_some h
    simp [hf]

/-- A descriptor in flight is found by its number, or one of the same number before it. -/
theorem State.flightAt_of_mem {s : State} {q : Nat} {f : Flight} (h : f ∈ (s.q q).flight) : ∃ g, s.flightAt q f.seq = some g :=
  Option.isSome_iff_exists.1 (List.find?_isSome.2 ⟨f, h, beq_self_eq_true f.seq⟩)

/-- R397: the fault record of a descriptor in flight is on its way. -/
theorem flightFault_mem_due {s : State} {q n : Nat} {f : Flight} (h : s.flightAt q n = some f) (code unit level detail : Nat) :
    (s.now + 4, stamped s { tag := tagOf f.words, code := code, unit := unit, tenant := s.qTen q, tv := true, queue := q, qv := true
                            level := level, detail := detail }) ∈ (flightFault s q n code unit level detail).flt.due := by
  rw [flightFault, h]
  exact recordFault_mem_due s _

theorem flightFault_engineFrame (s : State) (q n code unit level detail : Nat) :
    EngineFrame s (flightFault s q n code unit level detail) := by
  unfold flightFault
  split
  · exact .refl s
  · exact (recordFault_noteFrame s _).engineFrame.trans ((modFlight_engineFrame _ q n _).trans (chainFault_engineFrame _ q _))

/-! ### The issue of a WAIT -/

/-- The WAIT a front descriptor is (Table 03.10). -/
def waitOf (s : State) (q : Nat) (fr : Front) : Waiting :=
  { tack := bits (fr.ps.getD 0 0) 9 0, thresh := bits (fr.ps.getD 0 0) 31 16, consume := bit (fr.ps.getD 0 0) 32
    until_ := if bits (fr.ps.getD 1 0) 31 0 = 0 then none else some (s.now + 1024 * bits (fr.ps.getD 1 0) 31 0)
    toNext := if bit (fr.ps.getD 1 0) 32 then some (bits (fr.ps.getD 2 0) 39 0) else none
    goes := leadsTo (s.q q) fr }

/-- The WAIT in flight, what its LAST decides taken. -/
def waitIssued (s : State) (q : Nat) (fr : Front) : State :=
  lastTaken fr (issueIt s q fr fun f => { f with wait := some (waitOf s q fr) }) q

/-- R45, R86: the state a WAIT leaves as it issues. -/
def waitNext (s : State) (q : Nat) (fr : Front) : State :=
  if (leadsTo (s.q q) fr).isNone then endChain (waitIssued s q fr) q (lastSeq (waitIssued s q fr) q) else waitIssued s q fr

theorem exec_wait_due {s : State} {q : Fin 64} {fr : Front} (hfront : frontOf s q = some fr) (hop : dOpcode fr.w = 0x03)
    (hbad : issueBad s q fr = none) : exec (.wait q) s = .next (waitNext s q fr) :=
  startIssue_due hfront hop hbad _

theorem waitIssued_engineFrame (s : State) (q : Nat) (fr : Front) : EngineFrame s (waitIssued s q fr) :=
  (issueIt_issues s q fr _).1.trans (lastTaken_engineFrame fr _ q)

theorem waitNext_engineFrame (s : State) (q : Nat) (fr : Front) : EngineFrame s (waitNext s q fr) :=
  (waitIssued_engineFrame s q fr).trans (.ite (endChain_engineFrame _ q _) (.refl _))

/-- What a WAIT's LAST decides leaves its chain, what is owed and the descriptors in flight, the WAIT behind them. -/
theorem waitIssued_q (s : State) (q : Nat) (fr : Front) :
    let x := (waitIssued s q fr).q q
    x.flight = (s.q q).flight ++ [{ issuedFlight s q fr with wait := some (waitOf s q fr) }] ∧ x.chain = (s.q q).chain ∧
      x.owed = (s.q q).owed := by
  have hq := (issueIt_issues s q fr fun f => { f with wait := some (waitOf s q fr) }).2
  unfold Issued at hq
  rw [waitIssued, lastTaken]
  split
  · rw [lastTakes_q, hq]
    exact ⟨rfl, rfl, rfl⟩
  · rw [hq]
    exact ⟨rfl, rfl, rfl⟩

/-- R86: the WAIT stands in flight, the youngest of its queue. -/
theorem waitNext_getLast (s : State) (q : Nat) (fr : Front) :
    ∃ f, ((waitNext s q fr).q q).flight.getLast? = some f ∧ f.words = fr.w ∧ f.wait = some (waitOf s q fr) ∧ f.complete = false := by
  obtain ⟨hflight, -, -⟩ := waitIssued_q s q fr
  unfold waitNext
  split
  · rw [endChain_q, hflight, markEnd, List.map_append, List.map_singleton]
    refine ⟨_, List.getLast?_concat, ?_⟩
    split <;> exact ⟨rfl, rfl, rfl⟩
  · rw [hflight]
    exact ⟨_, List.getLast?_concat, rfl, rfl, rfl⟩

/-- R45: a WAIT with LAST outside every loop ends its chain as it issues. -/
theorem waitNext_ends {s : State} {q : Nat} {fr : Front} (hlast : dLast fr.w = true) (hnone : (s.q q).loops = []) :
    (waitOf s q fr).goes = none ∧ ((waitNext s q fr).q q).chain = none ∧ ((waitNext s q fr).q q).next = none ∧
      ((waitNext s q fr).q q).owed = (s.q q).owed ++ (s.q q).chain.toList := by
  obtain ⟨-, hchain, howed⟩ := waitIssued_q s q fr
  have hgoes : leadsTo (s.q q) fr = none := by
    rw [leadsTo, if_pos hlast, hnone]
    rfl
  refine ⟨hgoes, ?_⟩
  rw [waitNext, if_pos (by rw [hgoes]; rfl), endChain_q, hchain, howed]
  exact ⟨rfl, rfl, rfl⟩

/-! ### WAIT_SATISFIED -/

/-- The descriptor at a WAIT stands there no longer. -/
def waitOver (s : State) (q n : Nat) : State := s.modFlight q n fun f => { f with wait := none, complete := true }

/-- R86: the state a satisfied WAIT leaves. -/
def waitMet (s : State) (q : Nat) (f : Flight) (w : Waiting) : State :=
  match w.goes with
  | some a => goTo (waitOver (tackConsume s w) q f.seq) q a (tagOf f.words)
  | none => waitOver (tackConsume s w) q f.seq

theorem exec_waitSatisfied_due {s : State} {q : Fin 64} {f : Flight} {w : Waiting} (hwait : waitingAt s q = some (f, w))
    (hruns : s.runs = true) (hmeets : w.thresh ≤ (s.tack w.tack).value) (hfirst : takenBefore s w.tack q 0 = false) :
    exec (.waitSatisfied q) s = .next (waitMet s q f w) := by
  show execWaitSatisfied q s = _
  rw [execWaitSatisfied, hwait]
  dsimp only
  rw [if_neg (by simp [hruns, tackMeets, hmeets, hfirst])]
  rfl

theorem tackConsume_tack (s : State) (w : Waiting) (k : Nat) :
    (tackConsume s w).tack k =
      if w.consume = true ∧ w.tack = k then { s.tack w.tack with value := (s.tack w.tack).value - w.thresh } else s.tack k := by
  rw [tackConsume]
  split
  · rename_i hc
    rw [State.modTack, State.setTack_tack]
    simp [hc]
  · rename_i hc
    simp [hc]

theorem tackConsume_rest (s : State) (w : Waiting) : (tackConsume s w).mem = s.mem ∧ ∀ r, (tackConsume s w).q r = s.q r := by
  unfold tackConsume
  split <;> exact ⟨rfl, fun _ => rfl⟩

theorem waitOver_engineFrame (s : State) (q n : Nat) : EngineFrame s (waitOver s q n) := rfl

theorem waitOver_next (s : State) (q n : Nat) : ((waitOver s q n).q q).next = (s.q q).next := by
  rw [waitOver, State.modFlight_q, if_pos rfl]

theorem waitMet_engineFrame (s : State) (q : Nat) (f : Flight) (w : Waiting) : EngineFrame (tackConsume s w) (waitMet s q f w) := by
  unfold waitMet
  split
  · exact (waitOver_engineFrame _ q _).trans (goTo_engineFrame _ q _ _)
  · exact waitOver_engineFrame _ q _

theorem waitMet_tack (s : State) (q : Nat) (f : Flight) (w : Waiting) (k : Nat) :
    (waitMet s q f w).tack k = (tackConsume s w).tack k := by
  rw [State.tack, (waitMet_engineFrame s q f w).tacks]
  rfl

/-! ### WAIT_TIMEOUT -/

/-- R87: the state an unsatisfied WAIT leaves at its timeout. -/
def waitPassed (s : State) (q : Nat) (f : Flight) (w : Waiting) : State :=
  match w.toNext with
  | some a => if w.goes.isNone then waitOver s q f.seq else goTo (waitOver s q f.seq) q a (tagOf f.words)
  | none => stopQueue (flightFault (waitOver s q f.seq) q f.seq 0x07 103 2 0) q (tagOf f.words)

theorem exec_waitTimeout_due {s : State} {q : Fin 64} {f : Flight} {w : Waiting} {d : Nat} (hwait : waitingAt s q = some (f, w))
    (hruns : s.runs = true) (hbelow : (s.tack w.tack).value < w.thresh) (huntil : w.until_ = some d) (hdue : d ≤ s.now) :
    exec (.waitTimeout q) s = .next (waitPassed s q f w) := by
  show execWaitTimeout q s = _
  rw [execWaitTimeout, hwait]
  dsimp only
  rw [if_neg (by simp [hruns, tackMeets, hbelow, huntil, hdue]), waitPassed]
  cases w.toNext <;> rfl

theorem waitPassed_engineFrame (s : State) (q : Nat) (f : Flight) (w : Waiting) : EngineFrame s (waitPassed s q f w) := by
  have hover := waitOver_engineFrame s q f.seq
  unfold waitPassed
  split
  · exact .ite hover (hover.trans (goTo_engineFrame _ q _ _))
  · exact hover.trans ((flightFault_engineFrame _ q _ _ _ _ _).trans (stopQueue_engineFrame _ q _))

theorem waitingAt_mem {s : State} {q : Nat} {f : Flight} {w : Waiting} (h : waitingAt s q = some (f, w)) : f ∈ (s.q q).flight := by
  obtain ⟨g, hg, hmap⟩ := List.exists_of_findSome?_eq_some h
  obtain ⟨v, -, hv⟩ := Option.map_eq_some_iff.1 hmap
  obtain ⟨rfl, -⟩ := Prod.mk.inj hv
  exact hg

/-- R87: without TO_NEXT a WAIT that times out faults, and its queue stops. -/
theorem waitPassed_stops {s : State} {q : Nat} {f : Flight} {w : Waiting} (hwait : waitingAt s q = some (f, w))
    (hnone : w.toNext = none) :
    ((waitPassed s q f w).q q).stopped = true ∧ ∃ e, e ∈ (waitPassed s q f w).flt.due ∧ e.2.code = 0x07 ∧ e.2.queue = q := by
  have hat : ∃ g, (waitOver s q f.seq).flightAt q f.seq = some g := by
    obtain ⟨g, hg⟩ := State.flightAt_of_mem (waitingAt_mem hwait)
    refine ⟨{ g with wait := none, complete := true }, ?_⟩
    rw [waitOver, State.flightAt_modFlight, hg]
    · rfl
    · exact fun _ => rfl
  obtain ⟨g, hg⟩ := hat
  obtain ⟨hhalt, hflt⟩ := stopQueue_halts (flightFault (waitOver s q f.seq) q f.seq 0x07 103 2 0) q (tagOf f.words)
  have hdue := flightFault_mem_due hg 0x07 103 2 0
  rw [← hflt] at hdue
  rw [waitPassed, hnone]
  exact ⟨hhalt.stopped, _, hdue, rfl, rfl⟩

/-! ### O32 -/

/-- Settles O32: a WAIT issues as `waitNext`, is satisfied as `waitMet` and times out as `waitPassed`. -/
theorem waitStandsUntilItsTack : Obligations.WaitStandsUntilItsTack := by
  refine fun s q => ⟨fun fr hfront hop hbad => ?_, fun f w hwait hruns hmeets hfirst => ?_,
    fun f w d hwait hruns hbelow huntil hdue => ?_⟩
  · have ht := waitNext_engineFrame s q fr
    obtain ⟨f, hf, hwords, hstands, hopen⟩ := waitNext_getLast s q fr
    refine ⟨_, f, waitOf s q fr, exec_wait_due hfront hop hbad, hf, hwords, hstands, hopen, rfl, rfl, rfl, rfl, rfl,
      fun hlast => ?_, waitNext_ends, ht.tacks, ht.mem⟩
    exact if_neg (by simp [hlast])
  · obtain ⟨hmem, hq⟩ := tackConsume_rest s w
    refine ⟨_, exec_waitSatisfied_due hwait hruns hmeets hfirst, ?_, fun k hk => ?_, fun a hgoes => ?_, fun hgoes => ?_,
      (waitMet_engineFrame s q f w).mem.trans hmem⟩
    · rw [waitMet_tack, tackConsume_tack]
      cases w.consume <;> simp
    · rw [waitMet_tack, tackConsume_tack, if_neg fun h => hk h.2.symm]
    · rw [waitMet, hgoes, goTo_q]
    · rw [waitMet, hgoes, waitOver_next, hq q]
  · have ht := waitPassed_engineFrame s q f w
    refine ⟨_, exec_waitTimeout_due hwait hruns hbelow huntil hdue, ht.tacks, ht.mem, fun a hnext hgoes => ?_, waitPassed_stops hwait⟩
    have hgo : w.goes.isNone = false := Option.isNone_eq_false_iff.2 hgoes
    rw [waitPassed, hnext]
    dsimp only
    rw [hgo, if_neg Bool.false_ne_true, goTo_q]

end Sys2Proof.Machine
end

section
/-! PROOFS. What reads and stores made for a descriptor leave of the queues: of the descriptors in flight only what `core` does not
see changes. -/

namespace Sys2Proof.Machine

variable {α : Type} {core : Flight → α}

/-- Between `s` and `t` only registers, reports, tenants, free values, ports, memory, the pair, the key table and what is noted of
the cc have changed. -/
def DataFrame (s t : State) : Prop :=
  t = { s with regs := t.regs, flt := t.flt, trc := t.trc, tens := t.tens, freeCtr := t.freeCtr, once := t.once, cc := t.cc
               mem := t.mem, twn := t.twn, keys := t.keys, ports := t.ports, ownFlt := t.ownFlt }

/-- Of a queue record only its chains, its place in its completion ring and its descriptors in flight have changed, and of those
descriptors nothing that `core` sees. -/
def KeepsFlights (core : Flight → α) (x y : QueueSt) : Prop :=
  y = { x with chain := y.chain, owed := y.owed, flight := y.flight, cringWr := y.cringWr } ∧ y.flight.map core = x.flight.map core

/-- Between `s` and `t` what `DataFrame` names has changed, and queue records as `KeepsFlights` says. -/
def StoreFrame (core : Flight → α) (s t : State) : Prop :=
  DataFrame { s with queues := t.queues } t ∧ ∀ r, KeepsFlights core (s.q r) (t.q r)

theorem DataFrame.storeFrame {s t : State} (h : DataFrame s t) : StoreFrame core s t := by
  unfold DataFrame at h
  have hqueues : t.queues = s.queues := by rw [h]
  refine ⟨?_, fun r => ?_⟩
  · rw [hqueues]
    exact h
  · have hq : t.q r = s.q r := by rw [State.q, State.q, hqueues]
    rw [hq]
    exact ⟨rfl, rfl⟩

namespace StoreFrame

theorem refl (s : State) : StoreFrame core s s := ⟨rfl, fun _ => ⟨rfl, rfl⟩⟩

theorem trans {s t u : State} (h : StoreFrame core s t) (k : StoreFrame core t u) : StoreFrame core s u := by
  obtain ⟨h, hq⟩ := h
  obtain ⟨k, kq⟩ := k
  refine ⟨?_, fun r => ?_⟩
  · unfold DataFrame at h k ⊢
    rw [h] at k
    exact k
  · obtain ⟨hx, hf⟩ := hq r
    obtain ⟨kx, kf⟩ := kq r
    refine ⟨?_, kf.trans hf⟩
    rw [hx] at kx
    exact kx

theorem ite {s t u : State} {c : Prop} [Decidable c] (ht : StoreFrame core s t) (hu : StoreFrame core s u) :
    StoreFrame core s (if c then t else u) := by
  split <;> assumption

/-- What every step of a fold keeps, its end keeps. -/
theorem foldl {β : Type} {f : State → β → State} (hf : ∀ s x, StoreFrame core s (f s x)) :
    ∀ (l : List β) (s : State), StoreFrame core s (l.foldl f s)
  | [], s => refl s
  | x :: l, s => (hf s x).trans (foldl hf l (f s x))

/-- The same for a fold that carries more than the state. -/
theorem foldl_by {β γ : Type} {f : γ → β → γ} {st : γ → State} (hf : ∀ b x, StoreFrame core (st b) (st (f b x))) :
    ∀ (l : List β) (b : γ), StoreFrame core (st b) (st (l.foldl f b))
  | [], b => refl (st b)
  | x :: l, b => (hf b x).trans (foldl_by hf l (f b x))

theorem epc {s t : State} (h : StoreFrame core s t) : t.epc = s.epc := by rw [h.1]
theorem tacks {s t : State} (h : StoreFrame core s t) : t.tacks = s.tacks := by rw [h.1]
theorem tackUpd {s t : State} (h : StoreFrame core s t) : t.tackUpd = s.tackUpd := by rw [h.1]
theorem srPend {s t : State} (h : StoreFrame core s t) : t.srPend = s.srPend := by rw [h.1]
theorem vcs {s t : State} (h : StoreFrame core s t) : t.vcs = s.vcs := by rw [h.1]
theorem cbls {s t : State} (h : StoreFrame core s t) : t.cbls = s.cbls := by rw [h.1]

/-- Of the descriptor found by its number nothing that `core` sees has changed, when `core` sees the number. -/
theorem flightAt {s t : State} (h : StoreFrame core s t) {num : α → Nat} (hnum : ∀ f, num (core f) = f.seq) (r n : Nat) :
    (t.flightAt r n).map core = (s.flightAt r n).map core := by
  have hfind : ∀ l : List Flight, (l.find? fun f => f.seq == n).map core = (l.map core).find? fun c => num c == n := by
    intro l
    rw [List.find?_map]
    congr 2
    funext f
    exact (congrArg (· == n) (hnum f)).symm
  obtain ⟨-, hmap⟩ := h.2 r
  rw [State.flightAt, State.flightAt, hfind, hfind, hmap]

end StoreFrame

theorem NoteFrame.storeFrame {s t : State} (h : NoteFrame s t) : StoreFrame core s t := by
  refine DataFrame.storeFrame ?_
  unfold NoteFrame at h
  rw [h]
  rfl

/-! ### Queue records -/

theorem modQ_storeFrame (s : State) (q : Nat) {f : QueueSt → QueueSt} (hf : ∀ x, KeepsFlights core x (f x)) :
    StoreFrame core s (s.modQ q f) := by
  refine ⟨rfl, fun r => ?_⟩
  rw [State.modQ_q]
  split
  · rename_i h
    rw [← h]
    exact hf _
  · exact ⟨rfl, rfl⟩

theorem chainFault_storeFrame (s : State) (q c : Nat) : StoreFrame core s (chainFault s q c) :=
  modQ_storeFrame s q fun _ => ⟨rfl, rfl⟩

theorem modFlight_storeFrame (s : State) (q n : Nat) {f : Flight → Flight} (hf : ∀ y, core (f y) = core y) :
    StoreFrame core s (s.modFlight q n f) := by
  refine modQ_storeFrame s q fun x => ⟨rfl, ?_⟩
  rw [List.map_map]
  refine List.map_congr_left fun y _ => ?_
  show core (if y.seq = n then f y else y) = core y
  split
  · exact hf y
  · rfl

/-! ### Records of requesters -/

/-- Whatever a requester's record says, it leaves the queues as `StoreFrame` says. -/
def Notes (core : Flight → α) (a : Agent) : Prop := ∀ s u c d, StoreFrame core s (agentOnce s { a with unit := u } c d)

/-- `core` sees neither how many faults a descriptor has nor which codes it has written. -/
def IgnoresFaults (core : Flight → α) : Prop := ∀ f n cs, core { f with faults := n, wrote := cs } = core f

theorem flightOnce_storeFrame (hcore : IgnoresFaults core) (s : State) (q n code u l d : Nat) :
    StoreFrame core s (flightOnce s q n code u l d) := by
  unfold flightOnce flightFault
  split
  · exact .refl s
  · refine .ite (.refl s) ?_
    exact (recordFault_noteFrame s _).storeFrame.trans
      ((modFlight_storeFrame _ q n fun y => hcore y _ _).trans (chainFault_storeFrame _ q _))

/-- R395, R397: the record of a tile or an Awl unit notes itself in the descriptor. -/
theorem tile_notes (hcore : IgnoresFaults core) (q n cls unit tile : Nat) :
    Notes core { kind := .tile q n, cls := cls, unit := unit, tile := tile } :=
  fun s _ _ _ => flightOnce_storeFrame hcore s q n _ _ _ _

/-- R47, R59: the record of an access made for a queue, a fetch or a write of its completion ring, counts with its chain. -/
theorem fetch_notes (q tag chain cls unit : Nat) : Notes core { kind := .fetch q tag chain, cls := cls, unit := unit } := by
  intro s u c d
  show StoreFrame core s (agentOnce s { kind := .fetch q tag chain, cls := cls, unit := u } c d)
  unfold agentOnce
  refine .ite (.refl s) ?_
  refine .trans (DataFrame.storeFrame (t := { s with once := c :: s.once }) rfl) ?_
  exact (recordFault_noteFrame _ _).storeFrame.trans (chainFault_storeFrame _ q chain)

theorem twin_notes : Notes core twinAgent := fun s _ _ _ => (recordFault_noteFrame s _).storeFrame

/-- The record under the requester's own unit. -/
theorem Notes.own {a : Agent} (ha : Notes core a) (s : State) (c d : Nat) : StoreFrame core s (agentOnce s a c d) :=
  ha s a.unit c d

theorem bump_storeFrame (s : State) (k n : Nat) : StoreFrame core s (s.bump k n) := DataFrame.storeFrame rfl
theorem setReg_storeFrame (s : State) (k v : Nat) : StoreFrame core s (s.setReg k v) := DataFrame.storeFrame rfl
theorem setBit_storeFrame (s : State) (k i : Nat) : StoreFrame core s (s.setBit k i) := DataFrame.storeFrame rfl

theorem logUE_storeFrame (s : State) (a : Agent) (k u d : Nat) : StoreFrame core s (logUE s a k u d) := by
  unfold logUE
  split
  · exact setBit_storeFrame s _ _
  · extract_lets syn s1 s2 s3
    have h1 : StoreFrame core s s1 := DataFrame.storeFrame rfl
    have h2 : StoreFrame core s1 s2 := (setReg_storeFrame s1 _ _).trans (setBit_storeFrame _ _ _)
    have h3 : StoreFrame core s2 s3 := (setReg_storeFrame s2 _ _).trans (setReg_storeFrame _ _ _)
    exact h1.trans (h2.trans (h3.trans (setReg_storeFrame s3 _ _)))

/-- An uncorrectable error counted and logged. -/
theorem countUE_storeFrame (s : State) (a : Agent) (k u d reg : Nat) : StoreFrame core s (logUE (s.bump reg 1) a k u d) :=
  (bump_storeFrame s reg 1).trans (logUE_storeFrame _ a k u d)

/-! ### HBM -/

theorem rewrite_storeFrame (s : State) (a : Agent) (l : Nat) (e : Err) : StoreFrame core s (rewrite s a l e) := by
  unfold rewrite
  exact .ite (.refl s) (DataFrame.storeFrame rfl)

theorem invalidate_storeFrame (s : State) (l : Nat) : StoreFrame core s (invalidate s l) := DataFrame.storeFrame rfl
theorem addAcc_storeFrame (s : State) (x : Acc) : StoreFrame core s (addAcc s x) := DataFrame.storeFrame rfl
theorem placeLine_storeFrame (s : State) (p : CellWr) (c : Cell) : StoreFrame core s (placeLine s p c) := DataFrame.storeFrame rfl


section Requester

variable {a : Agent} (ha : Notes core a)
include ha

/-- R239: a read of a line. -/
theorem readLine_storeFrame (s : State) (l : Nat) : StoreFrame core s (readLine s a l).2.2 := by
  unfold readLine
  extract_lets st ag c
  split
  · exact ha s _ _ _
  · split
    · exact .refl s
    · exact (bump_storeFrame s _ 1).trans (rewrite_storeFrame _ _ _ _)
    · exact (countUE_storeFrame s _ _ _ _ _).trans ((ha _ _ _ _).trans (rewrite_storeFrame _ _ _ _))
    · exact bump_storeFrame s _ 1

theorem readPhys_storeFrame (s : State) (pa n : Nat) : StoreFrame core s (readPhys s a pa n).2.2 := by
  unfold readPhys
  refine StoreFrame.foldl_by (γ := List Byte × Bool × State) (st := fun b => b.2.2) (fun b i => ?_) _ ([], false, s)
  exact readLine_storeFrame ha b.2.2 _

/-- R240, R241: a write of one line. -/
theorem writeLine_storeFrame (s : State) (l : Nat) (new : List (Option Byte)) (poison : Bool) (mask : List Byte) :
    StoreFrame core s (writeLine s a l new poison mask) := by
  unfold writeLine
  extract_lets st ag c p s1 s2 s3
  have h2 : StoreFrame core s s2 := (invalidate_storeFrame s l).trans (addAcc_storeFrame s1 _)
  have h3 : StoreFrame core s2 s3 := by
    refine .ite (.refl s2) ?_
    split
    · exact .refl s2
    · exact bump_storeFrame s2 _ 1
    · exact (bump_storeFrame s2 _ 1).trans ((countUE_storeFrame _ _ _ _ _ _).trans (ha _ _ _ _))
    · exact (bump_storeFrame s2 _ 1).trans (ha _ _ _ _)
  clear_value s3 s2 p
  refine .ite (ha s _ _ _) (h2.trans (h3.trans ?_))
  exact .trans (.ite (bump_storeFrame s3 _ 1) (.refl s3)) (placeLine_storeFrame _ p c)

theorem writePhys_storeFrame (s : State) (pa : Nat) (new : List (Option Byte)) (poison : Bool) :
    StoreFrame core s (writePhys s a pa new poison) := by
  unfold writePhys
  exact StoreFrame.foldl (f := fun u (x : Nat × List (Option Byte)) => writeLine u a x.1 x.2 poison)
    (fun u x => writeLine_storeFrame ha u x.1 x.2 poison []) _ s

end Requester

/-! ### CBUF and local memory -/

theorem touch_storeFrame (s : State) (w : Nat) : StoreFrame core s (touch s w) := by
  unfold touch
  exact .ite (.refl s) (DataFrame.storeFrame rfl)

theorem setWord_storeFrame (s : State) (w : Nat) (v : Bool) (e : Err) : StoreFrame core s (s.setWord w v e) := DataFrame.storeFrame rfl
theorem placeWord_storeFrame (s : State) (p : CellWr) (c : Cell) : StoreFrame core s (placeWord s p c) := DataFrame.storeFrame rfl

theorem poisonGroup_storeFrame (s : State) (g : Nat) : StoreFrame core s (poisonGroup s g) := by
  unfold poisonGroup
  extract_lets badPar sram s1
  have h1 : StoreFrame core s s1 := DataFrame.storeFrame rfl
  exact h1.trans (.foldl (fun u i => setWord_storeFrame u (g * 32 + i) true .poison) _ s1)

section Requester

variable {a : Agent} (ha : Notes core a)
include ha

/-- The record of a word's natural error, which the event plane does not write itself (R225). -/
theorem wordRecord_storeFrame (s : State) (u d : Nat) :
    StoreFrame core s (match a.kind with | .event _ => s | _ => agentOnce s { a with unit := u } 0x22 d) := by
  split
  · exact .refl s
  · exact ha s u 0x22 d

/-- R233: the parity check of a word's group. -/
theorem parityCheck_storeFrame (s : State) (w : Nat) : StoreFrame core s (parityCheck s a w).1 := by
  unfold parityCheck
  split
  · extract_lets p ag s1 s2
    have h1 : StoreFrame core s s1 := countUE_storeFrame s _ _ _ _ _
    have h2 : StoreFrame core s1 s2 := wordRecord_storeFrame ha s1 _ _
    exact h1.trans (h2.trans (poisonGroup_storeFrame s2 _))
  · exact .refl s

/-- R233, R239: a read of a word. -/
theorem readWord_storeFrame (s : State) (w : Nat) : StoreFrame core s (readWord s a w).2.2 := by
  unfold readWord
  extract_lets p ag s1 k c s2
  have h1 : StoreFrame core s s1 := touch_storeFrame s w
  have h2 : StoreFrame core s1 s2 := countUE_storeFrame s1 _ _ _ _ _
  have hk : StoreFrame core s1 k.1 := parityCheck_storeFrame ha s1 w
  clear_value k s2 c
  split
  · exact ha s _ _ _
  · split
    · exact h1.trans hk
    · split
      · exact h1
      · split
        · exact h1
        · exact h1.trans (bump_storeFrame s1 _ 1)
        · exact h1.trans (h2.trans (wordRecord_storeFrame ha s2 _ _))
        · exact h1.trans (bump_storeFrame s1 _ 1)

/-- R233, R240, R241: a write of a word. -/
theorem writeWord_storeFrame (s : State) (w : Nat) (new : List (Option Byte)) (poison : Bool) (mask : List Byte) :
    StoreFrame core s (writeWord s a w new poison mask) := by
  unfold writeWord
  extract_lets pl ag r p s1 k s2 c s3
  have h1 : StoreFrame core s s1 := touch_storeFrame s w
  have h2 : StoreFrame core s1 s2 := parityCheck_storeFrame ha s1 w
  have h3 : StoreFrame core s2 s3 := by
    refine .ite ((bump_storeFrame s2 _ 1).trans (ha _ _ _ _)) (.ite (.refl s2) ?_)
    split
    · exact .refl s2
    · exact bump_storeFrame s2 _ 1
    · exact (bump_storeFrame s2 _ 1).trans ((countUE_storeFrame _ _ _ _ _ _).trans (ha _ _ _ _))
    · exact (bump_storeFrame s2 _ 1).trans (ha _ _ _ _)
  clear_value s3 s2 p
  refine .ite (ha s _ _ _) (h1.trans (.ite ?_ (h2.trans (h3.trans ?_))))
  · exact .trans (.ite (bump_storeFrame s1 _ 1) (.refl s1)) (placeWord_storeFrame _ p _)
  · exact .trans (.ite (bump_storeFrame s3 _ 1) (.refl s3)) (placeWord_storeFrame _ p c)

end Requester

/-! ### The journal -/

theorem setTwn_storeFrame (s : State) (w : TwnSt) : StoreFrame core s { s with twn := w } := DataFrame.storeFrame rfl

theorem startSession_storeFrame (s : State) (t : Nat) : StoreFrame core s (startSession s t) := DataFrame.storeFrame rfl

theorem ringPut_storeFrame (s : State) (reg off : Nat) (bs : List Byte) : StoreFrame core s (ringPut s reg off bs) := by
  unfold ringPut
  extract_lets n o s1
  have h1 : StoreFrame core s s1 := writePhys_storeFrame twin_notes s _ _ _
  exact .ite h1 (h1.trans (writePhys_storeFrame twin_notes s1 _ _ _))

theorem txAppend_storeFrame (s : State) (r : JRec) : StoreFrame core s (txAppend s r) := by
  unfold txAppend
  extract_lets s1 twn
  exact (ringPut_storeFrame s _ _ _).trans (setTwn_storeFrame s1 _)

/-- R324: a journal record. -/
theorem jrnlForm_storeFrame (s : State) (r : JRec) : StoreFrame core s (jrnlForm s r) := by
  unfold jrnlForm
  extract_lets auth s1 r1 s2 twn2 s3 twn3
  have h1 : StoreFrame core s s1 := .ite (startSession_storeFrame s _) (.refl s)
  have h2 : StoreFrame core s1 s2 := txAppend_storeFrame s1 _
  have h3 : StoreFrame core s1 s3 := bump_storeFrame s1 _ 1
  clear_value s2 s3
  exact h1.trans (.ite (h2.trans (setTwn_storeFrame s2 _)) (h3.trans (setTwn_storeFrame s3 _)))

theorem jrnlLines_storeFrame (s : State) (rk t taddr first : Nat) (ls : List Nat) (seed : Bool) :
    StoreFrame core s (jrnlLines s rk t taddr first ls seed) := by
  unfold jrnlLines
  exact .foldl (fun u l => jrnlForm_storeFrame u _) _ s

/-! ### Write requests -/

theorem modTen_storeFrame (s : State) (t : Nat) (f : TenSt → TenSt) : StoreFrame core s (s.modTen t f) := DataFrame.storeFrame rfl

/-- R304, R323: one write request. -/
theorem reqWrite_storeFrame {a : Agent} (ha : Notes core a) (s : State) (t w : Nat) (ls : List LineWr) :
    StoreFrame core s (reqWrite s a t w ls).1 := by
  unfold reqWrite
  extract_lets first addr prot s1 s2
  have h1 : StoreFrame core s s1 := .ite (modTen_storeFrame s t _) (.refl s)
  have h2 : StoreFrame core s1 s2 := by
    refine StoreFrame.foldl (f := fun u (x : LineWr) => writeLine u a x.line x.new x.poison x.mask) (fun u x => ?_) ls s1
    exact writeLine_storeFrame ha u x.line x.new x.poison x.mask
  clear_value s2
  split
  · exact (modTen_storeFrame s t _).trans (ha.own _ _ _)
  · exact h1.trans (h2.trans (.ite (jrnlLines_storeFrame s2 _ _ _ _ _ _) (.refl s2)))

/-- R227: a write to tenant addresses. -/
theorem tenWrite_storeFrame {a : Agent} (ha : Notes core a) (s : State) (t addr : Nat) (new : List (Option Byte)) (poison : Bool) :
    StoreFrame core s (tenWrite s a t addr new poison).1 := by
  unfold tenWrite
  split
  · exact .refl s
  · split
    · exact .refl s
    · split
      · exact .refl s
      · exact reqWrite_storeFrame ha s t _ _

end Sys2Proof.Machine
end

section
/-! PROOFS. Retirement (R42, R55, R59, R64, R79, R85). -/

namespace Sys2Proof.Machine

variable {α : Type} {core : Flight → α}

/-! ### What a retirement delivers -/

/-- The tack update on its way after a descriptor of queue `q` that is a SET of a tack has retired (R64, R84, R85). -/
def setUpdate (s : State) (q : Nat) (f : Flight) : TackUpd :=
  { due := s.now + 2, rank := q, tack := bits (f.params.getD 0 0) 25 16, write := bits (f.params.getD 0 0) 3 0 == 1
    value := bits (f.params.getD 1 0) 15 0 }

/-- The write to SR_OUT on its way after a descriptor has retired (R79, R100). -/
def outWrite (s : State) (q : Nat) (f : Flight) : List SrWr :=
  match dSrOut f.words, srValue f with
  | some r, some v => [{ due := s.now, rank := 17, queue := q, reg := r, value := v }]
  | _, _ => []

/-- R42, R64, R79: a retirement delivers a tack update and a write to SR_OUT, and nothing else. -/
theorem deliverOut_eq (s : State) (q : Nat) (f : Flight) :
    deliverOut s q f =
      { s with tackUpd := if dOpcode f.words = 4 ∧ bits (f.params.getD 0 0) 3 0 < 2 ∧ f.abandoned = false
                 then s.tackUpd ++ [setUpdate s q f] else s.tackUpd
               srPend := s.srPend ++ outWrite s q f } := by
  unfold deliverOut outWrite
  extract_lets p0 s1
  have h1 : s1 = { s with tackUpd := if dOpcode f.words = 4 ∧ bits (f.params.getD 0 0) 3 0 < 2 ∧ f.abandoned = false
      then s.tackUpd ++ [setUpdate s q f] else s.tackUpd } := by
    unfold s1
    split
    · rw [tackUpdate, Nat.mod_eq_of_lt (bits_lt _ 15 0)]
      rfl
    · rfl
  rw [h1]
  cases dSrOut f.words with
  | none => rw [List.append_nil]
  | some r =>
    cases srValue f with
    | none => rw [List.append_nil]
    | some v => rfl

/-! ### The completion record, the trace record and the answer -/

/-- R59: the completion record. -/
theorem notify_storeFrame (s : State) (q : Nat) (f : Flight) : StoreFrame core s (notify s q f) := by
  unfold notify
  extract_lets lg x base bs a s1
  refine .ite (.refl s) (.trans ?_ (modQ_storeFrame s1 q fun _ => ⟨rfl, rfl⟩))
  exact .trans (DataFrame.storeFrame (t := { s with once := f.wrote }) rfl) (tenWrite_storeFrame (fetch_notes q _ _ _ _) _ _ _ _ _)

theorem notify_off {s : State} {q : Nat} {f : Flight} (h : dNotify f.words = false) : notify s q f = s := by
  simp [notify, h]

theorem AnswerFrame.storeFrame {s t : State} (h : AnswerFrame s t) : StoreFrame core s t := by
  refine DataFrame.storeFrame ?_
  unfold AnswerFrame at h
  rw [h]
  rfl

/-- R55: the answer a chain's last descriptor brings. -/
theorem endAnswer_storeFrame (s : State) (q : Nat) (f : Flight) : StoreFrame core s (endAnswer s q f) := by
  unfold endAnswer
  split
  · exact .refl s
  · split
    · exact .refl s
    · exact (retireAnswer_answerFrame s q _ _ _).storeFrame.trans (modQ_storeFrame _ q fun _ => ⟨rfl, rfl⟩)

theorem endAnswer_engineFrame (s : State) (q : Nat) (f : Flight) : EngineFrame s (endAnswer s q f) := by
  unfold endAnswer
  split
  · exact .refl s
  · split
    · exact .refl s
    · exact (retireAnswer_answerFrame s q _ _ _).engineFrame.trans (modQ_engineFrame _ q _)

/-- R405: the trace record of a retirement. -/
def retireTraced (s : State) (q : Nat) (f : Flight) : State :=
  if dTrace f.words then traceTen s (tagOf f.words) 2 (s.qTen q) q (retireStatus f) else s

theorem retireTraced_noteFrame (s : State) (q : Nat) (f : Flight) : NoteFrame s (retireTraced s q f) := by
  unfold retireTraced
  split
  · exact (traceTen_traceFrame s _ _ _ _ _).noteFrame
  · rfl

/-! ### DESCRIPTOR_RETIRE -/

/-- The oldest descriptor `f` of queue `q` has left, counted, its scoreboard entries released (R64, R69). -/
def flightGone (s : State) (q : Nat) (f : Flight) (rest : List Flight) : State :=
  s.modQ q fun x =>
    { x with flight := rest, retired := sat32 (x.retired + 1), lastTag := tagOf f.words
             freed := { issued := f.issued, cc := s.now, need := f.need, entries := f.entries } :: stillFreed s x }

/-- What follows a retirement besides what it delivers: its completion and trace records and its chain's answer. -/
def retireReports (s : State) (q : Nat) (f : Flight) : State := endAnswer (retireTraced (notify s q f) q f) q f

theorem exec_descriptorRetire_due {s : State} {q : Fin 64} {f : Flight} {rest : List Flight} (hruns : s.runs = true)
    (hflight : (s.q q).flight = f :: rest) (hdone : flightDone s q f = true) :
    exec (.descriptorRetire q) s = .next (retireReports (deliverOut (flightGone s q f rest) q f) q f) := by
  show execDescriptorRetire q s = _
  rw [execDescriptorRetire, hflight]
  dsimp only
  rw [if_neg (by simp [hruns, hdone])]
  rfl

theorem retireReports_storeFrame (s : State) (q : Nat) (f : Flight) : StoreFrame core s (retireReports s q f) :=
  (notify_storeFrame s q f).trans ((retireTraced_noteFrame _ q f).storeFrame.trans (endAnswer_storeFrame _ q f))

/-- R59: without NOTIFY a retirement stores nothing. -/
theorem retireReports_mem {s : State} {q : Nat} {f : Flight} (h : dNotify f.words = false) : (retireReports s q f).mem = s.mem := by
  rw [retireReports, notify_off h]
  exact ((retireTraced_noteFrame s q f).engineFrame.trans (endAnswer_engineFrame _ q f)).mem

theorem StoreFrame.flight {s t : State} (h : StoreFrame id s t) (r : Nat) : (t.q r).flight = (s.q r).flight := by
  obtain ⟨-, hmap⟩ := h.2 r
  rwa [List.map_id, List.map_id] at hmap

/-- R42, R64: the queue after its oldest descriptor has retired, and the descriptors in flight of every other. -/
theorem retired_queues {s t : State} {q : Nat} {f : Flight} {rest : List Flight}
    (h : StoreFrame id (deliverOut (flightGone s q f rest) q f) t) :
    (t.q q).flight = rest ∧ (t.q q).retired = sat32 ((s.q q).retired + 1) ∧ (t.q q).lastTag = tagOf f.words ∧
      ∀ r, r ≠ q → (t.q r).flight = (s.q r).flight := by
  have hq : ∀ r, (deliverOut (flightGone s q f rest) q f).q r = (flightGone s q f rest).q r := fun r => by
    rw [deliverOut_eq]
    rfl
  have hgone : (flightGone s q f rest).q q = _ := (State.modQ_q s q q _).trans (if_pos rfl)
  obtain ⟨hrec, -⟩ := h.2 q
  refine ⟨?_, ?_, ?_, fun r hr => ?_⟩
  · rw [h.flight, hq, hgone]
  · rw [hrec, hq, hgone]
  · rw [hrec, hq, hgone]
  · rw [h.flight, hq, flightGone, State.modQ_q, if_neg (Ne.symm hr)]

end Sys2Proof.Machine
end

section
/-! PROOFS. REDUCTION_COMBINE (R108, R126): what a descriptor's results, stored, leave of the descriptors in flight. -/

namespace Sys2Proof.Machine

/-- What no store of results changes of a descriptor in flight: its number, its words, the tiles it has run and that it has been
combined. -/
def flightCore (f : Flight) : Nat × List Nat × Nat × Bool := (f.seq, f.words, f.done, f.combined)

theorem flightCore_ignoresFaults : IgnoresFaults flightCore := fun _ _ _ => rfl

/-- Stores keep the core of every descriptor in flight. -/
abbrev CoreFrame (s t : State) : Prop := StoreFrame flightCore s t

/-! ### Requests to owners -/

theorem modPort_coreFrame (s : State) (p : Nat) (f : PortSt → PortSt) : CoreFrame s (s.modPort p f) := DataFrame.storeFrame rfl

/-- R166, R294: a request that ends. -/
theorem reqDone_coreFrame (s : State) (p : Nat) (r : Req) (ok : Bool) (st f : Nat) (ls : List RemoteLine) :
    CoreFrame s (reqDone s p r ok st f ls) := by
  unfold reqDone
  extract_lets s1
  have h1 : CoreFrame s s1 := modPort_coreFrame s p _
  split
  · rename_i q n _
    have h2 : CoreFrame s1 (s1.modFlight q n fun f =>
        { f with remote := f.remote - 1, lines := if r.write then f.lines else f.lines ++ ls }) :=
      modFlight_storeFrame s1 q n fun _ => rfl
    exact h1.trans (.ite h2 (h2.trans (flightOnce_storeFrame flightCore_ignoresFaults _ _ _ _ _ _ _)))
  · exact h1

/-- R279, R292: a request formed. -/
theorem formReq_coreFrame (s : State) (p : Nat) (r : Req) : CoreFrame s (formReq s p r) := by
  unfold formReq
  extract_lets r1 s1 s2
  have h1 : CoreFrame s s1 := modPort_coreFrame s p _
  have h2 : CoreFrame s1 s2 := by
    unfold s2
    split
    · exact modFlight_storeFrame s1 _ _ fun _ => rfl
    · exact .refl s1
  exact h1.trans (h2.trans (.ite (.refl s2) (reqDone_coreFrame s2 p _ _ _ _ _)))

/-! ### Words and lines stored -/

/-- R164: refused places are recorded. -/
theorem refuse_coreFrame (s : State) (q n unit : Nat) (ls : List Loc) : CoreFrame s (refuse s q n unit ls) := by
  unfold refuse
  refine StoreFrame.foldl (fun u b => ?_) _ s
  exact .trans (DataFrame.storeFrame (t := { u with ownFlt := _ }) rfl) (flightOnce_storeFrame flightCore_ignoresFaults _ _ _ _ _ _ _)

section Requester

variable {a : Agent} (ha : Notes flightCore a)
include ha

theorem readUnit_coreFrame (s : State) (q n : Nat) (k : UnitKey) : CoreFrame s (readUnit s a q n k).2 := by
  unfold readUnit
  split
  · exact readLine_storeFrame ha s k.no
  · split
    · exact readWord_storeFrame ha s k.no
    · split <;> exact .refl s

theorem readUnits_coreFrame (s : State) (q n : Nat) (ks : List UnitKey) : CoreFrame s (readUnits s a q n ks).2 := by
  unfold readUnits
  refine StoreFrame.foldl_by (γ := List CacheUnit × State) (st := Prod.snd) (fun b k => ?_) ks ([], s)
  exact readUnit_coreFrame ha b.2 q n k

/-- R165: a word stored, or a WRITE formed to an owner. -/
theorem storeUnit_coreFrame (s : State) (q n : Nat) (old : List CacheUnit) (u : WUnit) : CoreFrame s (storeUnit s a q n old u) := by
  unfold storeUnit
  exact .ite (writeWord_storeFrame ha s _ _ _ _) (formReq_coreFrame s _ _)

theorem storeReq_coreFrame (s : State) (t q n : Nat) (old : List CacheUnit) (us : List WUnit) :
    CoreFrame s (storeReq s a t q n old us) := by
  unfold storeReq
  split
  · exact .refl s
  · exact .ite (reqWrite_storeFrame ha s t _ _) (.foldl (fun v u => storeUnit_coreFrame ha v q n old u) _ s)

/-- R164, R323: puts stored word by word. -/
theorem storePuts_coreFrame (s : State) (t q n v : Nat) (ps : List Put) : CoreFrame s (storePuts s a t q n v ps) := by
  unfold storePuts
  extract_lets s1 us r
  have h1 : CoreFrame s s1 := refuse_coreFrame s q n v _
  have hr : CoreFrame s1 r.2 := readUnits_coreFrame ha s1 q n _
  exact h1.trans (hr.trans (.foldl (fun u x => storeReq_coreFrame ha u t q n r.1 x) _ r.2))

/-- R144: results of an MX destination gathered, and whole blocks stored. -/
theorem storeBlocks_coreFrame (s : State) (t q n v : Nat) (w : List Nat) (d : LastRec) (rs : List (List Nat × Num)) :
    CoreFrame s (storeBlocks s a t q n v w d rs) := by
  unfold storeBlocks
  extract_lets sizes held now firsts
  refine StoreFrame.foldl (fun u idx => ?_) firsts s
  extract_lets lanes got slots r s1 new
  have h1 : CoreFrame u s1 := modFlight_storeFrame u q n fun _ => rfl
  exact .ite (h1.trans (storePuts_coreFrame ha s1 t q n v r.1)) (modFlight_storeFrame u q n fun _ => rfl)

end Requester

/-- R140, R150: results written to the destination. -/
theorem storeResults_coreFrame (s : State) (q n v k : Nat) (f : Flight) (rs : List (List Nat × Num)) :
    CoreFrame s (storeResults s q n v k f rs) := by
  unfold storeResults
  extract_lets t a d
  have ha : Notes flightCore a := tile_notes flightCore_ignoresFaults q n _ _ _
  exact .ite (storeBlocks_coreFrame ha s t q n v _ d rs) (storePuts_coreFrame ha s t q n v _)

/-- R100: what element 0 delivers to SR_OUT. -/
theorem noteSr_coreFrame (s : State) (q : Nat) (f : Flight) (rs : List (List Nat × Num)) : CoreFrame s (noteSr s q f rs) := by
  unfold noteSr
  split
  · exact .refl s
  · exact .ite (.refl s) (modFlight_storeFrame s q _ fun _ => rfl)

/-! ### REDUCTION_COMBINE -/

/-- A reduction whose every tile has run and which has not been combined. -/
def combinable (f : Flight) : Bool :=
  (clsOf f.words == .red || clsOf f.words == .redsfu) && !f.combined && decide (f.tiles ≤ f.done)

/-- The reduction's partials are taken: it is combined once (R108). -/
def partialsTaken (s : State) (q : Nat) (f : Flight) : State :=
  s.modFlight q f.seq fun f => { f with combined := true, partials := [] }

/-- The results of a reduction: the combining VC, the place and the value of each set (R108, R126). -/
def combinedSets (f : Flight) : List (Nat × List Nat × Num) :=
  (wholeSets f).map fun i => ((combineSet f i).1, unflat (rSizes (recOf f.recs 4)) i, (combineSet f i).2)

/-- The results of a reduction noted for SR_OUT and written by the combining VCs. -/
def combinedStored (s : State) (q : Nat) (f : Flight) : State :=
  let rs := combinedSets f
  (distinct (rs.map Prod.fst)).foldl (fun s v =>
    storeResults s q f.seq v 0 f ((rs.filter fun r => r.1 == v).map Prod.snd)) (noteSr (partialsTaken s q f) q f (rs.map Prod.snd))

theorem exec_reductionCombine_due {s : State} {q : Fin 64} {f : Flight} (hruns : s.runs = true)
    (hfind : (s.q q).flight.find? combinable = some f) :
    exec (.reductionCombine q) s = .next ((combinedStored s q f).modFlight q f.seq fun f => { f with complete := true }) := by
  show execReductionCombine q s = _
  rw [execReductionCombine, if_neg (by simp [hruns])]
  rw [show (s.q q).flight.find? (fun f => (clsOf f.words == .red || clsOf f.words == .redsfu) && !f.combined && decide (f.tiles ≤ f.done)) =
    some f from hfind]
  rfl

theorem combinedStored_coreFrame (s : State) (q : Nat) (f : Flight) : CoreFrame (partialsTaken s q f) (combinedStored s q f) := by
  unfold combinedStored
  extract_lets rs
  exact (noteSr_coreFrame _ q f _).trans (.foldl (fun u v => storeResults_coreFrame u q f.seq v 0 f _) _ _)

/-- R108: the reduction, its results stored, is combined; its words and the tiles it has run are as they were. -/
theorem combinedStored_flightAt {s : State} {q : Nat} {f : Flight} (hat : s.flightAt q f.seq = some f) :
    ∃ g, (combinedStored s q f).flightAt q f.seq = some g ∧ g.combined = true ∧ g.words = f.words ∧ g.done = f.done := by
  have htaken : (partialsTaken s q f).flightAt q f.seq = some { f with combined := true, partials := [] } := by
    rw [partialsTaken, State.flightAt_modFlight, hat]
    · rfl
    · exact fun _ => rfl
  have hcore := (combinedStored_coreFrame s q f).flightAt (num := Prod.fst) (fun _ => rfl) q f.seq
  rw [htaken] at hcore
  obtain ⟨g, hg, hsame⟩ := Option.map_eq_some_iff.1 hcore
  obtain ⟨-, hwords, hdone, hcombined⟩ : g.seq = f.seq ∧ g.words = f.words ∧ g.done = f.done ∧ g.combined = true := by
    simpa [flightCore] using hsame
  exact ⟨g, hg, hcombined, hwords, hdone⟩

/-! ### O43 -/

/-- Settles O43: the stores of a reduction keep `flightCore`; after a retirement only what `deliverOut` says is on its way. -/
theorem reductionsAndRetirement : Obligations.ReductionsAndRetirement := by
  refine ⟨fun s q f hruns hfind hat => ?_, fun s q f rest hruns hflight hdone => ?_⟩
  · obtain ⟨g, hg, hcombined, hwords, hran⟩ := combinedStored_flightAt hat
    have ht := combinedStored_coreFrame s q f
    refine ⟨_, { g with complete := true }, exec_reductionCombine_due hruns hfind, ?_, hcombined, rfl, hwords, hran, ht.vcs, ht.tacks,
      ht.epc⟩
    rw [State.flightAt_modFlight, hg]
    · rfl
    · exact fun _ => rfl
  · intro p0
    have ht : StoreFrame id _ (retireReports (deliverOut (flightGone s q f rest) q f) q f) := retireReports_storeFrame _ q f
    obtain ⟨hrest, hretired, htag, hothers⟩ := retired_queues ht
    have heq := deliverOut_eq (flightGone s q f rest) q f
    refine ⟨_, exec_descriptorRetire_due hruns hflight hdone, hrest, hretired, htag, hothers, ?_, ?_, fun hset hkind hlive => ?_,
      fun hset => ?_, fun r v hr hv => ?_, fun hnone => ?_, fun hquiet => ?_⟩
    · rw [ht.tacks, heq]
      rfl
    · rw [ht.cbls, heq]
      rfl
    · rw [ht.tackUpd, heq]
      exact if_pos ⟨hset, hkind, hlive⟩
    · rw [ht.tackUpd, heq]
      exact if_neg fun h => hset h.1
    · rw [ht.srPend, heq]
      dsimp only
      rw [outWrite, hr, hv]
      rfl
    · rw [ht.srPend, heq]
      dsimp only
      rw [outWrite, hnone]
      exact List.append_nil _
    · rw [retireReports_mem hquiet, heq]
      rfl

end Sys2Proof.Machine
end

section
/-! PROOFS. What a fetch and its checks read, and a descriptor that fails a check (R47, R57, R152, R239). -/

namespace Sys2Proof.Machine

/-! ### Reads of lines without error -/

/-- A line no write of this cc has reached is found as it stands. -/
theorem lineSeen_unwritten {s : State} {l : Nat} (r : Nat) (h : ∀ p, p ∈ s.cc.hbm → p.cell ≠ l) :
    s.lineSeen r l = { bytes := s.lineRaw l, err := s.errSeen l } := by
  have hnone : (s.cc.hbm.find? fun p => p.cell == l && decide (r < p.rank)) = none :=
    List.find?_eq_none.2 fun p hp => by simp [h p hp]
  rw [State.lineSeen, ccBefore, hnone]

theorem errSeen_clean {s : State} {l : Nat} (h : s.lineErr l = .clean) : s.errSeen l = .clean := by
  rw [State.errSeen, h]

theorem errSeen_poison {s : State} {l : Nat} (h : s.lineErr l = .poison) : s.errSeen l = .poison := by
  rw [State.errSeen, h]

theorem ccBehind_unwritten {s : State} {l : Nat} (r : Nat) (h : ∀ p, p ∈ s.cc.hbm → p.cell ≠ l) : ccBehind s.cc.hbm l r = false :=
  List.any_eq_false.2 fun p hp => by simp [h p hp]

/-- R239: a read of a line without error gives its bytes and changes nothing. -/
theorem readLine_clean {s : State} {a : Agent} {l : Nat} (hon : s.eff (88 + stackOf (l * 64)) = 3) (hclean : s.lineErr l = .clean)
    (hcc : ∀ p, p ∈ s.cc.hbm → p.cell ≠ l) : readLine s a l = (s.lineRaw l, false, s) := by
  have hhbm : hbmOn s l = true := by rw [hbmOn, hon]; rfl
  rw [readLine, hhbm, lineSeen_unwritten _ hcc, errSeen_clean hclean]
  rfl

/-- R239: a read of a poisoned line tells so. -/
theorem readLine_poison {s : State} {a : Agent} {l : Nat} (hpoison : s.lineErr l = .poison) (hcc : ∀ p, p ∈ s.cc.hbm → p.cell ≠ l) :
    (readLine s a l).2.1 = true := by
  unfold readLine
  extract_lets st ag c
  have hc : c.err = .poison := by
    unfold c
    rw [lineSeen_unwritten _ hcc, errSeen_poison hpoison]
  split
  · rfl
  · rw [hc]

theorem hbmQuiet.line {s : State} {pa n l : Nat} (h : hbmQuiet s pa n) (hlo : pa / 64 ≤ l) (hhi : l * 64 < pa + n) (a : Agent) :
    readLine s a l = (s.lineRaw l, false, s) := by
  obtain ⟨hon, hclean, hcc⟩ := h l hlo hhi
  exact readLine_clean hon hclean hcc

/-- A read of one whole line. -/
theorem readPhys_line (s : State) (a : Agent) {pa : Nat} (halign : pa % 64 = 0) :
    readPhys s a pa 64 = ((readLine s a (pa / 64)).1.take 64, (readLine s a (pa / 64)).2.1, (readLine s a (pa / 64)).2.2) := by
  rw [readPhys, halign]
  simp [List.range_succ]

/-- A read of two whole lines. -/
theorem readPhys_pair (s : State) (a : Agent) {pa : Nat} (halign : pa % 64 = 0) :
    let x := readLine s a (pa / 64); let y := readLine x.2.2 a (pa / 64 + 1)
    readPhys s a pa 128 = ((x.1 ++ y.1).take 128, x.2.1 || y.2.1, y.2.2) := by
  rw [readPhys, halign]
  simp [List.range_succ]

theorem lineRaw_length (s : State) (l : Nat) : (s.lineRaw l).length = 64 := bytesAt_length _ _ _

theorem hbmQuiet.readPhys_line {s : State} {pa : Nat} (h : hbmQuiet s pa 64) (halign : pa % 64 = 0) (a : Agent) :
    readPhys s a pa 64 = (s.lineRaw (pa / 64), false, s) := by
  rw [Machine.readPhys_line s a halign, h.line (Nat.le_refl _) (by omega) a]
  dsimp only
  rw [List.take_of_length_le (by rw [lineRaw_length])]

theorem hbmQuiet.readPhys_pair {s : State} {pa : Nat} (h : hbmQuiet s pa 128) (halign : pa % 128 = 0) (a : Agent) :
    readPhys s a pa 128 = (s.lineRaw (pa / 64) ++ s.lineRaw (pa / 64 + 1), false, s) := by
  have h64 : pa % 64 = 0 := by omega
  have hfirst := h.line (Nat.le_refl (pa / 64)) (by omega) a
  have hsecond := h.line (Nat.le_succ (pa / 64)) (by omega) a
  have hread := Machine.readPhys_pair s a h64
  rw [hfirst] at hread
  dsimp only at hread
  rw [hsecond] at hread
  rw [hread, List.take_of_length_le (by simp [lineRaw_length])]
  rfl

/-! ### What the DCACHE and the record cache may change -/

/-- Between `s` and `t` only registers, the codes of the access under way, caches with their errors and what is noted of the cc have
changed: no byte of memory, no queue, no table. -/
def CacheFrame (s t : State) : Prop :=
  t = { s with regs := t.regs, once := t.once, mem := t.mem, cc := t.cc } ∧ t.mem.hbm = s.mem.hbm ∧ t.mem.sram = s.mem.sram

namespace CacheFrame

theorem refl (s : State) : CacheFrame s s := ⟨rfl, rfl, rfl⟩

theorem trans {s t u : State} (h : CacheFrame s t) (k : CacheFrame t u) : CacheFrame s u := by
  obtain ⟨h, hhbm, hsram⟩ := h
  obtain ⟨k, khbm, ksram⟩ := k
  refine ⟨?_, khbm.trans hhbm, ksram.trans hsram⟩
  rw [h] at k
  exact k

theorem foldl {α : Type} {f : State → α → State} (hf : ∀ s x, CacheFrame s (f s x)) :
    ∀ (l : List α) (s : State), CacheFrame s (l.foldl f s)
  | [], s => refl s
  | x :: l, s => (hf s x).trans (foldl hf l (f s x))

theorem q {s t : State} (h : CacheFrame s t) (r : Nat) : t.q r = s.q r := by rw [h.1]; rfl
theorem qTen {s t : State} (h : CacheFrame s t) (r : Nat) : t.qTen r = s.qTen r := by rw [h.1]; rfl
theorem lastSize {s t : State} (h : CacheFrame s t) (r : Nat) : t.lastSize r = s.lastSize r := by rw [h.1]; rfl

theorem fieldsOk {s t : State} (h : CacheFrame s t) (n : Nat) (w : List Nat) : fieldsOk t n w = fieldsOk s n w := by rw [h.1]; rfl

theorem tackOk {s t : State} (h : CacheFrame s t) (n op : Nat) (ps : List Nat) (skip : Nat) :
    tackOk t n op ps skip = tackOk s n op ps skip := by rw [h.1]; rfl

theorem order7 {s t : State} (h : CacheFrame s t) (r : Nat) (w : List Nat) (recs : List (Option LastRec)) :
    order7 t r w recs = order7 s r w recs := by rw [h.1]; rfl

end CacheFrame

/-- R238: a record looked up. -/
theorem recTouch_cacheFrame (s : State) (t i : Nat) : CacheFrame s (recTouch s t i) := by
  unfold recTouch
  split
  · exact .refl s
  · split
    · exact .refl s
    · exact ⟨rfl, rfl, rfl⟩
    · exact ⟨rfl, rfl, rfl⟩

theorem recsTouch_cacheFrame (s : State) (q : Nat) (w : List Nat) : CacheFrame s (recsTouch s q w) := by
  unfold recsTouch
  extract_lets t
  split
  · exact .refl s
  · exact .foldl (fun u o => recTouch_cacheFrame u t (dIndex w o)) _ s

theorem dcacheFill_cacheFrame (s : State) (a : Agent) (l : Nat) : CacheFrame s (dcacheFill s a l) := by
  unfold dcacheFill
  split
  · exact .refl s
  · exact ⟨rfl, rfl, rfl⟩

/-- A miss's fill changes no record of the record cache. -/
theorem cachedRec_dcacheFill (s : State) (a : Agent) (l t i : Nat) : cachedRec (dcacheFill s a l) t i = cachedRec s t i := by
  unfold dcacheFill
  split <;> rfl

theorem cacheRec_cacheFrame (s : State) (t i pa : Nat) (r : LastRec) : CacheFrame s (cacheRec s t i pa r) := by
  unfold cacheRec
  split
  · exact .refl s
  · exact ⟨rfl, rfl, rfl⟩

/-- R153: a record that has entered the record cache is found there. -/
theorem cachedRec_cacheRec {s : State} {t i pa : Nat} (r : LastRec) (h : ccBehind s.cc.hbm (pa / 64) 104 = false) :
    cachedRec (cacheRec s t i pa r) t i = some r := by
  have hentry : recEntry (cacheRec s t i pa r) t i = some { tenant := t, index := i, pa := pa, record := r } := by
    rw [cacheRec, h, if_neg Bool.false_ne_true, recEntry]
    simp
  rw [cachedRec, hentry]
  rfl

/-! ### A descriptor that fails a check -/

/-- The check a descriptor of the read-ahead has failed: code, tag and DETAIL. -/
def badOf (f : Fetch) : Option (Nat × Nat × Nat) := match f.phase with | .bad code tag detail => some (code, tag, detail) | _ => none

theorem raiseBad_eq (s : State) (q : Nat) :
    raiseBad s q = ((s.q q).fetch.findSome? badOf).elim s fun x => queueFault s q x.1 x.2.1 x.2.2 := by
  show (match (s.q q).fetch.findSome? badOf with | some (code, tag, detail) => queueFault s q code tag detail | none => s) = _
  cases (s.q q).fetch.findSome? badOf <;> rfl

theorem findSome?_badOf_none {l : List Fetch} (h : noBad l = true) : l.findSome? badOf = none := by
  refine List.findSome?_eq_none_iff.2 fun f hf => ?_
  have hok := List.all_eq_true.1 h f hf
  unfold badOf
  split
  · rename_i hphase
    rw [hphase] at hok
    exact absurd hok Bool.false_ne_true
  · rfl

/-- No descriptor of the queue's read-ahead has failed: nothing happens. -/
theorem raiseBad_none {s : State} {q : Nat} (h : noBad (s.q q).fetch = true) : raiseBad s q = s := by
  rw [raiseBad_eq, findSome?_badOf_none h]
  rfl

/-- R47: the first descriptor that has failed a check faults in the cc of that check, and its queue stops. -/
theorem raiseBad_first {s : State} {q : Nat} {l l' : List Fetch} {f : Fetch} {code tag detail : Nat}
    (hfetch : (s.q q).fetch = l ++ f :: l') (hok : noBad l = true) (hphase : f.phase = .bad code tag detail) :
    raiseBad s q = queueFault s q code tag detail := by
  have hbad : badOf f = some (code, tag, detail) := by rw [badOf, hphase]
  rw [raiseBad_eq, hfetch, List.findSome?_append, findSome?_badOf_none hok, List.findSome?_cons, hbad]
  rfl

theorem raiseBad_engineFrame (s : State) (q : Nat) : EngineFrame s (raiseBad s q) := by
  unfold raiseBad
  split
  · exact queueFault_engineFrame s q _ _ _
  · exact .refl s

/-- R47: the queue has stopped, and a record of that code, tag and DETAIL is on its way. -/
def StoppedBy (t : State) (q code tag detail : Nat) : Prop :=
  (t.q q).stopped = true ∧ ∃ e, e ∈ t.flt.due ∧ e.2.code = code ∧ e.2.tag = tag ∧ e.2.queue = q ∧ e.2.detail = detail

theorem queueFault_stoppedBy (s : State) (q code tag detail : Nat) : StoppedBy (queueFault s q code tag detail) q code tag detail := by
  obtain ⟨hhalt, e, he, hrec⟩ := queueFault_halts s q code tag detail
  exact ⟨hhalt.stopped, e, he, by rw [hrec]; exact ⟨rfl, rfl, rfl, rfl⟩⟩

end Sys2Proof.Machine
end

section
/-! PROOFS. DESCRIPTOR_FETCH, DESCRIPTOR_RETURN and LAST_RECORD_RETURN (R46, R47, R57, R74, R152, R153). -/

namespace Sys2Proof.Machine

/-! ### DESCRIPTOR_FETCH -/

/-- The next fetch of queue `q`, at `a`, may start in this cc, and none of its read-ahead has failed (R46, R74). -/
structure FetchAt (s : State) (q a tag : Nat) (c : Chain) : Prop where
  next : (s.q q).next = some (a, tag)
  chain : (s.q q).chain = some c
  live : qLive s q = true
  room : (s.q q).fetch.length < 5
  after : (s.q q).nextAt ≤ s.now
  first : fetchedNow s q = false
  sound : noBad (s.q q).fetch = true

/-- A fetch as it starts. -/
def askedFetch (s : State) (a tag : Nat) (c : Chain) : Fetch := { addr := a, predTag := tag, chain := c.id, at_ := s.now }

/-- The read-ahead with a fetch behind it, and where it goes on. -/
def fetchAdded (s : State) (q : Nat) (f : Fetch) (n : Option (Nat × Nat)) : State :=
  s.modQ q fun x => { x with fetch := x.fetch ++ [f], next := n }

theorem fetchAdded_q (s : State) (q : Nat) (f : Fetch) (n : Option (Nat × Nat)) :
    (fetchAdded s q f n).q q = { s.q q with fetch := (s.q q).fetch ++ [f], next := n } :=
  (State.modQ_q s q q _).trans (if_pos rfl)

/-- The fetch at `a`, as the lookup of its place and of the DCACHE turn out (R47, R57). -/
def fetchStarted (s : State) (q a tag : Nat) (c : Chain) : State :=
  match (if a % 128 = 0 then xlate s (s.qTen q) a 128 else none) with
  | none => raiseBad (fetchAdded s q { askedFetch s a tag c with phase := .bad 0x01 tag a } none) q
  | some pa =>
    match dcacheRead s (pa / 128) with
    | (some bs, u) =>
      fetchAdded u q { askedFetch s a tag c with words := some (descWords bs) } ((dKnownNext (descWords bs)).map fun n => (n, tagOf (descWords bs)))
    | (none, u) => fetchAdded u q (askedFetch s a tag c) none

theorem exec_descriptorFetch_due {s : State} {q : Fin 64} {a tag : Nat} {c : Chain} (h : FetchAt s q a tag c) :
    exec (.descriptorFetch q) s = .next (fetchStarted s q a tag c) := by
  obtain ⟨hnext, hchain, hlive, hroom, hafter, hfirst, -⟩ := h
  show execDescriptorFetch q s = _
  unfold execDescriptorFetch fetchStarted
  dsimp only
  rw [hnext, hchain]
  dsimp only
  rw [if_neg (by simp [hlive, hroom, hafter, hfirst])]
  cases (if a % 128 = 0 then xlate s (s.qTen q) a 128 else none) with
  | none => rfl
  | some pa =>
    dsimp only
    rcases dcacheRead s (pa / 128) with ⟨_ | bs, u⟩ <;> rfl

/-- R57: a miss awaits its words. -/
theorem fetchStarted_miss {s : State} {q a tag pa : Nat} {c : Chain} (halign : a % 128 = 0) (hpa : xlate s (s.qTen q) a 128 = some pa)
    (hmiss : dcacheHolds s (pa / 128) = false) : fetchStarted s q a tag c = fetchAdded s q (askedFetch s a tag c) none := by
  have hread : dcacheRead s (pa / 128) = (none, s) := by rw [dcacheRead, hmiss]; rfl
  rw [fetchStarted, if_pos halign, hpa]
  dsimp only
  rw [hread]

/-- R57: a hit holds the line's words; of memory only the order of the DCACHE's lines changes. -/
theorem fetchStarted_hit {s : State} {q a tag pa : Nat} {c : Chain} (halign : a % 128 = 0) (hpa : xlate s (s.qTen q) a 128 = some pa)
    (hhit : dcacheHolds s (pa / 128) = true) (hclean : dcacheErr s (pa / 128) = .clean)
    (hcc : ∀ p, p ∈ s.cc.hbm → p.cell / 2 ≠ pa / 128) :
    let w := descWords (s.lineRaw (2 * (pa / 128)) ++ s.lineRaw (2 * (pa / 128) + 1))
    ∃ d, fetchStarted s q a tag c = fetchAdded { s with mem := { s.mem with dcache := d } } q
      { askedFetch s a tag c with words := some w } ((dKnownNext w).map fun n => (n, tagOf w)) := by
  intro w
  have hfirst := lineSeen_unwritten (s := s) (l := 2 * (pa / 128)) 0 fun p hp h => hcc p hp (by omega)
  have hsecond := lineSeen_unwritten (s := s) (l := 2 * (pa / 128) + 1) 0 fun p hp h => hcc p hp (by omega)
  have hread : ∃ d, dcacheRead s (pa / 128) =
      (some (s.lineRaw (2 * (pa / 128)) ++ s.lineRaw (2 * (pa / 128) + 1)), { s with mem := { s.mem with dcache := d } }) := by
    unfold dcacheRead
    rw [hhit, hclean, hfirst, hsecond, if_neg (by decide)]
    dsimp only
    split
    · exact ⟨_, rfl⟩
    · exact ⟨s.mem.dcache, rfl⟩
  obtain ⟨d, hread⟩ := hread
  refine ⟨d, ?_⟩
  rw [fetchStarted, if_pos halign, hpa]
  dsimp only
  rw [hread]

/-- R47: a fetch at a misaligned address or outside every window is a bad descriptor, DESC_ADDR. -/
theorem fetchStarted_bad {s : State} {q a tag : Nat} {c : Chain} (hsound : noBad (s.q q).fetch = true)
    (hbad : a % 128 ≠ 0 ∨ xlate s (s.qTen q) a 128 = none) : StoppedBy (fetchStarted s q a tag c) q 0x01 tag a := by
  have hplace : (if a % 128 = 0 then xlate s (s.qTen q) a 128 else none) = none := by
    split
    · rename_i h
      exact hbad.resolve_left (not_not_intro h)
    · rfl
  have hfetch := congrArg QueueSt.fetch (fetchAdded_q s q { askedFetch s a tag c with phase := .bad 0x01 tag a } none)
  rw [fetchStarted, hplace]
  dsimp only
  rw [raiseBad_first hfetch hsound rfl]
  exact queueFault_stoppedBy _ q 0x01 tag a

/-! ### The checks of a descriptor's words -/

/-- The opcodes of the control descriptors are control operations (Table 05.2). -/
theorem opRow_control {op : Nat} (h : isCtl op = true) : ∃ row, opRow op = some row ∧ row.cls = .control := by
  obtain ⟨hlo, hhi⟩ : 1 ≤ op ∧ op ≤ 6 := by simpa [isCtl] using h
  interval_cases op <;> exact ⟨_, rfl, rfl⟩

/-- R48: a control descriptor whose fields are in order has no operands. -/
theorem control_no_operand {s : State} {t : Nat} {w : List Nat} (hok : fieldsOk s t w = true) (hctl : isCtl (dOpcode w) = true) (o : Nat) :
    dHas w o = false := by
  obtain ⟨row, hrow, hcls⟩ := opRow_control hctl
  have hbare : ctlBare w = true := by
    simp only [fieldsOk, hrow, hcls, if_true, Bool.and_eq_true] at hok
    exact hok.1.2.1.1
  have hwords : dw w 1 = 0 ∧ dw w 2 = 0 := by
    simp only [ctlBare, Bool.and_eq_true, beq_iff_eq] at hbare
    exact ⟨hbare.1.1.1.1.2, hbare.1.1.1.2⟩
  simp [dHas, hwords, bit]

/-- The records of a descriptor that the record cache gives (R152). -/
def cachedRecs (s : State) (t : Nat) (w : List Nat) : List (Option LastRec) :=
  (List.range 5).map fun o => if dHas w o then cachedRec s t (dIndex w o) else none

theorem cachedRecs_getD (s : State) (t : Nat) (w : List Nat) {o : Nat} (ho : o ∈ operands w) :
    (cachedRecs s t w).getD o none = cachedRec s t (dIndex w o) := by
  obtain ⟨hlt, hhas⟩ : o < 5 ∧ dHas w o = true := by simpa [operands] using ho
  simp [cachedRecs, hlt, hhas]

/-- R47: orders 3 and 4 passed, the records not cached are asked for, or the later orders decide. -/
theorem earlyChecks_passed {s : State} {q : Nat} {w : List Nat} (f : Fetch) (hfields : fieldsOk s (s.qTen q) w = true)
    (htack : isCtl (dOpcode w) = false ∨ tackOk s (s.qTen q) (dOpcode w) (dParams w) (dPsrEn w) = true) :
    earlyChecks s q f w =
      let g := { f with recs := cachedRecs s (s.qTen q) w }
      let missing := (operands w).filter fun o =>
        ((cachedRecs s (s.qTen q) w).getD o none).isNone && decide (dIndex w o < s.lastSize (s.qTen q))
      if missing.isEmpty then lateChecks s q g w [] else { g with phase := .loading missing, at_ := s.now } := by
  have htack' : (isCtl (dOpcode w) && !tackOk s (s.qTen q) (dOpcode w) (dParams w) (dPsrEn w)) = false := by
    rcases htack with h | h <;> simp [h]
  rw [earlyChecks, hfields, htack']
  rfl

theorem earlyChecks_bad {s : State} {q : Nat} {w : List Nat} (f : Fetch) (hfields : fieldsOk s (s.qTen q) w = false) :
    ∃ tag detail, (earlyChecks s q f w).phase = .bad 0x03 tag detail := by
  rw [earlyChecks, hfields]
  exact ⟨_, _, rfl⟩

/-- R47: a descriptor without operands that passes order 7 is ready. -/
theorem lateChecks_ready {s : State} {q : Nat} {w : List Nat} {f : Fetch} (hnone : operands w = [])
    (h5 : order5 s (s.qTen q) w f.recs [] = none) (h7 : order7 s q w f.recs = none) :
    lateChecks s q f w [] = { f with phase := .ready, at_ := s.now } := by
  unfold lateChecks
  dsimp only
  rw [h5, hnone]
  dsimp only
  rw [if_pos List.isEmpty_nil]
  dsimp only
  rw [h7]

/-- R47: a control descriptor that passes its checks is ready. -/
theorem earlyChecks_control {s : State} {q : Nat} {w : List Nat} (f : Fetch) (hfields : fieldsOk s (s.qTen q) w = true)
    (hctl : isCtl (dOpcode w) = true) (htack : tackOk s (s.qTen q) (dOpcode w) (dParams w) (dPsrEn w) = true)
    (horder : order7 s q w [none, none, none, none, none] = none) :
    (earlyChecks s q f w).words = f.words ∧ (earlyChecks s q f w).phase = .ready := by
  have hno := control_no_operand hfields hctl
  have hoperands : operands w = [] := by simp [operands, hno]
  have hrecs : cachedRecs s (s.qTen q) w = [none, none, none, none, none] := by simp [cachedRecs, hno, List.range_succ]
  have horder5 : order5 s (s.qTen q) w [none, none, none, none, none] [] = none := by
    have hop : (dOpcode w == 0x93) = false := by
      have : dOpcode w ≤ 6 := by simp only [isCtl, Bool.and_eq_true, decide_eq_true_eq] at hctl; exact hctl.2
      simp; omega
    simp [order5, hoperands, hno, hop]
  rw [earlyChecks_passed f hfields (.inr htack), hrecs, hoperands]
  dsimp only [List.filter_nil]
  rw [if_pos List.isEmpty_nil, lateChecks_ready (f := { f with recs := [none, none, none, none, none] }) hoperands horder5 horder]
  exact ⟨rfl, rfl⟩

/-- R152: a descriptor none of whose records is cached awaits them all. -/
theorem earlyChecks_operands {s : State} {q : Nat} {w : List Nat} (f : Fetch) (hfields : fieldsOk s (s.qTen q) w = true)
    (hctl : isCtl (dOpcode w) = false) (hsome : operands w ≠ [])
    (hcold : ∀ o, o ∈ operands w → cachedRec s (s.qTen q) (dIndex w o) = none ∧ dIndex w o < s.lastSize (s.qTen q)) :
    (earlyChecks s q f w).words = f.words ∧ (earlyChecks s q f w).phase = .loading (operands w) := by
  have hmissing : ((operands w).filter fun o =>
      ((cachedRecs s (s.qTen q) w).getD o none).isNone && decide (dIndex w o < s.lastSize (s.qTen q))) = operands w := by
    refine List.filter_eq_self.2 fun o ho => ?_
    obtain ⟨hnone, hlt⟩ := hcold o ho
    rw [cachedRecs_getD s _ w ho, hnone, decide_eq_true hlt]
    rfl
  rw [earlyChecks_passed f hfields (.inl hctl), hmissing]
  dsimp only
  rw [if_neg (by simp [hsome])]
  exact ⟨rfl, rfl⟩

end Sys2Proof.Machine
end

section
/-! PROOFS. What returns of a fetch, and the records of its operands (R46, R47, R152, R153). -/

namespace Sys2Proof.Machine

/-! ### DESCRIPTOR_RETURN -/

/-- The oldest descriptor of queue `q`'s read-ahead is still asked for, and its 12 cc are over (R47). -/
structure ReturnAt (s : State) (q : Nat) (f : Fetch) (rest : List Fetch) : Prop where
  fetch : (s.q q).fetch = f :: rest
  asked : f.phase = .asked
  due : f.at_ + 12 ≤ s.now
  live : qLive s q = true

/-- The oldest descriptor's words looked up and checked (R47, R152). -/
def wordsChecked (s : State) (q : Nat) (f : Fetch) (w : List Nat) : State := setFetch (recsTouch s q w) q 0 (earlyChecks s q f w)

/-- R46: the last descriptor of the read-ahead names the next address. -/
def nextNamed (s : State) (q : Nat) (w : List Nat) : State :=
  s.modQ q fun x =>
    if x.next.isNone && decide (0 + 1 = x.fetch.length) then { x with next := (dKnownNext w).map fun n => (n, tagOf w) } else x

theorem exec_descriptorReturn_at {s : State} {q : Fin 64} {f : Fetch} {rest : List Fetch} (h : ReturnAt s q f rest) :
    exec (.descriptorReturn q) s = match f.words with
      | some w => .next (raiseBad (wordsChecked s q f w) q)
      | none => match xlate s (s.qTen q) f.addr 128 with
        | none => .next (raiseBad (setFetch s q 0 { f with phase := .bad 0x01 f.predTag f.addr, at_ := s.now }) q)
        | some pa =>
          let r := readPhys { s with once := f.wrote } (fetchAgent q f) pa 128
          if r.2.1 then
            .next (raiseBad (setFetch r.2.2 q 0 { f with poison := true, phase := .bad 0x02 f.predTag f.addr, at_ := r.2.2.now }) q)
          else
            .next (raiseBad (nextNamed (wordsChecked (dcacheFill r.2.2 (fetchAgent q f) (pa / 128)) q
              { f with words := some (descWords r.1) } (descWords r.1)) q (descWords r.1)) q) := by
  obtain ⟨hfetch, hasked, hdue, hlive⟩ := h
  have hidx : ((f :: rest).findIdx? fun f => f.phase == .asked) = some 0 := by
    rw [List.findIdx?_cons, hasked]
    rfl
  show execDescriptorReturn q s = _
  unfold execDescriptorReturn
  dsimp only
  rw [if_neg (by simp [hlive]), hfetch, hidx]
  dsimp only
  rw [List.getD_cons_zero, if_neg (by omega)]
  rfl

theorem setFetch_head {s : State} {q : Nat} {f : Fetch} {rest : List Fetch} (h : (s.q q).fetch = f :: rest) (g : Fetch) :
    ((setFetch s q 0 g).q q).fetch = g :: rest := by
  rw [setFetch, State.modQ_q, if_pos rfl, h]
  rfl

theorem setFetch_mem (s : State) (q i : Nat) (f : Fetch) : (setFetch s q i f).mem = s.mem := rfl

theorem wordsChecked_fetch {s : State} {q : Nat} {f : Fetch} {rest : List Fetch} (h : (s.q q).fetch = f :: rest) (g : Fetch) (w : List Nat) :
    ((wordsChecked s q g w).q q).fetch = earlyChecks s q g w :: rest :=
  setFetch_head (by rw [(recsTouch_cacheFrame s q w).q]; exact h) _

theorem wordsChecked_mem (s : State) (q : Nat) (f : Fetch) (w : List Nat) :
    (wordsChecked s q f w).mem.hbm = s.mem.hbm ∧ (wordsChecked s q f w).mem.sram = s.mem.sram :=
  (recsTouch_cacheFrame s q w).2

theorem nextNamed_fetch (s : State) (q : Nat) (w : List Nat) : ((nextNamed s q w).q q).fetch = (s.q q).fetch := by
  rw [nextNamed, State.modQ_q, if_pos rfl]
  split <;> rfl

theorem nextNamed_mem (s : State) (q : Nat) (w : List Nat) : (nextNamed s q w).mem = s.mem := rfl

/-- The oldest descriptor of queue `q` has words `w` and has come to phase `p`. -/
def HeadIs (t : State) (q : Nat) (w : List Nat) (p : FetchPhase) : Prop :=
  ((t.q q).fetch.headD {}).words = some w ∧ ((t.q q).fetch.headD {}).phase = p

/-- The oldest descriptor, not failed, stands at the head of the read-ahead. -/
theorem raiseBad_headIs {v : State} {q : Nat} {g : Fetch} {rest : List Fetch} {w : List Nat} {p : FetchPhase}
    (hfetch : (v.q q).fetch = g :: rest) (hok : noBad rest = true) (hwords : g.words = some w) (hphase : g.phase = p)
    (hp : noBad [g] = true) : HeadIs (raiseBad v q) q w p := by
  have hall : noBad (v.q q).fetch = true := by
    rw [hfetch]
    simpa [noBad] using And.intro (by simpa [noBad] using hp) (by simpa [noBad] using hok)
  rw [HeadIs, raiseBad_none hall, hfetch]
  exact ⟨hwords, hphase⟩

/-- R47, R152: what the checks of words `w` make of queue `q`, in a state that has them at the head of its read-ahead. -/
theorem checked_outcome {s u v : State} {q : Nat} {g : Fetch} {rest : List Fetch} {w : List Nat} (hu : CacheFrame s u)
    (hrecs : ∀ i, cachedRec u (s.qTen q) i = cachedRec s (s.qTen q) i) (hg : g.words = some w)
    (hfetch : (v.q q).fetch = earlyChecks u q g w :: rest) (hok : noBad rest = true) :
    (fieldsOk s (s.qTen q) w = false → ((raiseBad v q).q q).stopped = true ∧ ∃ e, e ∈ (raiseBad v q).flt.due ∧ e.2.code = 0x03) ∧
    (fieldsOk s (s.qTen q) w = true → isCtl (dOpcode w) = true → tackOk s (s.qTen q) (dOpcode w) (dParams w) (dPsrEn w) = true →
      order7 s q w [none, none, none, none, none] = none → HeadIs (raiseBad v q) q w .ready) ∧
    (fieldsOk s (s.qTen q) w = true → isCtl (dOpcode w) = false → operands w ≠ [] →
      (∀ o, o ∈ operands w → cachedRec s (s.qTen q) (dIndex w o) = none ∧ dIndex w o < s.lastSize (s.qTen q)) →
      HeadIs (raiseBad v q) q w (.loading (operands w))) := by
  have hten : u.qTen q = s.qTen q := hu.qTen q
  refine ⟨fun hfields => ?_, fun hfields hctl htack horder => ?_, fun hfields hctl hsome hcold => ?_⟩
  · obtain ⟨tag, detail, hphase⟩ := earlyChecks_bad (s := u) (q := q) g (by rw [hten, hu.fieldsOk]; exact hfields)
    rw [raiseBad_first (l := []) hfetch rfl hphase]
    obtain ⟨hstop, e, he, hcode, -⟩ := queueFault_stoppedBy v q 0x03 tag detail
    exact ⟨hstop, e, he, hcode⟩
  · obtain ⟨hwords, hphase⟩ := earlyChecks_control (s := u) (q := q) g (by rw [hten, hu.fieldsOk]; exact hfields) hctl
      (by rw [hten, hu.tackOk]; exact htack) (by rw [hu.order7]; exact horder)
    exact raiseBad_headIs hfetch hok (hwords.trans hg) hphase (by simp [noBad, hphase])
  · obtain ⟨hwords, hphase⟩ := earlyChecks_operands (s := u) (q := q) g (by rw [hten, hu.fieldsOk]; exact hfields) hctl hsome
      fun o ho => by rw [hten, hrecs, hu.lastSize]; exact hcold o ho
    exact raiseBad_headIs hfetch hok (hwords.trans hg) hphase (by simp [noBad, hphase])

/-- R47: the words of the oldest fetch, held since a hit or read from lines without error, are at hand. -/
def WordsAt (s : State) (q : Nat) (f : Fetch) (w : List Nat) : Prop :=
  f.words = some w ∨ f.words = none ∧ ∃ pa, xlate s (s.qTen q) f.addr 128 = some pa ∧ pa % 128 = 0 ∧ hbmQuiet s pa 128 ∧
    w = descWords (s.lineRaw (pa / 64) ++ s.lineRaw (pa / 64 + 1))

/-- R47: a return with its words at hand checks them, and changes no byte. -/
theorem exec_descriptorReturn_words {s : State} {q : Fin 64} {f : Fetch} {rest : List Fetch} {w : List Nat} (h : ReturnAt s q f rest)
    (hw : WordsAt s q f w) :
    ∃ u v g, exec (.descriptorReturn q) s = .next (raiseBad v q) ∧ CacheFrame s u ∧ (∀ t i, cachedRec u t i = cachedRec s t i) ∧
      g.words = some w ∧ (v.q q).fetch = earlyChecks u q g w :: rest ∧ v.mem.hbm = s.mem.hbm ∧ v.mem.sram = s.mem.sram := by
  have hexec := exec_descriptorReturn_at h
  rcases hw with hheld | ⟨hnone, pa, hpa, halign, hquiet, rfl⟩
  · rw [hheld] at hexec
    obtain ⟨hhbm, hsram⟩ := wordsChecked_mem s q f w
    exact ⟨s, _, f, hexec, .refl s, fun _ _ => rfl, hheld, wordsChecked_fetch h.fetch f w, hhbm, hsram⟩
  · have hquiet' : hbmQuiet { s with once := f.wrote } pa 128 := hquiet
    rw [hnone] at hexec
    dsimp only at hexec
    rw [hpa] at hexec
    dsimp only at hexec
    rw [hquiet'.readPhys_pair halign, if_neg Bool.false_ne_true] at hexec
    have honce : CacheFrame s { s with once := f.wrote } := ⟨rfl, rfl, rfl⟩
    have hu := honce.trans (dcacheFill_cacheFrame { s with once := f.wrote } (fetchAgent q f) (pa / 128))
    have hfetch : ((dcacheFill { s with once := f.wrote } (fetchAgent q f) (pa / 128)).q q).fetch = f :: rest := by
      rw [hu.q]
      exact h.fetch
    refine ⟨_, _, { f with words := some (descWords (s.lineRaw (pa / 64) ++ s.lineRaw (pa / 64 + 1))) }, hexec, hu,
      fun t i => cachedRec_dcacheFill _ _ _ t i, rfl, ?_, ?_⟩
    · rw [nextNamed_fetch]
      exact wordsChecked_fetch hfetch _ _
    · rw [nextNamed_mem]
      obtain ⟨hhbm, hsram⟩ := wordsChecked_mem (dcacheFill { s with once := f.wrote } (fetchAgent q f) (pa / 128)) q
        { f with words := some (descWords (s.lineRaw (pa / 64) ++ s.lineRaw (pa / 64 + 1))) }
        (descWords (s.lineRaw (pa / 64) ++ s.lineRaw (pa / 64 + 1)))
      exact ⟨hhbm.trans hu.2.1, hsram.trans hu.2.2⟩

/-! ### A poisoned line -/

/-- Between `s` and `t` neither an error of HBM nor a write of this cc to HBM has come. -/
def LinesFrame (s t : State) : Prop := t.mem.hbmErr = s.mem.hbmErr ∧ t.cc.hbm = s.cc.hbm

namespace LinesFrame

theorem refl (s : State) : LinesFrame s s := ⟨rfl, rfl⟩

theorem trans {s t u : State} (h : LinesFrame s t) (k : LinesFrame t u) : LinesFrame s u := ⟨k.1.trans h.1, k.2.trans h.2⟩

theorem lineErr {s t : State} (h : LinesFrame s t) (l : Nat) : t.lineErr l = s.lineErr l := by
  rw [State.lineErr, State.lineErr, h.1]

end LinesFrame

theorem traceAdd_linesFrame (s : State) (tag kind t q d : Nat) : LinesFrame s (traceAdd s tag kind t q d) := by
  unfold traceAdd
  extract_lets u
  have hu : LinesFrame s u := ⟨rfl, rfl⟩
  clear_value u
  split
  · exact .refl s
  · split
    · exact hu
    · exact hu

theorem recordFault_linesFrame (s : State) (r : FaultRec) : LinesFrame s (recordFault s r) := by
  unfold recordFault traceTen
  extract_lets r1 flt s1
  have h1 : LinesFrame s s1 := ⟨rfl, rfl⟩
  clear_value s1
  have h2 : LinesFrame s (s1.modTen r1.tenant fun t => { t with faults := sat32 (t.faults + 1) }) := h1
  split
  · split
    · exact h2.trans (traceAdd_linesFrame _ _ _ _ _ _)
    · exact h2
  · exact h1

theorem fetchOnce_linesFrame (s : State) (q tag chain cls unit c d : Nat) :
    LinesFrame s (agentOnce s { kind := .fetch q tag chain, cls := cls, unit := unit } c d) := by
  unfold agentOnce
  dsimp only
  split
  · exact .refl s
  · exact (show LinesFrame s { s with once := c :: s.once } from ⟨rfl, rfl⟩).trans (recordFault_linesFrame _ _)

theorem logUE_linesFrame (s : State) (a : Agent) (k u d : Nat) : LinesFrame s (logUE s a k u d) := by
  unfold logUE
  split <;> exact ⟨rfl, rfl⟩

theorem rewrite_linesFrame (s : State) (a : Agent) (l : Nat) (e : Err) : LinesFrame s (rewrite s a l e) := by
  unfold rewrite
  split <;> exact ⟨rfl, rfl⟩

/-- R239: what a read of the queue engine's corrects is written later. -/
theorem readLine_linesFrame (s : State) (q : Nat) (f : Fetch) (l : Nat) : LinesFrame s (readLine s (fetchAgent q f) l).2.2 := by
  unfold readLine
  extract_lets st ag c
  have hbump (k n : Nat) : LinesFrame s (s.bump k n) := ⟨rfl, rfl⟩
  split
  · exact fetchOnce_linesFrame s q _ _ _ _ _ _
  · split
    · exact .refl s
    · exact (hbump _ _).trans (rewrite_linesFrame _ _ _ _)
    · exact (hbump _ _).trans ((logUE_linesFrame _ _ _ _ _).trans ((fetchOnce_linesFrame _ q _ _ _ _ _ _).trans (rewrite_linesFrame _ _ _ _)))
    · exact hbump _ _

/-- The queue engine reads two lines, one of them poisoned. -/
theorem readPhys_pair_poison {s : State} {q pa : Nat} {f : Fetch} (halign : pa % 64 = 0)
    (hcc : ∀ p, p ∈ s.cc.hbm → p.cell ≠ pa / 64 ∧ p.cell ≠ pa / 64 + 1)
    (hpoison : s.lineErr (pa / 64) = .poison ∨ s.lineErr (pa / 64 + 1) = .poison) : (readPhys s (fetchAgent q f) pa 128).2.1 = true := by
  have hframe := readLine_linesFrame s q f (pa / 64)
  have hread := readPhys_pair s (fetchAgent q f) halign
  dsimp only at hread
  rw [hread]
  dsimp only
  rcases hpoison with hfirst | hsecond
  · rw [readLine_poison hfirst fun p hp => (hcc p hp).1]
    rfl
  · rw [readLine_poison ((hframe.lineErr _).trans hsecond) fun p hp => (hcc p (hframe.2 ▸ hp)).2, Bool.or_true]

/-- R47: a descriptor with a poisoned line is bad, DESC_POISON, and no byte has changed. -/
theorem exec_descriptorReturn_poison {s : State} {q : Fin 64} {f : Fetch} {rest : List Fetch} {pa : Nat} (h : ReturnAt s q f rest)
    (hnone : f.words = none) (hpa : xlate s (s.qTen q) f.addr 128 = some pa) (halign : pa % 128 = 0)
    (hcc : ∀ p, p ∈ s.cc.hbm → p.cell ≠ pa / 64 ∧ p.cell ≠ pa / 64 + 1)
    (hpoison : s.lineErr (pa / 64) = .poison ∨ s.lineErr (pa / 64 + 1) = .poison) :
    ∃ t, exec (.descriptorReturn q) s = .next t ∧ t.mem.hbm = s.mem.hbm ∧ StoppedBy t q 0x02 f.predTag f.addr := by
  have hread : (readPhys { s with once := f.wrote } (fetchAgent q f) pa 128).2.1 = true := readPhys_pair_poison (by omega) hcc hpoison
  have hexec := exec_descriptorReturn_at h
  rw [hnone] at hexec
  dsimp only at hexec
  rw [hpa] at hexec
  dsimp only at hexec
  rw [if_pos hread] at hexec
  have hmem := readPhys_reports { s with once := f.wrote } (fetchAgent q f) pa 128
  have hqueue := (readPhys_storeFrame (core := id) (fetch_notes q f.predTag f.chain 5 103) { s with once := f.wrote } pa 128).2 q
  have hfetch : ((readPhys { s with once := f.wrote } (fetchAgent q f) pa 128).2.2.q q).fetch = f :: rest :=
    (congrArg QueueSt.fetch hqueue.1).trans h.fetch
  refine ⟨_, hexec, ?_, ?_⟩
  · rw [(raiseBad_engineFrame _ _).mem, setFetch_mem]
    exact hmem.2.1
  · rw [raiseBad_first (l := []) (setFetch_head hfetch _) rfl rfl]
    exact queueFault_stoppedBy _ _ _ _ _

end Sys2Proof.Machine
end

section
/-! PROOFS. The records a descriptor awaits, and the fetch, return and record clauses together (R46, R47, R152, R153). -/

namespace Sys2Proof.Machine

/-! ### LAST_RECORD_RETURN -/

/-- The oldest descriptor of queue `q` awaits the record of operand `o`, and another; that record stands at `pa`, without error (R152). -/
structure RecordAt (s : State) (q : Nat) (o : Fin 5) (f : Fetch) (rest : List Fetch) (ms : List Nat) (pa : Nat) : Prop where
  fetch : (s.q q).fetch = f :: rest
  loading : f.phase = .loading ms
  wanted : ms.contains o.val = true
  more : ms.filter (· != o.val) ≠ []
  live : qLive s q = true
  place : xlate s (s.qTen q) (s.lastBase (s.qTen q) + 64 * dIndex (f.words.getD []) o) 64 = some pa
  align : pa % 64 = 0
  quiet : hbmQuiet s pa 64

/-- The record of operand `o` is here: it is awaited no more. -/
def recordTaken (u : State) (f : Fetch) (o : Fin 5) (ms : List Nat) (r : LastRec) : Fetch :=
  { f with recs := f.recs.set o (some r), phase := .loading (ms.filter (· != o.val)), at_ := u.now, wrote := u.once }

/-- R153: a record that passes Table 07.7 enters the record cache. -/
def recordKept (s : State) (t i pa : Nat) (r : LastRec) : State := if (recCheck s t false r).isNone then cacheRec s t i pa r else s

theorem recordKept_cacheFrame (s : State) (t i pa : Nat) (r : LastRec) : CacheFrame s (recordKept s t i pa r) := by
  unfold recordKept
  split
  · exact cacheRec_cacheFrame s t i pa r
  · exact .refl s

/-- R152: the record at an address without error. -/
theorem readRecord_quiet {s : State} {q i pa : Nat} (tag chain : Nat) (hplace : xlate s (s.qTen q) (s.lastBase (s.qTen q) + 64 * i) 64 = some pa)
    (halign : pa % 64 = 0) (hquiet : hbmQuiet s pa 64) : readRecord s q i tag chain = (recWords (s.lineRaw (pa / 64)), false, pa, s) := by
  unfold readRecord
  dsimp only
  rw [hplace]
  dsimp only
  rw [hquiet.readPhys_line halign]

theorem exec_lastRecordReturn_at {s : State} {q : Fin 64} {o : Fin 5} {f : Fetch} {rest : List Fetch} {ms : List Nat} {pa : Nat}
    (h : RecordAt s q o f rest ms pa) :
    let r := recWords (s.lineRaw (pa / 64))
    let u := recordKept { s with once := f.wrote } (s.qTen q) (dIndex (f.words.getD []) o) pa r
    exec (.lastRecordReturn q o) s = .next (setFetch u q 0 (recordTaken u f o ms r)) := by
  obtain ⟨hfetch, hloading, hwanted, hmore, hlive, hplace, halign, hquiet⟩ := h
  have hread := readRecord_quiet (s := { s with once := f.wrote }) (q := q) (tagOf (f.words.getD [])) f.chain hplace halign hquiet
  show execLastRecordReturn q o s = _
  unfold execLastRecordReturn
  extract_lets x wants
  have hidx : x.fetch.findIdx? wants = some 0 := by
    rw [show x.fetch = f :: rest from hfetch, List.findIdx?_cons, if_pos (by simp only [wants, hloading]; exact hwanted)]
  rw [if_neg (by simp [hlive]), hidx, show x.fetch = f :: rest from hfetch]
  dsimp only
  rw [List.getD_cons_zero, hread]
  dsimp only
  rw [Bool.or_false, hloading]
  dsimp only
  rw [if_neg (by simpa using hmore)]
  rfl

theorem recOf_set {recs : List (Option LastRec)} {o : Nat} (r : LastRec) (h : o < recs.length) : recOf (recs.set o (some r)) o = r := by
  simp [recOf, List.getD_eq_getElem?_getD, h]

/-- R152, R153: a record returned is awaited no more, and is in the record cache when it passes its check. -/
theorem lastRecordReturn_outcome {s : State} {q : Fin 64} {o : Fin 5} {f : Fetch} {rest : List Fetch} {ms : List Nat} {pa : Nat}
    (h : RecordAt s q o f rest ms pa) (hrecs : f.recs.length = 5) :
    ∃ t, exec (.lastRecordReturn q o) s = .next t ∧ t.mem.hbm = s.mem.hbm ∧
      ((t.q q).fetch.headD {}).phase = .loading (ms.filter (· != o.val)) ∧
      recOf ((t.q q).fetch.headD {}).recs o.val = recWords (s.lineRaw (pa / 64)) ∧
      (recCheck s (s.qTen q) false (recWords (s.lineRaw (pa / 64))) = none →
        cachedRec t (s.qTen q) (dIndex (f.words.getD []) o.val) = some (recWords (s.lineRaw (pa / 64)))) := by
  have hexec := exec_lastRecordReturn_at h
  extract_lets r u at hexec
  have hu : CacheFrame { s with once := f.wrote } u := recordKept_cacheFrame _ _ _ _ _
  have hkept : recCheck s (s.qTen q) false r = none → cachedRec u (s.qTen q) (dIndex (f.words.getD []) o) = some r := by
    obtain ⟨-, -, hcc⟩ := h.quiet (pa / 64) (Nat.le_refl _) (by have := h.align; omega)
    intro hok
    have hu : u = cacheRec { s with once := f.wrote } (s.qTen q) (dIndex (f.words.getD []) o) pa r :=
      if_pos (Option.isNone_iff_eq_none.2 hok)
    rw [hu]
    exact cachedRec_cacheRec r (ccBehind_unwritten _ hcc)
  clear_value u
  have hfetch : ((setFetch u q 0 (recordTaken u f o ms r)).q q).fetch = recordTaken u f o ms r :: rest :=
    setFetch_head (by rw [hu.q]; exact h.fetch) _
  refine ⟨_, hexec, hu.2.1, ?_, ?_, hkept⟩
  · rw [hfetch]
    rfl
  · rw [hfetch]
    exact recOf_set r (by omega)

/-! ### O28 -/

/-- R46, R57: what a fetch adds to the read-ahead, as its place is found. -/
theorem descriptorFetch_outcome {s : State} {q : Fin 64} {a tag : Nat} {c : Chain} (h : FetchAt s q a tag c) :
    let t := fetchStarted s q a tag c
    (∀ pa, a % 128 = 0 → xlate s (s.qTen q) a 128 = some pa → dcacheHolds s (pa / 128) = false →
      (t.q q).fetch = (s.q q).fetch ++ [askedFetch s a tag c] ∧ (t.q q).next = none ∧ t = { s with queues := t.queues }) ∧
    (∀ pa, a % 128 = 0 → xlate s (s.qTen q) a 128 = some pa → dcacheHolds s (pa / 128) = true → dcacheErr s (pa / 128) = .clean →
      (∀ p, p ∈ s.cc.hbm → p.cell / 2 ≠ pa / 128) →
      ∀ w, w = descWords (s.lineRaw (2 * (pa / 128)) ++ s.lineRaw (2 * (pa / 128) + 1)) →
        (t.q q).fetch = (s.q q).fetch ++ [{ askedFetch s a tag c with words := some w }] ∧
        (t.q q).next = (dKnownNext w).map (fun n => (n, tagOf w)) ∧
        t = { s with queues := t.queues, mem := { s.mem with dcache := t.mem.dcache } }) ∧
    ((a % 128 ≠ 0 ∨ xlate s (s.qTen q) a 128 = none) → StoppedBy t q 0x01 tag a) := by
  intro t
  refine ⟨fun pa halign hpa hmiss => ?_, fun pa halign hpa hhit hclean hcc w hw => ?_, fetchStarted_bad h.sound⟩
  · have ht : t = fetchAdded s q (askedFetch s a tag c) none := fetchStarted_miss halign hpa hmiss
    rw [ht, fetchAdded_q]
    exact ⟨rfl, rfl, rfl⟩
  · obtain ⟨d, ht⟩ := fetchStarted_hit (tag := tag) (c := c) halign hpa hhit hclean hcc
    rw [← hw] at ht
    rw [show t = _ from ht, fetchAdded_q]
    exact ⟨rfl, rfl, rfl⟩

/-- Settles O28: a fetch adds as `fetchStarted` says, the words at hand are checked as `checked_outcome` says, a poisoned line stops the
queue, and a record returns as `lastRecordReturn_outcome` says. -/
theorem descriptorsAreFetchedAndChecked : Obligations.DescriptorsAreFetchedAndChecked := by
  refine ⟨fun s q a tag c hnext hchain hlive hroom hafter hfirst hsound => ?_,
    fun s q f rest hfetch hasked hok hdue hlive => ⟨fun w hw => ?_, ?_⟩,
    fun s q o f rest ms pa hfetch hloading hwanted hmore hlive hplace halign hquiet hrecs => ?_⟩
  · have hat : FetchAt s q a tag c := ⟨hnext, hchain, hlive, hroom, hafter, hfirst, hsound⟩
    exact ⟨_, exec_descriptorFetch_due hat, descriptorFetch_outcome hat⟩
  · obtain ⟨u, v, g, hexec, hu, hcached, hg, hv, hhbm, hsram⟩ := exec_descriptorReturn_words ⟨hfetch, hasked, hdue, hlive⟩ hw
    have hmem := (raiseBad_engineFrame v q).mem
    exact ⟨_, hexec, by rw [hmem, hhbm], by rw [hmem, hsram], checked_outcome hu (hcached _) hg hv hok⟩
  · intro pa hnone hpa halign _ _ hcc hpoison
    exact exec_descriptorReturn_poison ⟨hfetch, hasked, hdue, hlive⟩ hnone hpa halign hcc hpoison
  · exact lastRecordReturn_outcome ⟨hfetch, hloading, hwanted, hmore, hlive, hplace, halign, hquiet⟩ hrecs

end Sys2Proof.Machine
end

section
/-! PROOFS. The chain head of an inline descriptor, whose records are looked up as it is taken (R45, R152, R238). -/

namespace Sys2Proof.Machine

/-- What taking chain head `c`, with `rest` behind it, makes of an idle queue (R45, R46). -/
def headTaken (s : State) (q : Nat) (c : Chain) (rest : List Chain) : State :=
  s.setQ q { s.q q with fifo := rest, chain := some c, base := s.now, loops := [], nextAt := s.now + 1 }

/-- R45, R152: an inline descriptor is checked as its chain is taken: of memory it changes what looking its records up changes. -/
theorem exec_chainHeadTake_inline {s : State} {q : Fin 64} {c : Chain} {rest : List Chain} {w : List Nat} (hfifo : (s.q q).fifo = c :: rest)
    (hlive : qLive s q = true) (hidle : (s.q q).chain = none) (hwait : waitingAt s q = none) (huntimed : s.qTimed q = false)
    (hinline : c.inline = some w) :
    ∃ t, exec (.chainHeadTake q) s = .next t ∧ t.mem = (recsTouch (headTaken s q c rest) q w).mem := by
  have huntimed' : (headTaken s q c rest).qTimed q = false := huntimed
  have hexec : execChainHeadTake q s = .next (raiseBad ((recsTouch (headTaken s q c rest) q w).modQ q fun x =>
      { x with fetch := [earlyChecks (headTaken s q c rest) q { inline := true, chain := c.id, words := some w } w]
               next := (dKnownNext w).map fun a => (a, tagOf w) }) q) := by
    unfold execChainHeadTake
    dsimp only
    rw [hfifo]
    dsimp only
    rw [if_neg (by simp [hlive, hidle, hwait])]
    change (if (headTaken s q c rest).qTimed q && _ then _ else _) = _
    rw [huntimed', hinline]
    rfl
  exact ⟨_, hexec, (raiseBad_engineFrame _ _).mem⟩

/-! ### O27 -/

/-- An SR_LOAD of the record with index 0, the last of its chain. -/
def loadWords : List Nat := [2 ^ 56 + 256 + 8, 2 ^ 60, 0, 0, 0, 0, 0, 0, 0, 0, 0, 0, 0, 0, 0, 0x1000]

/-- Queue 0 of tenant 0, in an open epoch, has a chain of that SR_LOAD inline; the record cache holds its record, with a correctable
error (R246). -/
def inlineLoad : State :=
  { State.reset with
    tens := [(0, { valid := true })]
    wins := [(0, { valid := true })]
    queues := [(0, { valid := true, fifo := [{ inline := some loadWords }] })]
    twn := { run := 1 }
    epc := { state := .opened, count := 1, period := 4096, deadline := 8192 }
    tabF := [(tabKey 1 0 1, 1), (tabKey 1 0 3, 8 * 2 ^ 16 + 2 ^ 27), (tabKey 3 0 0, 2 ^ 31), (tabKey 3 0 2, 1), (tabKey 3 0 3, 1),
             (tabKey 5 0 0, 0x120)]
    mem := { rcache := [{ err := .ce }] } }

/-- R238: the lookup corrects the record's words. -/
theorem inlineLoad_corrects :
    (recsTouch (headTaken inlineLoad 0 { inline := some loadWords } []) 0 loadWords).mem.rcache = [{ err := .clean }] := by decide

/-- Refutes O27: an inline descriptor's check looks its records up in the record cache, and the lookup of one with a correctable error
corrects it (R238), so that the cache is not as before. -/
theorem not_chainHeadsQueueAndStart : ¬ Obligations.ChainHeadsQueueAndStart := by
  intro h
  obtain ⟨t, hexec, hmem, -⟩ := h.2 inlineLoad 0 { inline := some loadWords } [] rfl (by decide) rfl rfl
  obtain ⟨u, hexec', hmem'⟩ := exec_chainHeadTake_inline (s := inlineLoad) (q := 0) (rest := []) rfl (by decide) rfl rfl (by decide)
    (w := loadWords) rfl
  obtain rfl : t = u := Host.Outcome.next.inj (hexec.symm.trans hexec')
  have hcache := (congrArg MemSt.rcache (hmem.symm.trans hmem')).trans inlineLoad_corrects
  exact absurd hcache (by decide)

end Sys2Proof.Machine
end

section
/-! PROOFS. One update of a tack (R84). -/

namespace Sys2Proof.Machine

@[simp] theorem State.modTack_tack (s : State) (i j : Nat) (f : TackSt → TackSt) :
    (s.modTack i f).tack j = if i = j then f (s.tack i) else s.tack j :=
  State.setTack_tack s i j _

/-- R84: the addition of an update passes 65,535. -/
def updSaturates (s : State) (u : TackUpd) : Bool := !u.write && decide (65535 < (s.tack u.tack).value + u.value)

/-- The record of a tack after an update of it (R84). -/
def tackAfter (s : State) (u : TackUpd) : TackSt :=
  { s.tack u.tack with
    value := if u.write then u.value else min 65535 ((s.tack u.tack).value + u.value)
    updates := min 65535 ((s.tack u.tack).updates + 1)
    saturated := (s.tack u.tack).saturated || updSaturates s u }

theorem tackApply_tack (s : State) (u : TackUpd) (k : Nat) :
    (tackApply s u).tack k = if u.tack = k then tackAfter s u else s.tack k := by
  unfold tackApply
  extract_lets v t
  show (if updSaturates s u = true then t.tackBit u.tack 1 else t).tack k = _
  by_cases hk : u.tack = k
  · by_cases hsat : updSaturates s u = true <;> simp [hk, hsat, tackBit_tack, tackAfter, t, v]
  · by_cases hsat : updSaturates s u = true <;> simp [hk, hsat, tackBit_tack, t]

/-- An update touches tacks, and what the cc notes of their saturation bits. -/
theorem tackApply_frame (s : State) (u : TackUpd) :
    tackApply s u = { s with tacks := (tackApply s u).tacks, cc := (tackApply s u).cc } := by
  unfold tackApply
  extract_lets v t
  split <;> rfl

/-- Settles O44: the updated tack's record is `tackAfter`, every other is as before. -/
theorem tackUpdatesSaturate : Obligations.TackUpdatesSaturate := by
  intro s u _ hvalue
  have hself : (tackApply s u).tack u.tack = tackAfter s u := (tackApply_tack s u u.tack).trans (if_pos rfl)
  have hbound : (tackAfter s u).value ≤ 65535 := by
    unfold tackAfter
    split
    · exact hvalue
    · exact Nat.min_le_left _ _
  rw [hself]
  exact ⟨rfl, rfl, rfl, hbound, fun k hk => (tackApply_tack s u k).trans (if_neg (Ne.symm hk)), tackApply_frame s u⟩

end Sys2Proof.Machine
end

section
/-! PROOFS. The knot sample (R88, R89): what the knot condition reads, and what a sample leaves of the tenants. -/

namespace Sys2Proof.Machine

/-! ### The knot condition -/

/-- Between `s` and `t` only records of tenants and what is noted of the cc have changed, and no tenant has come or gone. -/
def TenantNotes (s t : State) : Prop := t = { s with tens := t.tens, cc := t.cc } ∧ ∀ k, t.tenOk k = s.tenOk k

namespace TenantNotes

variable {s t : State}

theorem refl (s : State) : TenantNotes s s := ⟨rfl, fun _ => rfl⟩

theorem trans {u : State} (h : TenantNotes s t) (k : TenantNotes t u) : TenantNotes s u := by
  obtain ⟨h, hok⟩ := h
  obtain ⟨k, kok⟩ := k
  refine ⟨?_, fun i => (kok i).trans (hok i)⟩
  rw [h] at k
  exact k

theorem tenRun (h : TenantNotes s t) (k : Nat) : t.tenRun k = s.tenRun k := by
  rw [State.tenRun, State.tenRun, h.2, h.1]

theorem qOn (h : TenantNotes s t) (q : Nat) : t.qOn q = s.qOn q := by
  rw [State.qOn, h.tenRun, h.1]
  rfl

theorem qsOf (h : TenantNotes s t) (k : Nat) : qsOf t k = qsOf s k := by
  unfold Machine.qsOf
  simp only [h.qOn]
  rw [h.1]
  rfl

theorem freeMask (h : TenantNotes s t) (k : Nat) : freeMask t k = freeMask s k := by
  unfold Machine.freeMask grantedAll State.cmask
  simp only [h.qOn, h.tenRun]
  rw [h.1]
  rfl

theorem blockers (h : TenantNotes s t) (k : Nat) (new : List (Bool × Span)) : blockers t k new = blockers s k new := by
  unfold Machine.blockers
  simp only [h.qsOf, h.freeMask]
  rw [h.1]
  rfl

theorem heldAt (h : TenantNotes s t) (q : Nat) : heldAt t q = heldAt s q := by
  unfold Machine.heldAt
  simp only [h.blockers]
  rw [h.1]
  rfl

theorem inFlight (h : TenantNotes s t) (k : Nat) : inFlight t k = inFlight s k := by
  unfold Machine.inFlight
  simp only [h.qsOf]
  rw [h.1]
  rfl

/-- R89: the knot condition reads of the tenants only which there are. -/
theorem knotHolds (h : TenantNotes s t) (k : Nat) : knotHolds t k = knotHolds s k := by
  have hwork : hasWork t = hasWork s := by
    rw [h.1]
    rfl
  unfold Machine.knotHolds
  simp only [h.qsOf, h.heldAt, h.inFlight, hwork]

end TenantNotes

/-! ### The sample -/

@[simp] theorem State.modTen_ten (s : State) (i j : Nat) (f : TenSt → TenSt) :
    (s.modTen i f).ten j = if i = j then f (s.ten i) else s.ten j :=
  State.setTen_ten s i j _

/-- R89: a tenant's record after a sample before which its condition did not hold. -/
def knotNoted (s : State) (k : Nat) : TenSt :=
  if s.tenRun k && !(s.ten k).abandoned then { s.ten k with knotOnce := knotHolds s k } else s.ten k

/-- R89: a tenant whose condition did not hold at the sample before is not declared in a knot; its sample is remembered. -/
theorem sampleKnot_first {s : State} {k : Nat} (honce : (s.ten k).knotOnce = false) :
    TenantNotes s (sampleKnot s k) ∧ (sampleKnot s k).cc = s.cc ∧
      ∀ j, (sampleKnot s k).ten j = if k = j then knotNoted s k else s.ten j := by
  have hnote : ∀ b, TenantNotes s (s.modTen k fun x => { x with knotOnce := b }) := fun b => by
    refine ⟨rfl, fun j => ?_⟩
    rw [State.tenOk, State.tenOk, State.modTen_ten]
    split
    · rename_i hj
      rw [hj]
    · rfl
  unfold sampleKnot knotNoted
  by_cases hskip : (!s.tenRun k || (s.ten k).abandoned) = true
  · rw [if_pos hskip]
    refine ⟨.refl s, rfl, fun j => ?_⟩
    have hno : (s.tenRun k && !(s.ten k).abandoned) = false := by
      rw [← Bool.not_not (s.tenRun k), ← Bool.not_or, hskip]
      rfl
    rw [hno, if_neg Bool.false_ne_true]
    split
    · rename_i hj
      rw [hj]
    · rfl
  · have hyes : (s.tenRun k && !(s.ten k).abandoned) = true := by
      rw [← Bool.not_not (s.tenRun k), ← Bool.not_or, Bool.eq_false_iff.2 hskip]
      rfl
    rw [if_neg hskip, hyes, if_pos rfl, honce]
    cases knotHolds s k with
    | false => exact ⟨hnote false, rfl, fun j => State.modTen_ten s k j fun x => { x with knotOnce := false }⟩
    | true => exact ⟨hnote true, rfl, fun j => State.modTen_ten s k j fun x => { x with knotOnce := true }⟩

/-- R89: samples of distinct tenants are made one by one, each by the state before them all. -/
theorem foldl_sampleKnot : ∀ (l : List Nat) (s : State), l.Nodup → (∀ k ∈ l, (s.ten k).knotOnce = false) →
    TenantNotes s (l.foldl sampleKnot s) ∧ (l.foldl sampleKnot s).cc = s.cc ∧
      ∀ j, (l.foldl sampleKnot s).ten j = if j ∈ l then knotNoted s j else s.ten j := by
  intro l
  induction l with
  | nil => exact fun s _ _ => ⟨.refl s, rfl, fun j => by simp⟩
  | cons k l ih =>
    intro s hdistinct honce
    obtain ⟨hk, hrest⟩ := List.nodup_cons.1 hdistinct
    obtain ⟨hframe, hcc, hten⟩ := sampleKnot_first (honce k List.mem_cons_self)
    have hother : ∀ j ∈ l, (sampleKnot s k).ten j = s.ten j := fun j hj => by
      rw [hten, if_neg]
      rintro rfl
      exact hk hj
    obtain ⟨hframes, hccs, htens⟩ := ih (sampleKnot s k) hrest fun j hj => by
      rw [hother j hj]
      exact honce j (List.mem_cons_of_mem k hj)
    refine ⟨hframe.trans hframes, hccs.trans hcc, fun j => (htens j).trans ?_⟩
    by_cases hj : j ∈ l
    · rw [if_pos hj, if_pos (List.mem_cons_of_mem k hj), knotNoted, knotNoted, hframe.tenRun, hframe.knotHolds, hother j hj]
    · rw [if_neg hj, hten]
      by_cases hkj : k = j
      · rw [if_pos hkj, if_pos (List.mem_cons.2 (.inl hkj.symm)), hkj]
      · rw [if_neg hkj, if_neg]
        rintro (_ | ⟨_, h⟩)
        · exact hkj rfl
        · exact hj h

/-- The state a sample leaves. -/
def knotSampled (s : State) : State := (List.range 32).foldl sampleKnot (s.setCc { s.cc with knot := true })

/-- R88: a sample falls in this cc, a positive multiple of 256 cc since the open, before the deadline has passed. -/
theorem exec_knotSample_due {s : State} (hruns : s.runs = true) (hstate : s.epc.state = .opened ∨ s.epc.state = .drain)
    (hmultiple : (s.now - s.epc.openAt) % 256 = 0) (hlater : s.epc.openAt < s.now)
    (hdeadline : s.epc.deadlineHit = true ∨ s.now < s.epc.openAt + s.epc.deadline) (hfirst : s.cc.knot = false) :
    exec .knotSample s = .next (knotSampled s) := by
  show execKnotSample s = _
  unfold execKnotSample
  extract_lets since late
  have hsince : since ≠ 0 := Nat.sub_ne_zero_of_lt hlater
  have hlate : late = false := by
    rcases hdeadline with h | h
    · simp [late, h]
    · simp [late, Nat.not_le.2 h]
  rw [if_neg]
  · rfl
  · rcases hstate with h | h <;> simp [hruns, h, hsince, hlate, hfirst, show since % 256 = 0 from hmultiple]

/-- R88: a cc has one sample. -/
theorem exec_knotSample_again {s : State} (h : s.cc.knot = true) : exec .knotSample s = .next s := by
  show execKnotSample s = _
  simp [execKnotSample, h]

/-- Settles O16: of 32 distinct tenants none of which is declared, each sample is remembered in its record alone. -/
theorem knotSampleRemembersTheCondition : Obligations.KnotSampleRemembersTheCondition := by
  intro s hruns hstate hmultiple hlater hdeadline honce hfirst
  have hmarked : TenantNotes s (s.setCc { s.cc with knot := true }) := ⟨rfl, fun _ => rfl⟩
  obtain ⟨hframe, hcc, hten⟩ := foldl_sampleKnot (List.range 32) (s.setCc { s.cc with knot := true }) List.nodup_range
    fun k hk => honce k (List.mem_range.1 hk)
  have hall : TenantNotes s (knotSampled s) := hmarked.trans hframe
  have hnoted : (knotSampled s).cc = { s.cc with knot := true } := hcc
  refine ⟨knotSampled s, exec_knotSample_due hruns hstate hmultiple hlater hdeadline hfirst, ?_,
    exec_knotSample_again (congrArg CcSt.knot hnoted), fun k hk hrun hlive => ?_⟩
  · rw [← hnoted]
    exact hall.1
  · refine (hten k).trans ?_
    rw [if_pos (List.mem_range.2 hk), knotNoted, hmarked.tenRun, hmarked.knotHolds]
    show (if s.tenRun k && !(s.ten k).abandoned then { s.ten k with knotOnce := knotHolds s k } else s.ten k) = _
    rw [hrun, hlive]
    rfl

end Sys2Proof.Machine
end

section
/-! PROOFS. What the scoreboard asks of a front descriptor (R63, R65, R67 to R69). -/

namespace Sys2Proof.Machine

/-- A front descriptor of queue `q` is the oldest of its read-ahead, with its parameters as resolved, and nothing of the queue's own
holds it back. -/
theorem frontOf_room {s : State} {q : Nat} {fr : Front} (h : frontOf s q = some fr) :
    issueRoom s q fr.f.at_ fr.w fr.ps = true := by
  unfold frontOf at h
  split at h
  · unfold readyFront at h
    split at h
    · exact absurd h nofun
    · split at h
      · exact absurd h nofun
      · split at h
        · dsimp only at h
          split at h
          · rename_i hroom
            obtain rfl := Option.some.inj h
            exact hroom
          · exact absurd h nofun
        · exact absurd h nofun
  · exact absurd h nofun

/-- What R63, R65, R68 and R69 ask of a descriptor of a guarded queue before it issues. -/
theorem issueRoom_guarded {s : State} {q at_ : Nat} {w ps : List Nat} (h : issueRoom s q at_ w ps = true) (hguarded : s.qTimed q = false) :
    (s.q q).flight.length < 8 ∧ (dBarrier w = true → (s.q q).flight = []) ∧
      sbFree s (s.qTen q) (sbEntries q (s.q q) w ps).1 (sbEntries q (s.q q) w ps).2 = true := by
  simp only [issueRoom, hguarded, Bool.and_eq_true, Bool.or_eq_true, Bool.not_eq_true', decide_eq_true_eq, Bool.false_eq_true, if_false,
    List.isEmpty_iff] at h
  obtain ⟨⟨⟨height, hbarrier⟩, -, hfree⟩, -⟩ := h
  exact ⟨height, fun hb => hbarrier.resolve_left (by simp [hb]), hfree⟩

/-- R67, R68: entries without a hazard: none meets a held one, unless both read. -/
theorem noHazard_spans {s : State} {t : Nat} {new held : List (Bool × Span)} (h : noHazard s t new held = true) {x y : Bool × Span}
    (hx : x ∈ new) (hy : y ∈ held) (hwrites : x.1 = true ∨ y.1 = true) : spansMeet (freeMask s t) x.2 y.2 = false := by
  have hpair := List.all_eq_true.1 (List.all_eq_true.1 h x hx) y hy
  have hwrite : (x.1 || y.1) = true := Bool.or_eq_true_iff.2 hwrites
  simpa [hwrite] using hpair

/-- A map's entry of a key is one of its list, or what an unlisted key reads as. -/
theorem mget_mem {α : Type} (d : Nat → α) (m : List (Nat × α)) (k : Nat) : (k, mget d m k) ∈ m ∨ mget d m k = d k := by
  induction m with
  | nil => exact .inr rfl
  | cons e m ih =>
    obtain ⟨j, v⟩ := e
    by_cases hj : j = k
    · exact .inl (by simp [hj])
    · rw [mget_cons, if_neg hj]
      exact ih.imp_left (List.mem_cons_of_mem _)

/-- R67: the entries of a guarded queue's descriptors in flight are held by its tenant. -/
theorem flight_entries_held {s : State} {r u : Nat} {f : Flight} {x : Bool × Span} (hguarded : s.qTimed r = false)
    (hf : f ∈ (s.q r).flight) (hx : x ∈ f.entries) : x ∈ heldEntries s (s.qTen r) u := by
  have hlisted : (r, s.q r) ∈ s.queues := (mget_mem _ s.queues r).resolve_right fun h => by
    rw [State.q, h] at hf
    exact absurd hf List.not_mem_nil
  refine List.mem_flatMap.2 ⟨(r, s.q r), hlisted, ?_⟩
  rw [if_pos ⟨rfl, hguarded⟩]
  exact List.mem_append_left _ (List.mem_flatMap.2 ⟨f, hf, hx⟩)

/-- Settles O30: a front descriptor has its room, and the entries of descriptors in flight are among those it was held against. -/
theorem issueWaitsForTheScoreboard : Obligations.IssueWaitsForTheScoreboard := by
  intro s q fr hfront hguarded e
  obtain ⟨height, hbarrier, hfree⟩ := issueRoom_guarded (frontOf_room hfront) hguarded
  obtain ⟨hcount, hhazard⟩ := Bool.and_eq_true_iff.1 hfree
  refine ⟨height, hbarrier, ?_, fun r f _ hten _ htimed hf y hy x hx hwrites => ?_⟩
  · simpa using List.all_eq_true.1 hcount 0 (by decide)
  · exact noHazard_spans hhazard hx (hten ▸ flight_entries_held htimed hf hy) hwrites

end Sys2Proof.Machine
end

section
/-! PROOFS. How a queue goes on after a descriptor that decides nothing itself has issued (R45, R47, R50, R82). -/

namespace Sys2Proof.Machine

/-! ### Its own queue -/

/-- The counters after the descriptor has issued: with LAST the loop around it decides (R82). -/
def cntGoesOn (fr : Front) (x : QueueSt) : List Nat := if dLast fr.w then cntAfter x.cnt (lastGoes x.loops).2.2 else x.cnt

/-- A queue record `x` whose youngest descriptor `fr` has issued, after the queue has gone on: where it reads next, its chains, loops
and whether it has stopped aside, its counters are as `cntGoesOn` says, and of its descriptors in flight the youngest may be marked
as the last of its chain. -/
def WentOn (fr : Front) (x y : QueueSt) : Prop :=
  y = { x with fifo := y.fifo, chain := y.chain, owed := y.owed, fetch := y.fetch, next := y.next, nextAt := y.nextAt, loops := y.loops
               stopped := y.stopped, flight := y.flight, cnt := cntGoesOn fr x } ∧
  (y.flight = x.flight ∨ y.flight = markEnd (x.nextSeq - 1) x.flight)

/-- What a LAST decides, the chain's end among it. -/
theorem goLast_wentOn (s : State) (q tag : Nat) {fr : Front} (hlast : dLast fr.w = true) :
    WentOn fr (s.q q) ((goLast s q (lastSeq s q) tag).q q) := by
  have hcnt : cntGoesOn fr (s.q q) = cntAfter (s.q q).cnt (lastGoes (s.q q).loops).2.2 := if_pos hlast
  unfold WentOn
  rw [hcnt, goLast]
  cases (lastGoes (s.q q).loops).1 with
  | none =>
    rw [goWhere, endChain_q, lastTakes_q]
    exact ⟨rfl, .inr rfl⟩
  | some a =>
    rw [goWhere, goTo_q, lastTakes_q]
    exact ⟨rfl, .inl rfl⟩

/-- R47: a descriptor of the read-ahead that has failed its checks stops the queue, which keeps the rest of its record. -/
theorem raiseBad_q (s : State) (q : Nat) : (raiseBad s q).q q = s.q q ∨ Halted (s.q q) ((raiseBad s q).q q) := by
  rw [raiseBad_eq]
  cases (s.q q).fetch.findSome? badOf with
  | none => exact .inl rfl
  | some x => exact .inr (queueFault_halts s q x.1 x.2.1 x.2.2).1

theorem WentOn.halted {fr : Front} {x y z : QueueSt} (h : WentOn fr x y) (k : Halted y z) : WentOn fr x z := by
  obtain ⟨h, hflight⟩ := h
  have hz : z.flight = y.flight := k.flight
  unfold WentOn
  rw [hz]
  refine ⟨?_, hflight⟩
  unfold Halted at k
  rw [k, h]

theorem goOn_wentOn (s : State) (q : Nat) (fr : Front) : WentOn fr (s.q q) ((goOn s q fr).q q) := by
  have hraise : ∀ u : State, WentOn fr (s.q q) (u.q q) → WentOn fr (s.q q) ((raiseBad u q).q q) := fun u hu => by
    rcases raiseBad_q u q with h | h
    · rw [h]
      exact hu
    · exact hu.halted h
  refine hraise _ ?_
  split
  · exact goLast_wentOn s q _ ‹_›
  · refine ⟨?_, .inl rfl⟩
    rw [cntGoesOn, if_neg ‹_›]

theorem goOn_engineFrame (s : State) (q : Nat) (fr : Front) : EngineFrame s (goOn s q fr) :=
  .trans (.ite (goLast_engineFrame s q _ _) (.refl s)) (raiseBad_engineFrame _ q)

/-- The descriptor in flight as it is when its queue has gone on: it may be marked as the last of its chain. -/
theorem WentOn.getLast {fr : Front} {x y : QueueSt} {l : List Flight} {f : Flight} (h : WentOn fr x y) (hx : x.flight = l ++ [f]) :
    y.flight.length = l.length + 1 ∧ ∃ e, y.flight.getLast? = some { f with ends := e } := by
  obtain ⟨-, h⟩ := h
  rw [hx] at h
  rcases h with h | h
  · rw [h]
    exact ⟨List.length_append, f.ends, List.getLast?_concat⟩
  · rw [h, markEnd, List.map_append, List.map_singleton]
    refine ⟨by simp, f.ends || decide (f.seq = x.nextSeq - 1), List.getLast?_concat.trans ?_⟩
    split <;> simp [*]

/-! ### The other queues -/

theorem State.modQ_other {s : State} {q r : Nat} (f : QueueSt → QueueSt) (h : r ≠ q) : (s.modQ q f).q r = s.q r :=
  (State.modQ_q s q r f).trans (if_neg (Ne.symm h))

theorem stopQueue_other (s : State) {q r : Nat} (tag : Nat) (h : r ≠ q) : (stopQueue s q tag).q r = s.q r := by
  unfold stopQueue
  extract_lets u
  have hu : AnswerFrame s u := by
    unfold u
    split
    · exact .refl s
    · exact retireAnswer_answerFrame s q _ _ _
  have hfifo : (answerFifo u q).q r = u.q r :=
    (State.modQ_other _ h).trans ((AnswerFrame.foldl (fun v c => answerHead_answerFrame v q c) _ u).q r)
  rw [State.modQ_other _ h, hfifo, hu.q]

theorem queueFault_other (s : State) {q r : Nat} (code tag detail : Nat) (h : r ≠ q) : (queueFault s q code tag detail).q r = s.q r := by
  unfold queueFault
  extract_lets s1 s2
  have h1 : s1.q r = s.q r := (recordFault_noteFrame s _).q r
  have h2 : s2.q r = s1.q r := by
    unfold s2
    split
    · rfl
    · exact State.modQ_other _ h
  rw [stopQueue_other s2 tag h, h2, h1]

theorem goOn_other (s : State) {q r : Nat} (fr : Front) (h : r ≠ q) : (goOn s q fr).q r = s.q r := by
  have hbad : ∀ u : State, (raiseBad u q).q r = u.q r := fun u => by
    unfold raiseBad
    split
    · exact queueFault_other u _ _ _ h
    · rfl
  rw [goOn, hbad]
  split
  · rw [goLast]
    cases (lastGoes (s.q q).loops).1 with
    | none =>
      rw [goWhere, endChain, State.modQ_other _ h, State.modFlight, State.modQ_other _ h, lastTakes, State.modQ_other _ h]
    | some a => rw [goWhere, goTo, State.modQ_other _ h, lastTakes, State.modQ_other _ h]
  · rfl

/-- R62: an issue leaves of every other queue all but its credit. -/
theorem issueIt_other (s : State) {q r : Nat} (fr : Front) (mk : Flight → Flight) (h : r ≠ q) :
    ((issueIt s q fr mk).q r).flight = (s.q r).flight := by
  unfold issueIt
  extract_lets x timed e fl s1 s2 s3
  have h2 : CreditFrame s s2 := by
    refine (noteIssue_creditFrame s q).trans ?_
    unfold s2
    split
    · exact bump_creditFrame s1 _ _
    · exact grant_creditFrame s1 q
  have h3 : (s3.q r).flight = (s.q r).flight := by
    unfold s3
    rw [State.modQ_other _ h, h2.2 r]
  split
  · rw [(traceTen_traceFrame s3 _ _ _ _ _).noteFrame.q r]
    exact h3
  · exact h3

end Sys2Proof.Machine
end

section
/-! PROOFS. SET (R64, R77, R79, R82, R84). -/

namespace Sys2Proof.Machine

/-- A SET in flight, not yet gone on from. -/
theorem startSet_due {s : State} {q kind : Nat} {fr : Front} (hfront : frontOf s q = some fr) (hop : dOpcode fr.w = 0x04)
    (hbad : issueBad s q fr = none) (hkind : bits (fr.ps.getD 0 0) 3 0 = kind) (k : Front → State) :
    startSet kind q s k = .next (goOn (k fr) q fr) := by
  rw [startSet, startIssue_due hfront hop hbad, if_pos hkind]

/-- R64, R84: a SET of a tack issues and leaves its update to its retirement. -/
theorem tackSet_issues (s : State) (q : Nat) (fr : Front) :
    ∃ f, ((goOn (issueIt s q fr id) q fr).q q).flight.getLast? = some f ∧ f.words = fr.w ∧ f.complete = false ∧
      EngineFrame s (goOn (issueIt s q fr id) q fr) := by
  obtain ⟨hframe, hissued⟩ := issueIt_issues s q fr id
  have hflight : ((issueIt s q fr id).q q).flight = (s.q q).flight ++ [issuedFlight s q fr] := by
    unfold Issued at hissued
    rw [hissued]
    rfl
  obtain ⟨-, e, hlast⟩ := (goOn_wentOn (issueIt s q fr id) q fr).getLast hflight
  exact ⟨_, hlast, rfl, rfl, hframe.trans (goOn_engineFrame _ q fr)⟩

/-- What an issue leaves of its queue's record: loops, counters, comparators and scalar registers. -/
theorem issuedDone_keeps (s : State) (q : Nat) (fr : Front) :
    let x := (issuedDone s q fr).q q
    x.loops = (s.q q).loops ∧ x.cnt = (s.q q).cnt ∧ x.cmp = (s.q q).cmp ∧ x.sr = (s.q q).sr := by
  have h := issuedDone_q s q fr
  unfold Issued at h
  intro x
  refine ⟨?_, ?_, ?_, ?_⟩ <;> unfold x <;> rw [h]

/-- R82: what the queue's going on leaves of counters, comparators and scalar registers. -/
theorem goOn_registers (s : State) (q : Nat) (fr : Front) :
    ((goOn s q fr).q q).cnt = cntGoesOn fr (s.q q) ∧ ((goOn s q fr).q q).cmp = (s.q q).cmp ∧
      ((goOn s q fr).q q).sr = (s.q q).sr := by
  obtain ⟨hrec, -⟩ := goOn_wentOn s q fr
  refine ⟨?_, ?_, ?_⟩ <;> rw [hrec]

/-- R77, R82: the state a SET leaves that changes its queue's record by `g` as it issues. -/
def setDone (s : State) (q : Nat) (fr : Front) (g : QueueSt → QueueSt) : State := goOn ((issuedDone s q fr).modQ q g) q fr

theorem setDone_engineFrame (s : State) (q : Nat) (fr : Front) (g : QueueSt → QueueSt) : EngineFrame s (setDone s q fr g) :=
  (issuedDone_engineFrame s q fr).trans ((modQ_engineFrame _ q g).trans (goOn_engineFrame _ q fr))

theorem setDone_registers (s : State) (q : Nat) (fr : Front) (g : QueueSt → QueueSt) :
    let x := g ((issuedDone s q fr).q q)
    ((setDone s q fr g).q q).cnt = cntGoesOn fr x ∧ ((setDone s q fr g).q q).cmp = x.cmp := by
  obtain ⟨hcnt, hcmp, -⟩ := goOn_registers ((issuedDone s q fr).modQ q g) q fr
  rw [State.modQ_q, if_pos rfl] at hcnt hcmp
  exact ⟨hcnt, hcmp⟩

/-- R77: a SET whose write of the counters is `h`. -/
theorem setCnt_done (s : State) (q : Nat) (fr : Front) (h : List Nat → List Nat) :
    let t := setDone s q fr fun x => { x with cnt := h x.cnt }
    (t.q q).cnt = cntGoesOn fr { s.q q with cnt := h (s.q q).cnt } ∧ (t.q q).cmp = (s.q q).cmp := by
  obtain ⟨hloops, hcnt, hcmp, -⟩ := issuedDone_keeps s q fr
  obtain ⟨hcnts, hcmps⟩ := setDone_registers s q fr fun x => { x with cnt := h x.cnt }
  refine ⟨hcnts.trans ?_, hcmps.trans hcmp⟩
  unfold cntGoesOn
  dsimp only
  rw [hloops, hcnt]

/-- R77, R78: the comparator a CMP_CONFIG writes. -/
def setCmp (fr : Front) : Cmp :=
  let p1 := fr.ps.getD 1 0
  { a := bits p1 7 0, b := bits p1 15 8, rel := bits p1 18 16, interp := bits p1 21 20
    imm := if bits p1 15 8 = 0x10 then fr.ps.getD 2 0 else 0 }

/-- R77: a SET whose write of the comparators is `h`. -/
theorem setCmp_done (s : State) (q : Nat) (fr : Front) (h : List Cmp → List Cmp) :
    let t := setDone s q fr fun x => { x with cmp := h x.cmp }
    (t.q q).cnt = cntGoesOn fr (s.q q) ∧ (t.q q).cmp = h (s.q q).cmp := by
  obtain ⟨hloops, hcnt, hcmp, -⟩ := issuedDone_keeps s q fr
  obtain ⟨hcnts, hcmps⟩ := setDone_registers s q fr fun x => { x with cmp := h x.cmp }
  refine ⟨hcnts.trans ?_, hcmps.trans (congrArg h hcmp)⟩
  unfold cntGoesOn
  dsimp only
  rw [hloops, hcnt]

/-- R77, R79: an SR_WRITE leaves its scalar register's write to the end of the cc. -/
theorem setSr_done (s : State) (q due r v : Nat) (fr : Front) :
    let t := goOn (srWrite (issuedDone s q fr) due 0 q r v) q fr
    (t.q q).sr = (s.q q).sr ∧ t.srPend = s.srPend ++ [{ due := due, rank := 0, queue := q, reg := r, value := v }] ∧
      t.tacks = s.tacks ∧ t.mem = s.mem := by
  intro t
  have hissued := issuedDone_engineFrame s q fr
  have hon : EngineFrame (srWrite (issuedDone s q fr) due 0 q r v) t := goOn_engineFrame _ q fr
  obtain ⟨-, -, hsr⟩ := goOn_registers (srWrite (issuedDone s q fr) due 0 q r v) q fr
  obtain ⟨-, -, -, hkept⟩ := issuedDone_keeps s q fr
  refine ⟨hsr.trans hkept, ?_, hon.tacks.trans hissued.tacks, hon.mem.trans hissued.mem⟩
  rw [hon, srWrite, hissued]

/-- Settles O33: a SET of a tack is in flight; every other changes its register as it issues, and the queue goes on. -/
theorem setDescriptorsWriteTheirTarget : Obligations.SetDescriptorsWriteTheirTarget := by
  intro s q fr hfront hop hbad after
  have htack : ∃ f, ((goOn (issueIt s q fr id) q fr).q q).flight.getLast? = some f ∧ f.words = fr.w ∧ f.complete = false ∧
      (goOn (issueIt s q fr id) q fr).tacks = s.tacks ∧ (goOn (issueIt s q fr id) q fr).tackUpd = s.tackUpd ∧
      (goOn (issueIt s q fr id) q fr).mem = s.mem := by
    obtain ⟨f, hlast, hwords, hopen, hframe⟩ := tackSet_issues s q fr
    exact ⟨f, hlast, hwords, hopen, hframe.tacks, by rw [hframe], hframe.mem⟩
  have hdone := setDone_engineFrame s q fr
  refine ⟨fun hkind => ?_, fun hkind => ?_, fun hkind => ?_, fun hkind => ?_, fun hkind => ?_, fun hkind => ?_⟩
  · obtain ⟨f, h⟩ := htack
    exact ⟨_, f, startSet_due hfront hop hbad hkind _, h⟩
  · obtain ⟨f, h⟩ := htack
    exact ⟨_, f, startSet_due hfront hop hbad hkind _, h⟩
  · obtain ⟨hcnt, hcmp⟩ := setCnt_done s q fr fun c => c.set (setIndex fr) (fr.ps.getD 1 0 % 2 ^ 32)
    exact ⟨_, startSet_due hfront hop hbad hkind _, hcnt, (hdone _).tacks, (hdone _).mem, hcmp⟩
  · obtain ⟨hcnt, hcmp⟩ := setCnt_done s q fr fun c => c.set (setIndex fr) ((c.getD (setIndex fr) 0 + fr.ps.getD 1 0 % 2 ^ 32) % 2 ^ 32)
    refine ⟨_, startSet_due hfront hop hbad hkind _, hcnt.trans ?_, (hdone _).tacks, (hdone _).mem, hcmp⟩
    rw [Nat.add_mod_mod]
    rfl
  · exact ⟨_, startSet_due hfront hop hbad hkind _, setSr_done s q s.now _ _ fr⟩
  · obtain ⟨hcnt, hcmp⟩ := setCmp_done s q fr fun c => c.set (setIndex fr) (setCmp fr)
    exact ⟨_, setCmp fr, startSet_due hfront hop hbad hkind _, hcmp, rfl, rfl, rfl, rfl, hcnt, (hdone _).tacks, (hdone _).mem⟩

end Sys2Proof.Machine
end

section
/-! PROOFS. What the work of tiles and of scalar descriptors leaves as it was: of the descriptors in flight all that `tileCore` sees, the
tiles in the VCs' queues, tacks, Cobblers and the epoch. -/

namespace Sys2Proof.Machine

/-- What running a tile changes of no descriptor in flight: everything but its fault records, what it delivers, its partials, its
remote requests and lines, and the owner entries and tiles taken. -/
def tileCore (f : Flight) : Flight :=
  { f with wrote := [], faults := 0, srOut := none, partials := [], count := 0, cntPoison := false, remote := 0, lines := [], owns := []
           taken := [] }

theorem tileCore_eq {f g : Flight} (h : tileCore g = tileCore f) :
    g.seq = f.seq ∧ g.words = f.words ∧ g.recs = f.recs ∧ g.params = f.params ∧ g.tiles = f.tiles ∧ g.done = f.done := by
  have hseq : (tileCore g).seq = (tileCore f).seq := by rw [h]
  have hwords : (tileCore g).words = (tileCore f).words := by rw [h]
  have hrecs : (tileCore g).recs = (tileCore f).recs := by rw [h]
  have hparams : (tileCore g).params = (tileCore f).params := by rw [h]
  have htiles : (tileCore g).tiles = (tileCore f).tiles := by rw [h]
  have hdone : (tileCore g).done = (tileCore f).done := by rw [h]
  exact ⟨hseq, hwords, hrecs, hparams, htiles, hdone⟩

theorem tileCore_ignoresFaults : IgnoresFaults tileCore := fun _ _ _ => rfl

/-- Between `s` and `t` what `DataFrame` names has changed, Awl units, counts of routed spikes, VCs but for the tiles in their queues,
and queue records as `KeepsFlights` says. -/
def TileFrame (s t : State) : Prop :=
  DataFrame { s with queues := t.queues, vcs := t.vcs, awls := t.awls, routed := t.routed } t ∧
  (∀ r, KeepsFlights tileCore (s.q r) (t.q r)) ∧ ∀ v, (t.vc v).tiles = (s.vc v).tiles

theorem StoreFrame.tileFrame {s t : State} (h : StoreFrame tileCore s t) : TileFrame s t := by
  obtain ⟨hdata, hflights⟩ := h
  have hvcs : t.vcs = s.vcs := by rw [hdata]
  refine ⟨?_, hflights, fun v => by rw [State.vc, State.vc, hvcs]⟩
  unfold DataFrame at hdata ⊢
  rw [hdata]

theorem DataFrame.tileFrame {s t : State} (h : DataFrame s t) : TileFrame s t := h.storeFrame.tileFrame

namespace TileFrame

theorem refl (s : State) : TileFrame s s := (StoreFrame.refl s).tileFrame

theorem trans {s t u : State} (h : TileFrame s t) (k : TileFrame t u) : TileFrame s u := by
  obtain ⟨h, hq, hv⟩ := h
  obtain ⟨k, kq, kv⟩ := k
  refine ⟨?_, fun r => ?_, fun v => (kv v).trans (hv v)⟩
  · unfold DataFrame at h k ⊢
    rw [h] at k
    exact k
  · obtain ⟨hx, hf⟩ := hq r
    obtain ⟨kx, kf⟩ := kq r
    refine ⟨?_, kf.trans hf⟩
    rw [hx] at kx
    exact kx

theorem ite {s t u : State} {c : Prop} [Decidable c] (ht : TileFrame s t) (hu : TileFrame s u) : TileFrame s (if c then t else u) := by
  split <;> assumption

/-- What every step of a fold keeps, its end keeps. -/
theorem foldl {β : Type} {f : State → β → State} (hf : ∀ s x, TileFrame s (f s x)) :
    ∀ (l : List β) (s : State), TileFrame s (l.foldl f s)
  | [], s => refl s
  | x :: l, s => (hf s x).trans (foldl hf l (f s x))

/-- The same for a fold that carries more than the state. -/
theorem foldl_by {β γ : Type} {f : γ → β → γ} {st : γ → State} (hf : ∀ b x, TileFrame (st b) (st (f b x))) :
    ∀ (l : List β) (b : γ), TileFrame (st b) (st (l.foldl f b))
  | [], b => refl (st b)
  | x :: l, b => (hf b x).trans (foldl_by hf l (f b x))

theorem tacks {s t : State} (h : TileFrame s t) : t.tacks = s.tacks := by rw [h.1]
theorem epc {s t : State} (h : TileFrame s t) : t.epc = s.epc := by rw [h.1]
theorem cbls {s t : State} (h : TileFrame s t) : t.cbls = s.cbls := by rw [h.1]

/-- The descriptors in flight of a queue, as `tileCore` sees them. -/
theorem flight {s t : State} (h : TileFrame s t) (r : Nat) : (t.q r).flight.map tileCore = (s.q r).flight.map tileCore :=
  (h.2.1 r).2

/-- A descriptor found by its number is found again, the same but for what `tileCore` does not see. -/
theorem flightAt {s t : State} (h : TileFrame s t) {q n : Nat} {f : Flight} (hf : s.flightAt q n = some f) :
    ∃ g, t.flightAt q n = some g ∧ tileCore g = tileCore f := by
  have hfind : ∀ l : List Flight, (l.find? fun f => f.seq == n).map tileCore = (l.map tileCore).find? fun f => f.seq == n := by
    intro l
    rw [List.find?_map]
    rfl
  have hmap : (t.flightAt q n).map tileCore = some (tileCore f) := by
    rw [State.flightAt, hfind, h.flight q, ← hfind, ← State.flightAt, hf]
    rfl
  exact Option.map_eq_some_iff.1 hmap

end TileFrame

/-! ### Single updates -/

theorem bump_tileFrame (s : State) (k n : Nat) : TileFrame s (s.bump k n) := DataFrame.tileFrame rfl
theorem tick1_tileFrame (s : State) : TileFrame s s.tick1 := DataFrame.tileFrame rfl
theorem setPort_tileFrame (s : State) (p : Nat) (x : PortSt) : TileFrame s (s.setPort p x) := DataFrame.tileFrame rfl
theorem modPort_tileFrame (s : State) (p : Nat) (f : PortSt → PortSt) : TileFrame s (s.modPort p f) := DataFrame.tileFrame rfl

theorem modFlight_tileFrame (s : State) (q n : Nat) {f : Flight → Flight} (hf : ∀ y, tileCore (f y) = tileCore y) :
    TileFrame s (s.modFlight q n f) :=
  (modFlight_storeFrame s q n hf).tileFrame

theorem flightOnce_tileFrame (s : State) (q n code u l d : Nat) : TileFrame s (flightOnce s q n code u l d) :=
  (flightOnce_storeFrame tileCore_ignoresFaults s q n code u l d).tileFrame

theorem consumePoison_tileFrame (s : State) (q n u operand : Nat) : TileFrame s (consumePoison s q n u operand) :=
  flightOnce_tileFrame s q n 0x20 u 1 operand

theorem recordFault_tileFrame (s : State) (r : FaultRec) : TileFrame s (recordFault s r) := (recordFault_noteFrame s r).storeFrame.tileFrame

theorem modVc_tileFrame (s : State) (v : Nat) {f : VcSt → VcSt} (hf : ∀ x, (f x).tiles = x.tiles) : TileFrame s (s.modVc v f) := by
  refine ⟨rfl, fun r => ⟨rfl, rfl⟩, fun u => ?_⟩
  rw [State.modVc, State.setVc_vc]
  split
  · rename_i h
    rw [← h]
    exact hf _
  · rfl

theorem modAwl_tileFrame (s : State) (y : Nat) (f : AwlSt → AwlSt) : TileFrame s (s.modAwl y f) :=
  ⟨rfl, fun _ => ⟨rfl, rfl⟩, fun _ => rfl⟩

/-! ### Requests to owners -/

/-- R166, R294: a request that ends. -/
theorem reqDone_tileFrame (s : State) (p : Nat) (r : Req) (ok : Bool) (st f : Nat) (ls : List RemoteLine) :
    TileFrame s (reqDone s p r ok st f ls) := by
  unfold reqDone
  extract_lets s1
  have h1 : TileFrame s s1 := modPort_tileFrame s p _
  split
  · rename_i q n _
    have h2 : TileFrame s1 (s1.modFlight q n fun f => { f with remote := f.remote - 1, lines := if r.write then f.lines else f.lines ++ ls }) :=
      modFlight_tileFrame s1 q n fun _ => rfl
    exact h1.trans (.ite h2 (h2.trans (flightOnce_tileFrame _ _ _ _ _ _ _)))
  · exact h1

/-- R279, R292: a request formed. -/
theorem formReq_tileFrame (s : State) (p : Nat) (r : Req) : TileFrame s (formReq s p r) := by
  unfold formReq
  extract_lets r1 s1 s2
  have h1 : TileFrame s s1 := modPort_tileFrame s p _
  have h2 : TileFrame s1 s2 := by
    unfold s2
    split
    · exact modFlight_tileFrame s1 _ _ fun _ => rfl
    · exact .refl s1
  exact h1.trans (h2.trans (.ite (.refl s2) (reqDone_tileFrame s2 p _ _ _ _ _)))

/-! ### Operands read -/

/-- R164: refused places are recorded. -/
theorem refuse_tileFrame (s : State) (q n unit : Nat) (ls : List Loc) : TileFrame s (refuse s q n unit ls) := by
  unfold refuse
  refine .foldl (fun u b => ?_) _ s
  exact .trans (DataFrame.tileFrame (t := { u with ownFlt := _ }) rfl) (flightOnce_tileFrame _ _ _ _ _ _ _)

/-- A requester whose fault records note themselves in its descriptor. -/
abbrev TileAgent (a : Agent) : Prop := Notes tileCore a

theorem tileAgent (q n cls unit tile : Nat) : TileAgent { kind := .tile q n, cls := cls, unit := unit, tile := tile } :=
  tile_notes tileCore_ignoresFaults q n cls unit tile

section Requester

variable {a : Agent} (ha : TileAgent a)
include ha

theorem readUnit_tileFrame (s : State) (q n : Nat) (k : UnitKey) : TileFrame s (readUnit s a q n k).2 := by
  unfold readUnit
  split
  · exact (readLine_storeFrame ha s k.no).tileFrame
  · split
    · exact (readWord_storeFrame ha s k.no).tileFrame
    · split <;> exact .refl s

theorem readUnits_tileFrame (s : State) (q n : Nat) (ks : List UnitKey) : TileFrame s (readUnits s a q n ks).2 := by
  unfold readUnits
  refine TileFrame.foldl_by (γ := List CacheUnit × State) (st := Prod.snd) (fun b k => ?_) ks ([], s)
  exact readUnit_tileFrame ha b.2 q n k

/-- R149, R164: an operand's elements. -/
theorem loadElems_tileFrame (s : State) (q n v : Nat) (ls : List Loc) : TileFrame s (loadElems s a q n v ls).2 := by
  unfold loadElems
  exact (refuse_tileFrame s q n v ls).trans (readUnits_tileFrame ha _ q n _)

/-! ### Words and lines stored -/

/-- R165: a word stored, or a WRITE formed to an owner. -/
theorem storeUnit_tileFrame (s : State) (q n : Nat) (old : List CacheUnit) (u : WUnit) : TileFrame s (storeUnit s a q n old u) := by
  unfold storeUnit
  exact .ite (writeWord_storeFrame ha s _ _ _ _).tileFrame (formReq_tileFrame s _ _)

theorem storeReq_tileFrame (s : State) (t q n : Nat) (old : List CacheUnit) (us : List WUnit) :
    TileFrame s (storeReq s a t q n old us) := by
  unfold storeReq
  split
  · exact .refl s
  · exact .ite (reqWrite_storeFrame ha s t _ _).tileFrame (.foldl (fun v u => storeUnit_tileFrame ha v q n old u) _ s)

/-- R164, R323: puts stored word by word. -/
theorem storePuts_tileFrame (s : State) (t q n v : Nat) (ps : List Put) : TileFrame s (storePuts s a t q n v ps) := by
  unfold storePuts
  extract_lets s1 us r
  have h1 : TileFrame s s1 := refuse_tileFrame s q n v _
  have hr : TileFrame s1 r.2 := readUnits_tileFrame ha s1 q n _
  exact h1.trans (hr.trans (.foldl (fun u x => storeReq_tileFrame ha u t q n r.1 x) _ r.2))

/-- R144: results of an MX destination gathered, and whole blocks stored. -/
theorem storeBlocks_tileFrame (s : State) (t q n v : Nat) (w : List Nat) (d : LastRec) (rs : List (List Nat × Num)) :
    TileFrame s (storeBlocks s a t q n v w d rs) := by
  unfold storeBlocks
  extract_lets sizes held now firsts
  refine .foldl (fun u idx => ?_) firsts s
  extract_lets lanes got slots r s1 new
  have h1 : TileFrame u s1 := modFlight_tileFrame u q n fun _ => rfl
  exact .ite (h1.trans (storePuts_tileFrame ha s1 t q n v r.1)) (modFlight_tileFrame u q n fun _ => rfl)

end Requester

/-- R140, R150: results written to the destination. -/
theorem storeResults_tileFrame (s : State) (q n v k : Nat) (f : Flight) (rs : List (List Nat × Num)) :
    TileFrame s (storeResults s q n v k f rs) := by
  unfold storeResults
  extract_lets t a d
  have ha : TileAgent a := tileAgent q n _ _ _
  exact .ite (storeBlocks_tileFrame ha s t q n v _ d rs) (storePuts_tileFrame ha s t q n v _)

end Sys2Proof.Machine
end

section
/-! PROOFS. Data descriptors as they issue (R63, R67, R74, R91, R96, R100, R121, R223, R397). -/

namespace Sys2Proof.Machine

/-! ### A descriptor cut into tiles -/

/-- Every data opcode issues alike (R91). -/
theorem exec_data {c : Instr} {q : Fin 64} {op : Nat} (h : dataOpcode c = some (q, op)) (s : State) : exec c s = issueData op q s := by
  unfold dataOpcode at h
  split at h <;> cases h <;> rfl

/-- Between `s` and `t` what the queue engine changes has changed, and Awl units. -/
def DataIssueFrame (s t : State) : Prop :=
  t = { s with regs := t.regs, flt := t.flt, trc := t.trc, tens := t.tens, queues := t.queues, ports := t.ports
               freeCtr := t.freeCtr, cc := t.cc, issue := t.issue, lastTen := t.lastTen, awls := t.awls }

theorem DataIssueFrame.trans {s t u : State} (h : DataIssueFrame s t) (k : DataIssueFrame t u) : DataIssueFrame s u := by
  unfold DataIssueFrame at h k
  rw [h] at k
  exact k

theorem EngineFrame.dataIssueFrame {s t : State} (h : EngineFrame s t) : DataIssueFrame s t := by
  unfold EngineFrame at h
  rw [h]
  rfl

theorem foldl_modAwl (f : AwlSt → AwlSt) : ∀ (l : List Nat) (s : State),
    DataIssueFrame s (l.foldl (fun s h => s.modAwl h f) s) ∧ (l.foldl (fun s h => s.modAwl h f) s).queues = s.queues
  | [], _ => ⟨rfl, rfl⟩
  | h :: l, s => by
    have hstep : DataIssueFrame s (s.modAwl h f) ∧ (s.modAwl h f).queues = s.queues := ⟨rfl, rfl⟩
    rw [List.foldl_cons]
    generalize s.modAwl h f = u at hstep
    obtain ⟨hrest, hqueues⟩ := foldl_modAwl f l u
    exact ⟨hstep.1.trans hrest, hqueues.trans hstep.2⟩

/-- R173: a SCATTER's place among the jobs of the homes is noted in the Awl units alone. -/
theorem addJobs_frame (s : State) (q n : Nat) : DataIssueFrame s (addJobs s q n) ∧ (addJobs s q n).queues = s.queues := by
  unfold addJobs
  extract_lets behind put
  exact foldl_modAwl _ _ s

/-- A data descriptor in flight: cut into its tiles, a SCATTER among the jobs of the homes. -/
def dataIssued (op : Nat) (s : State) (q : Nat) (fr : Front) : State :=
  let u := issueIt s q fr fun f => { f with tiles := tileCount fr.w fr.f.recs fr.ps }
  if op = 0x93 then addJobs u q (lastSeq u q) else u

theorem issueData_due {s : State} {q op : Nat} {fr : Front} (hfront : frontOf s q = some fr) (hop : dOpcode fr.w = op)
    (hbad : issueBad s q fr = none) : issueData op q s = .next (goOn (dataIssued op s q fr) q fr) :=
  startIssue_due hfront hop hbad _

theorem dataIssued_frame (op : Nat) (s : State) (q : Nat) (fr : Front) :
    DataIssueFrame s (dataIssued op s q fr) ∧
      ∀ r, (dataIssued op s q fr).q r = (issueIt s q fr fun f => { f with tiles := tileCount fr.w fr.f.recs fr.ps }).q r := by
  have hu := (issueIt_issues s q fr fun f => { f with tiles := tileCount fr.w fr.f.recs fr.ps }).1.dataIssueFrame
  unfold dataIssued
  extract_lets u
  have hjobs := addJobs_frame u q (lastSeq u q)
  split
  · exact ⟨hu.trans hjobs.1, fun r => by rw [State.q, hjobs.2]; rfl⟩
  · exact ⟨hu, fun _ => rfl⟩

/-- R63, R91: the queue after a data descriptor has issued and the queue has gone on. -/
theorem dataIssued_q (op : Nat) (s : State) (q : Nat) (fr : Front) :
    let t := goOn (dataIssued op s q fr) q fr
    (t.q q).flight.length = (s.q q).flight.length + 1 ∧ (t.q q).nextSeq = (s.q q).nextSeq + 1 ∧
      ∃ e, (t.q q).flight.getLast? = some { issuedFlight s q fr with tiles := tileCount fr.w fr.f.recs fr.ps, ends := e } := by
  intro t
  obtain ⟨-, hq⟩ := dataIssued_frame op s q fr
  obtain ⟨-, hissued⟩ := issueIt_issues s q fr fun f => { f with tiles := tileCount fr.w fr.f.recs fr.ps }
  unfold Issued at hissued
  rw [← hq] at hissued
  have hon : WentOn fr ((dataIssued op s q fr).q q) (t.q q) := goOn_wentOn _ q fr
  obtain ⟨hlength, hlast⟩ := hon.getLast (congrArg QueueSt.flight hissued)
  refine ⟨hlength, ?_, hlast⟩
  rw [hon.1]
  exact congrArg QueueSt.nextSeq hissued

/-- R96, R397: a descriptor that fails a check made at issue faults, and does nothing else. -/
theorem startIssue_bad {s : State} {q op code detail : Nat} {fr : Front} (hfront : frontOf s q = some fr) (hop : dOpcode fr.w = op)
    (hbad : issueBad s q fr = some (code, detail)) (k : Front → State) :
    startIssue op q s k = .next (queueFault s q code (tagOf fr.w) detail) := by
  rw [startIssue, hfront]
  dsimp only
  rw [if_neg (not_not_intro hop), hbad]

/-- The command of another opcode leaves the front descriptor waiting. -/
theorem startIssue_other {s : State} {q op : Nat} {fr : Front} (hfront : frontOf s q = some fr) (hop : dOpcode fr.w ≠ op)
    (k : Front → State) : startIssue op q s k = .next s := by
  rw [startIssue, hfront]
  exact if_pos hop

/-! ### SR_LOAD and SR_STORE -/

/-- What a scalar descriptor is in flight: the front descriptor as it is. -/
theorem issuedAs_flight (s : State) (q : Nat) (fr : Front) :
    ((issueIt s q fr id).q q).flight = (s.q q).flight ++ [issuedFlight s q fr] := by
  have h := (issueIt_issues s q fr id).2
  unfold Issued at h
  rw [h]
  rfl

/-- R121: with no scalar descriptor open, the one that issues is the open one, and with no remote line to read it does its work. -/
theorem issueScalar_due {s : State} {q op : Nat} {fr : Front} (hfront : frontOf s q = some fr) (hop : dOpcode fr.w = op)
    (hbad : issueBad s q fr = none) (hopen : srOpen s op q = none)
    (hlocal : ∀ f, srOpen (issueIt s q fr id) op q = some f → srNeeds (issueIt s q fr id) q f = [])
    (run : State → Nat → Flight → State) :
    issueScalar op run q s = .next (goOn (run (issueIt s q fr id) q (issuedFlight s q fr)) q fr) := by
  have hsr : srOpen (issueIt s q fr id) op q = some (issuedFlight s q fr) := by
    unfold srOpen at hopen ⊢
    rw [issuedAs_flight, List.find?_append, hopen, Option.none_or, List.find?_singleton]
    have hword : (dOpcode (issuedFlight s q fr).words == op) = true := beq_iff_eq.2 hop
    rw [hword]
    rfl
  rw [issueScalar, hopen]
  dsimp only
  rw [startIssue_due hfront hop hbad, srWork, hsr]
  dsimp only
  rw [hlocal _ hsr]
  rfl

/-- The youngest descriptor in flight is still the youngest, the same but for what `tileCore` does not see. -/
theorem TileFrame.getLast {s t : State} {q : Nat} {l : List Flight} {f : Flight} (h : TileFrame s t) (hs : (s.q q).flight = l ++ [f]) :
    ∃ l' g, (t.q q).flight = l' ++ [g] ∧ tileCore g = tileCore f := by
  have hmap := h.flight q
  rw [hs, List.map_append, List.map_singleton] at hmap
  obtain ⟨l', r, hflight, -, hr⟩ := List.map_eq_append_iff.1 hmap
  obtain ⟨g, rfl, hg⟩ := List.map_eq_singleton_iff.1 hr
  exact ⟨l', g, hflight, hg⟩

/-- R121: the youngest descriptor after its work is `done` and its queue has gone on. -/
theorem scalarDone_getLast {u v : State} {q : Nat} {l : List Flight} {f : Flight} (hframe : TileFrame u v) (hu : (u.q q).flight = l ++ [f])
    (done : Flight → Flight) (fr : Front) :
    ∃ g e, ((goOn (v.modFlight q f.seq done) q fr).q q).flight.getLast? = some { done g with ends := e } ∧ g.words = f.words := by
  obtain ⟨l', g, hv, hg⟩ := hframe.getLast hu
  obtain ⟨hseq, hwords, -⟩ := tileCore_eq hg
  have hdone : ((v.modFlight q f.seq done).q q).flight = l'.map (fun y => if y.seq = f.seq then done y else y) ++ [done g] := by
    rw [State.modFlight_q, if_pos rfl, hv, List.map_append, List.map_singleton, if_pos hseq]
  obtain ⟨-, e, hlast⟩ := (goOn_wentOn (v.modFlight q f.seq done) q fr).getLast hdone
  exact ⟨g, e, hlast, hwords⟩

theorem srAgent_tileAgent (q n : Nat) : TileAgent (srAgent q n) := tileAgent q n 5 103 0

theorem srOob_tileFrame (s : State) (q : Nat) (f : Flight) (operand : Nat) : TileFrame s (srOob s q f operand) :=
  flightOnce_tileFrame s q _ _ _ _ _

/-- The element an SR_LOAD delivers, and the state its read leaves (R101, R102, R121). -/
def srLoaded (s : State) (q : Nat) (f : Flight) : Nat × State :=
  match srLoadLoc s q f with
  | none => (srDeliver (tyOf f.recs 0) 0 0x7F false, srOob s q f 0)
  | some l =>
    let x := loadElems s (srAgent q f.seq) q f.seq 103 [l]
    let e := x.1.headD {}
    (srDeliver (tyOf f.recs 0) e.bits e.scale e.poison, if e.poison then consumePoison x.2 q f.seq 103 0 else x.2)

theorem srLoadRun_eq (s : State) (q : Nat) (f : Flight) :
    srLoadRun s q f = (srLoaded s q f).2.tick1.modFlight q f.seq fun g => { g with srOut := some (srLoaded s q f).1, complete := true } := rfl

theorem srLoaded_tileFrame (s : State) (q : Nat) (f : Flight) : TileFrame s (srLoaded s q f).2 := by
  unfold srLoaded
  split
  · exact srOob_tileFrame s q f 0
  · have h := loadElems_tileFrame (srAgent_tileAgent q f.seq) s q f.seq 103
    exact .ite ((h _).trans (consumePoison_tileFrame _ _ _ _ _)) (h _)

/-- A read of one unit of an operand changes no byte of HBM. -/
theorem readUnit_hbm (s : State) (a : Agent) (q n : Nat) (k : UnitKey) : (readUnit s a q n k).2.mem.hbm = s.mem.hbm := by
  unfold readUnit
  split
  · exact (readLine_reports s a k.no).2.1
  · split
    · exact (readWord_reports s a k.no).2.1
    · split <;> rfl

/-- What every step of a fold leaves of HBM, its end leaves. -/
theorem foldl_hbm {β γ : Type} {f : γ → β → γ} {st : γ → State} (hf : ∀ b x, (st (f b x)).mem.hbm = (st b).mem.hbm) (l : List β) :
    ∀ b, (st (l.foldl f b)).mem.hbm = (st b).mem.hbm := by
  induction l with
  | nil => exact fun _ => rfl
  | cons x l ih => exact fun b => (ih (f b x)).trans (hf b x)

theorem loadElems_hbm (s : State) (a : Agent) (q n v : Nat) (ls : List Loc) : (loadElems s a q n v ls).2.mem.hbm = s.mem.hbm := by
  have hrefuse : (refuse s q n v ls).mem.hbm = s.mem.hbm := by
    unfold refuse
    refine foldl_hbm (st := fun u : State => u) (fun u b => ?_) _ s
    exact (flightOnce_reports _ _ _ _ _ _ _).2.1
  have hread : ∀ ks u, (readUnits u a q n ks).2.mem.hbm = u.mem.hbm := fun ks u => by
    unfold readUnits
    exact foldl_hbm (γ := List CacheUnit × State) (st := Prod.snd) (fun b k => readUnit_hbm b.2 a q n k) ks ([], u)
  exact (hread _ _).trans hrefuse

theorem srLoaded_hbm (s : State) (q : Nat) (f : Flight) : (srLoaded s q f).2.mem.hbm = s.mem.hbm := by
  unfold srLoaded
  split
  · exact (flightOnce_reports _ _ _ _ _ _ _).2.1
  · extract_lets x e
    have hx : x.2.mem.hbm = s.mem.hbm := loadElems_hbm s _ q f.seq 103 _
    dsimp only
    split
    · exact (flightOnce_reports _ _ _ _ _ _ _).2.1.trans hx
    · exact hx

/-- The state an SR_STORE's write leaves (R102, R121, R143, R144). -/
def srStored (s : State) (q : Nat) (f : Flight) : State :=
  let t := s.qTen q
  let d := recOf f.recs 4
  let a := srAgent q f.seq
  let v := srVc s
  match srStoreIdx f with
  | none => srOob s q f 4
  | some idx =>
    if isMX (rType d) then
      let ls : List (Nat × List Nat × Loc) := srStoreReads s q f idx
      let r := readUnits s a q f.seq (unitsOf (ls.map fun (l : Nat × List Nat × Loc) => l.2.2))
      let lanes : List (Nat × Num) := ls.map fun (l : Nat × List Nat × Loc) =>
        (l.1, if l.2.1 = idx then srStoreVal f else elemNum (rType d) (elemAt r.1 l.2.2))
      storePuts r.2 a t q f.seq v (blockPuts r.2 t v f.words d idx lanes).1
    else storePuts s a t q f.seq v (plainPuts s t v f.words f.recs d [(idx, srStoreVal f)])

theorem srStoreRun_eq (s : State) (q : Nat) (f : Flight) :
    srStoreRun s q f = (srStored s q f).tick1.modFlight q f.seq fun g => { g with complete := true } := rfl

theorem srStored_tileFrame (s : State) (q : Nat) (f : Flight) : TileFrame s (srStored s q f) := by
  unfold srStored
  extract_lets t d a v
  have ha : TileAgent a := srAgent_tileAgent q f.seq
  split
  · exact srOob_tileFrame s q f 4
  · extract_lets ls r lanes
    exact .ite ((readUnits_tileFrame ha s q f.seq _).trans (storePuts_tileFrame ha _ t q f.seq v _)) (storePuts_tileFrame ha s t q f.seq v _)

/-- Settles O29: a data descriptor in flight is `dataIssued`; one that fails a check is `queueFault`; SR_LOAD and SR_STORE do their work
between the issue and the queue's going on. -/
theorem dataDescriptorsIssue : Obligations.DataDescriptorsIssue := by
  refine ⟨fun s c q op fr hdata hfront => ⟨fun hop hbad => ?_, fun hop => ?_⟩,
    fun s c q op code detail fr hdata hfront hop hbad => ?_,
    fun s q fr hfront hbad => ⟨fun hop hopen hlocal => ?_, fun hop hopen hlocal => ?_⟩⟩
  · obtain ⟨hlength, hseq, e, hlast⟩ := dataIssued_q op s q fr
    obtain ⟨hframe, hq⟩ := dataIssued_frame op s q fr
    have hon : DataIssueFrame s (goOn (dataIssued op s q fr) q fr) := hframe.trans (goOn_engineFrame _ q fr).dataIssueFrame
    refine ⟨_, _, (exec_data hdata s).trans (issueData_due hfront hop hbad), hlength, hlast, rfl, rfl, rfl, rfl, rfl, rfl, hseq,
      ?_, ?_, ?_, ?_, ?_, fun r hr => ?_⟩
    iterate 5 rw [hon]
    rw [goOn_other _ fr hr, hq, issueIt_other s fr _ hr]
  · exact (exec_data hdata s).trans (startIssue_other hfront hop _)
  · obtain ⟨hhalt, e, he, hrec⟩ := queueFault_halts s q code (tagOf fr.w) detail
    have hframe := queueFault_engineFrame s q code (tagOf fr.w) detail
    refine ⟨_, (exec_data hdata s).trans (startIssue_bad hfront hop hbad _), hhalt.stopped, ?_, hhalt.flight, hframe.mem, hframe.tacks,
      e, he, ?_⟩
    · rw [hhalt]
    · rw [hrec]
      exact ⟨rfl, rfl, rfl, rfl, rfl⟩
  · have hrun := srLoaded_tileFrame (issueIt s q fr id) q (issuedFlight s q fr)
    obtain ⟨hissue, -⟩ := issueIt_issues s q fr id
    obtain ⟨g, e, hlast, hwords⟩ := scalarDone_getLast (hrun.trans (tick1_tileFrame _)) (issuedAs_flight s q fr)
      (fun g => { g with srOut := some (srLoaded (issueIt s q fr id) q (issuedFlight s q fr)).1, complete := true }) fr
    have hexec := issueScalar_due hfront hop hbad hopen hlocal srLoadRun
    rw [srLoadRun_eq] at hexec
    refine ⟨_, _, hexec, hlast, hwords, rfl, rfl, ?_, ?_⟩
    · rw [(goOn_engineFrame _ q fr).mem]
      exact (srLoaded_hbm _ q _).trans (congrArg MemSt.hbm hissue.mem)
    · rw [(goOn_engineFrame _ q fr).tacks]
      exact hrun.tacks.trans hissue.tacks
  · have hrun := srStored_tileFrame (issueIt s q fr id) q (issuedFlight s q fr)
    obtain ⟨hissue, -⟩ := issueIt_issues s q fr id
    obtain ⟨g, e, hlast, hwords⟩ := scalarDone_getLast (hrun.trans (tick1_tileFrame _)) (issuedAs_flight s q fr)
      (fun g => { g with complete := true }) fr
    have hexec := issueScalar_due hfront hop hbad hopen hlocal srStoreRun
    rw [srStoreRun_eq] at hexec
    refine ⟨_, _, hexec, hlast, hwords, rfl, ?_⟩
    rw [(goOn_engineFrame _ q fr).tacks]
    exact hrun.tacks.trans hissue.tacks

end Sys2Proof.Machine
end

section
/-! PROOFS. What running a tile leaves as it was (R64, R95 to R122, R164, R165, R168, R214). -/

namespace Sys2Proof.Machine

/-! ### Operands -/

theorem loadOp_tileFrame (s : State) (q v : Nat) (f : Flight) (o : Nat) (idxs : List (List Nat)) :
    TileFrame s (loadOp s q v f o idxs).2 :=
  loadElems_tileFrame (tileAgent q f.seq 0 v 0) s q f.seq v _

theorem loadIf_tileFrame (s : State) (q v : Nat) (f : Flight) (o : Nat) (idxs : List (List Nat)) :
    TileFrame s (loadIf s q v f o idxs).2 := by
  unfold loadIf
  split
  · exact loadOp_tileFrame s q v f o idxs
  · exact .refl s

/-- R101: the first poisoned element of a tile's results. -/
theorem consume_tileFrame (s : State) (q n v : Nat) (rs : List ElemRes) : TileFrame s (consume s q n v rs) := by
  unfold consume
  split
  · exact .refl s
  · exact consumePoison_tileFrame s q n v _

/-! ### Element-wise tiles, reductions, rows, gathers -/

theorem elemTileRun_tileFrame (s : State) (q v : Nat) (f : Flight) (k : Nat) : TileFrame s (elemTileRun s q v f k).2 := by
  unfold elemTileRun
  extract_lets idxs src a b c
  have ha : TileFrame s a.2 := loadIf_tileFrame s q v f 0 src
  have hb : TileFrame a.2 b.2 := loadIf_tileFrame a.2 q v f 1 src
  have hc : TileFrame b.2 c.2 := loadIf_tileFrame b.2 q v f 2 src
  exact ha.trans (hb.trans hc)

theorem redTileRun_tileFrame (s : State) (q v : Nat) (f : Flight) (k : Nat) : TileFrame s (redTileRun s q v f k) := by
  unfold redTileRun
  extract_lets sizes z
  refine .foldl (fun u x => ?_) _ s
  extract_lets idxs r vals bad u1 p
  have hr : TileFrame u r.2 := loadOp_tileFrame u q v f 0 idxs
  have h1 : TileFrame r.2 u1 := .ite (consumePoison_tileFrame r.2 q f.seq v 0) (.refl r.2)
  exact hr.trans (h1.trans (modFlight_tileFrame u1 q f.seq fun _ => rfl))

theorem raggedLen_tileFrame (s : State) (q v : Nat) (f : Flight) (idxs : List (List Nat)) : TileFrame s (raggedLen s q v f idxs).2.2 := by
  unfold raggedLen
  extract_lets n r e len
  have hr : TileFrame s r.2 := loadOp_tileFrame s q v f 3 _
  split
  · exact .refl s
  · split
    · exact hr
    · split
      · exact hr.trans (flightOnce_tileFrame _ _ _ _ _ _ _)
      · exact hr

/-- R110 to R114: one row or group. -/
theorem rowRun_tileFrame (s : State) (q v : Nat) (f : Flight) (k : Nat) (counts : Bool) :
    TileFrame s (rowRun s q v f k counts).2 := by
  unfold rowRun
  extract_lets w op idxs r live x g b from_ nums c s1 kk top rest outIdx ys
  have hr : TileFrame s r.2.2 := raggedLen_tileFrame s q v f idxs
  have hx : TileFrame r.2.2 x.2 := loadOp_tileFrame r.2.2 q v f 0 live
  have hg : TileFrame x.2 g.2 := loadIf_tileFrame x.2 q v f 1 live
  have hb : TileFrame g.2 b.2 := loadIf_tileFrame g.2 q v f 2 live
  have hread : TileFrame s b.2 := hr.trans (hx.trans (hg.trans hb))
  split
  · exact hread.trans (.ite (modFlight_tileFrame b.2 q f.seq fun _ => rfl) (.refl b.2))
  · split
    · exact hread
    · exact hread

theorem rowTileRun_tileFrame (s : State) (q v : Nat) (f : Flight) (k : Nat) : TileFrame s (rowTileRun s q v f k).2 := by
  unfold rowTileRun
  split
  · exact rowRun_tileFrame s q v f k true
  · extract_lets blk row
    refine TileFrame.foldl_by (γ := List ElemRes × State) (st := Prod.snd) (fun acc r => ?_) _ ([], s)
    exact rowRun_tileFrame acc.2 q v f r _

theorem awlOff_tileFrame (s : State) (q n h : Nat) : TileFrame s (awlOff s q n h) := flightOnce_tileFrame s q n _ _ _ _

theorem freeNum_tileFrame (s : State) (raw : Bool) : TileFrame s (freeNum s raw).2 :=
  (tick1_tileFrame s).trans (tick1_tileFrame _)

/-- R101, R102, R120, R170: a GATHER tile. -/
theorem gatherTileRun_tileFrame (s : State) (q v : Nat) (f : Flight) (k : Nat) : TileFrame s (gatherTileRun s q v f k).2 := by
  unfold gatherTileRun
  extract_lets t n idxs ix src size raw so pick on got off s1 s2 fr res
  have hix : TileFrame s ix.2 := loadOp_tileFrame s q v f 1 idxs
  have hgot : TileFrame ix.2 got.2 := by
    refine TileFrame.foldl_by (γ := List (Loc × Elem) × State) (st := Prod.snd) (fun acc row => ?_) _ ([], ix.2)
    exact loadElems_tileFrame (tileAgent q n 0 v 0) acc.2 q n v _
  clear_value off
  have h1 : TileFrame got.2 s1 := by
    unfold s1
    split
    · exact awlOff_tileFrame got.2 q n _
    · exact .refl got.2
  have h2 : TileFrame s1 s2 := by
    unfold s2
    split
    · exact flightOnce_tileFrame s1 q n _ _ _ _
    · exact .refl s1
  exact hix.trans (hgot.trans (h1.trans (h2.trans (freeNum_tileFrame s2 raw))))

/-! ### Events -/

theorem evDrop_tileFrame (s : State) (cause n : Nat) : TileFrame s (evDrop s cause n) := .ite (.refl s) (bump_tileFrame s _ n)

/-- R225: EVT_POISON. -/
theorem evtPoison_tileFrame (s : State) (v : Nat) : TileFrame s (evtPoison s v) := by
  unfold evtPoison
  have h1 : TileFrame s (s.modVc v fun x => { x with evtPoison := true }) := modVc_tileFrame s v fun _ => rfl
  exact .ite (.refl s) (h1.trans (recordFault_tileFrame _ _))

theorem scountMod_tileFrame {a : Agent} (ha : TileAgent a) (s : State) (v n : Nat) (g : Nat → Nat) :
    TileFrame s (scountMod s a v n g).2.2 := by
  unfold scountMod
  extract_lets r w sc s1 w1
  have hr : TileFrame s r.2.2 := (readWord_storeFrame ha s _).tileFrame
  have h1 : TileFrame r.2.2 s1 := .ite (evtPoison_tileFrame r.2.2 v) (.refl r.2.2)
  clear_value s1 w1
  refine hr.trans (h1.trans ?_)
  exact (writeWord_storeFrame ha s1 _ _ _ _).tileFrame

/-- R214, R215: an event to a local target. -/
theorem hubTo_tileFrame (s : State) (t v d ev : Nat) : TileFrame s (hubTo s t v d ev) := by
  unfold hubTo fileEvent
  exact .ite (.ite (modVc_tileFrame s v fun _ => rfl) (evDrop_tileFrame s 0 1)) (evDrop_tileFrame s 8 1)

/-- R216: an event to a port. -/
theorem egress_tileFrame (s : State) (p node t due ev : Nat) : TileFrame s (egress s p node t due ev) := by
  unfold egress
  extract_lets x mine put
  have hdrop := evDrop_tileFrame s 7 1
  exact .ite hdrop (.ite hdrop (.ite (setPort_tileFrame s p _) (.ite (setPort_tileFrame s p _) hdrop)))

theorem closeBatches_tileFrame (s : State) : TileFrame s (closeBatches s) := by
  unfold closeBatches
  exact .foldl (fun u p => .ite (.refl u) (modPort_tileFrame u p _)) _ s

theorem routed_tileFrame (s : State) (r : List (Nat × Nat)) : TileFrame s { s with routed := r } :=
  ⟨rfl, fun _ => ⟨rfl, rfl⟩, fun _ => rfl⟩

theorem routeEntry_tileFrame (s : State) (v n e : Nat) : TileFrame s (routeEntry s v n e) := by
  unfold routeEntry
  extract_lets i w0 ev due s1 mask
  have h1 : TileFrame s s1 := routed_tileFrame s _
  refine .ite (.refl s) (.ite (h1.trans (egress_tileFrame s1 _ _ _ due ev)) (h1.trans ?_))
  exact .foldl (fun u x => .ite (hubTo_tileFrame u _ x due ev) (.refl u)) _ s1

/-- R214: a spike is routed. -/
theorem routeSpike_tileFrame (s : State) (v n : Nat) : TileFrame s (routeSpike s v n) := by
  unfold routeSpike
  exact (bump_tileFrame s _ 1).trans (.foldl (fun u e => routeEntry_tileFrame u v n e) _ _)

/-- R122, R223: the tile of an EV_EMIT. -/
theorem emitRun_tileFrame (s : State) (q v : Nat) (f : Flight) : TileFrame s (emitRun s q v f) := by
  unfold emitRun
  extract_lets idxs r s1 u first thr hits s2
  have hr : TileFrame s r.2 := loadOp_tileFrame s q v f 0 idxs
  have h1 : TileFrame r.2 s1 := .ite (consumePoison_tileFrame r.2 q f.seq v 0) (.refl r.2)
  have h2 : TileFrame s1 s2 := .foldl (fun x i =>
    (scountMod_tileFrame (tileAgent q f.seq 3 v 0) x u (first + i) _).trans (routeSpike_tileFrame _ u _)) hits s1
  exact hr.trans (h1.trans (h2.trans ((closeBatches_tileFrame s2).trans (modFlight_tileFrame _ q f.seq fun _ => rfl))))

/-- R122, R223: the tile of an EV_COUNT. -/
theorem countRun_tileFrame (s : State) (q v : Nat) (f : Flight) : TileFrame s (countRun s q v f).2 := by
  unfold countRun
  extract_lets u first r
  unfold r
  refine TileFrame.foldl_by (γ := List ElemRes × State) (st := Prod.snd) (fun acc i => ?_) _ ([], s)
  exact scountMod_tileFrame (tileAgent q f.seq 3 v 0) acc.2 u (first + i) fun _ => 0

/-! ### Contributions -/

theorem setAwlOut_tileFrame (s : State) (y h : Nat) (ms : List ScMsg) : TileFrame s (setAwlOut s y h ms) := modAwl_tileFrame s y _

/-- R101, R102, R164, R168, R171: a SCATTER tile. -/
theorem scatterTileRun_tileFrame (s : State) (q v : Nat) (f : Flight) (k : Nat) : TileFrame s (scatterTileRun s q v f k) := by
  unfold scatterTileRun
  extract_lets t n y d size idxs ix src dsts s0 s1
  have hix : TileFrame s ix.2 := loadOp_tileFrame s q v f 1 idxs
  have hsrc : TileFrame ix.2 src.2 := loadOp_tileFrame ix.2 q v f 0 idxs
  have h0 : TileFrame src.2 s0 := modFlight_tileFrame src.2 q n fun _ => rfl
  have h1 : TileFrame s0 s1 := by
    refine .foldl (fun u x => ?_) _ s0
    extract_lets e val u1
    have hu1 : TileFrame u u1 := .ite (consumePoison_tileFrame u q n v 0) (.refl u)
    clear_value u1
    refine .ite (consumePoison_tileFrame u q n v 1) ?_
    split
    · exact flightOnce_tileFrame u q n _ _ _ _
    · rename_i i _
      extract_lets di l h
      exact hu1.trans (.ite (refuse_tileFrame u1 q n v _) (.ite (awlOff_tileFrame u1 q n h) (setAwlOut_tileFrame u1 y h _)))
  refine hix.trans (hsrc.trans (h0.trans (h1.trans ?_)))
  exact .foldl (fun u h => setAwlOut_tileFrame u y h _) _ s1

/-! ### A tile -/

/-- A tile's results, consumed and stored (R101, R140, R150). -/
theorem finishTile_tileFrame {s : State} {r : List ElemRes × State} (q v k : Nat) (f : Flight) (h : TileFrame s r.2) :
    TileFrame s (storeResults (consume r.2 q f.seq v r.1) q f.seq v k f (r.1.map ElemRes.out)) :=
  h.trans ((consume_tileFrame r.2 q f.seq v r.1).trans (storeResults_tileFrame _ q f.seq v k f _))

theorem runTile_tileFrame (s : State) (q v : Nat) (f : Flight) (k : Nat) : TileFrame s (runTile s q v f k) := by
  unfold runTile
  extract_lets finish
  split
  · exact .refl s
  · exact .refl s
  · exact redTileRun_tileFrame s q v f k
  · exact redTileRun_tileFrame s q v f k
  · exact finishTile_tileFrame q v k f (rowTileRun_tileFrame s q v f k)
  · exact .ite (finishTile_tileFrame q v k f (gatherTileRun_tileFrame s q v f k)) (scatterTileRun_tileFrame s q v f k)
  · exact .ite (emitRun_tileFrame s q v f) (finishTile_tileFrame q v k f (countRun_tileFrame s q v f))
  · exact finishTile_tileFrame q v k f (elemTileRun_tileFrame s q v f k)

theorem tileLeaves_tileFrame (s : State) (t : Tile) (ks : List UnitKey) : TileFrame s (tileLeaves s t ks) := by
  unfold tileLeaves dropLines
  exact (modFlight_tileFrame s t.queue t.seq (f := fun f => { f with lines := ks.foldl dropLine f.lines }) fun _ => rfl).trans
    (modFlight_tileFrame _ t.queue t.seq fun _ => rfl)

end Sys2Proof.Machine
end

section
/-! PROOFS. TILE_DEAL (R91, R92). -/

namespace Sys2Proof.Machine

/-- R91, R92: the tile a queue deals in this cc: of a descriptor in flight with tiles left, 12 cc after its issue, to the VC `dealTo`
finds. -/
theorem dealNow_some {s : State} {q v : Nat} {f : Flight} (h : dealNow s q = some (f, v)) :
    f ∈ (s.q q).flight ∧ f.dealt < f.tiles ∧ f.issued + 12 ≤ s.now ∧ dealTo s q f = some v := by
  unfold dealNow at h
  split at h
  · exact absurd h nofun
  · rename_i g hnext
    split at h
    · rename_i hmay
      obtain ⟨u, hto, hpair⟩ := Option.map_eq_some_iff.1 h
      obtain ⟨rfl, rfl⟩ := Prod.mk.inj hpair
      have hfound : (s.q q).flight.find? undealt = some g := by
        unfold dealNext at hnext
        split at hnext
        · exact absurd hnext nofun
        · dsimp only at hnext
          split at hnext
          · exact absurd hnext nofun
          · rw [← hnext]
            assumption
      have hleft : undealt g = true := List.find?_some hfound
      obtain ⟨hissued, -⟩ := Bool.and_eq_true_iff.1 hmay
      exact ⟨List.mem_of_find?_eq_some hfound, of_decide_eq_true hleft, of_decide_eq_true hissued, hto⟩
    · exact absurd h nofun

/-- Before the first place of an element found in a list nothing fits. -/
theorem find?_first {α : Type} {p : α → Bool} {xs l r : List α} {v : α} (h : xs.find? p = some v) (hsplit : xs = l ++ v :: r)
    (hfirst : v ∉ l) : ∀ x ∈ l, p x = false := by
  intro x hx
  by_contra hp
  have hsome : (l.find? p).isSome = true := List.find?_isSome.2 ⟨x, hx, by simpa using hp⟩
  obtain ⟨y, hy⟩ := Option.isSome_iff_exists.1 hsome
  rw [hsplit, List.find?_append, hy] at h
  obtain rfl : y = v := Option.some.inj h
  exact hfirst (List.mem_of_find?_eq_some hy)

/-- R91: the VC a tile goes to is eligible and has a free slot, and no VC between the last one and it is both. -/
theorem dealTo_some {s : State} {q v : Nat} {f : Flight} (h : dealTo s q f = some v) :
    eligible s q f v = true ∧ (s.vc v).tiles.length < 4 ∧
      ∀ l u, vcsAfter f.lastVc = l ++ v :: u → v ∉ l → ∀ x ∈ l, eligible s q f x = false ∨ 4 ≤ (s.vc x).tiles.length := by
  have hfits := List.find?_some (p := fun u => eligible s q f u && decide ((s.vc u).tiles.length < 4)) h
  obtain ⟨hok, hfree⟩ := Bool.and_eq_true_iff.1 hfits
  refine ⟨hok, of_decide_eq_true hfree, fun l u hsplit hfirst x hx => ?_⟩
  have hnot := find?_first h hsplit hfirst x hx
  rwa [Bool.and_eq_false_iff, decide_eq_false_iff_not, Nat.not_lt] at hnot

/-- R91: a descriptor one tile of which has been dealt to VC `v` in cc `now`. -/
def tileDealt (now v : Nat) (f : Flight) : Flight := { f with dealt := f.dealt + 1, lastVc := some v, dealtAt := now }

/-- R92: whose turn it is in the VC after tile `x` of queue `q` has joined its queue. -/
def tileJoins (s : State) (q : Nat) (t : Tile) (x : VcSt) : VcSt :=
  { (if s.qTimed q then x else turnTaken s (s.qTen q) x) with tiles := x.tiles ++ [t] }

/-- The state after a tile of `f` has been dealt to VC `v`. -/
def dealtTo (s : State) (q : Nat) (f : Flight) (v : Nat) : State :=
  (s.modVc v (tileJoins s q { queue := q, seq := f.seq, no := f.dealt })).modFlight q f.seq (tileDealt s.now v)

theorem exec_tileDeal_due {s : State} {q : Fin 64} {f : Flight} {v : Nat} (hruns : s.runs = true) (hdeal : dealNow s q = some (f, v))
    (hturn : s.qTimed q = true ∨ turnOf s v = some (s.qTen q)) : exec (.tileDeal q) s = .next (dealtTo s q f v) := by
  show execTileDeal q s = _
  rw [execTileDeal, hruns, hdeal]
  dsimp only
  rw [if_neg (by decide), if_neg (by rcases hturn with h | h <;> simp [h])]
  rfl

end Sys2Proof.Machine
end

section
/-! PROOFS. TILE_EXECUTE (R64, R165, R168). -/

namespace Sys2Proof.Machine

/-! ### A tile that asks for its remote lines -/

/-- What every step of a fold keeps, its end keeps. -/
theorem EngineFrame.foldl {α : Type} {f : State → α → State} (hf : ∀ s x, EngineFrame s (f s x)) :
    ∀ (l : List α) (s : State), EngineFrame s (l.foldl f s)
  | [], s => refl s
  | x :: l, s => (hf s x).trans (foldl hf l (f s x))

theorem flightOnce_engineFrame (s : State) (q n code u l d : Nat) : EngineFrame s (flightOnce s q n code u l d) := by
  unfold flightOnce
  split
  · exact .refl s
  · exact .ite (.refl s) (flightFault_engineFrame s q n _ _ _ _)

theorem reqDone_engineFrame (s : State) (p : Nat) (r : Req) (ok : Bool) (st f : Nat) (ls : List RemoteLine) :
    EngineFrame s (reqDone s p r ok st f ls) := by
  unfold reqDone
  extract_lets s1
  have h1 : EngineFrame s s1 := rfl
  split
  · rename_i q n _
    have h2 : EngineFrame s1 (s1.modFlight q n fun f => { f with remote := f.remote - 1, lines := if r.write then f.lines else f.lines ++ ls }) :=
      modFlight_engineFrame s1 q n _
    exact h1.trans (.ite h2 (h2.trans (flightOnce_engineFrame _ q n _ _ _ _)))
  · exact h1

theorem formReq_engineFrame (s : State) (p : Nat) (r : Req) : EngineFrame s (formReq s p r) := by
  unfold formReq
  extract_lets r1 s1 s2
  have h1 : EngineFrame s s1 := rfl
  have h2 : EngineFrame s1 s2 := by
    unfold s2
    split
    · exact modFlight_engineFrame s1 _ _ _
    · exact .refl s1
  exact h1.trans (h2.trans (.ite (.refl s2) (reqDone_engineFrame s2 p _ _ _ _ _)))

/-- R165: READs are formed: ports and descriptors in flight change, and reports of requests that end at once. -/
theorem formReads_engineFrame (s : State) (q n tag : Nat) (ks : List UnitKey) : EngineFrame s (formReads s q n tag ks) := by
  unfold formReads
  refine .foldl (fun u k => .ite (.refl u) ?_) ks s
  extract_lets p here asked
  exact .ite (.refl u) (formReq_engineFrame u p _)

theorem tileAsks_engineFrame (s : State) (v : Nat) (t : Tile) (f : Flight) (ks : List UnitKey) : EngineFrame s (tileAsks s v t f ks) :=
  (modFlight_engineFrame s t.queue t.seq _).trans (formReads_engineFrame _ _ _ _ _)

/-! ### A tile that runs -/

/-- The descriptor as the accesses of tile `x` see its owner entries (R165). -/
def ownedBy (x : Tile) (f : Flight) : Flight := { f with owns := f.owns.filter fun o => o.tile == x.no }

/-- The state after tile `x` of descriptor `f` has run in VC `v`, with `rest` behind it. -/
def tileRan (s : State) (v : Nat) (x : Tile) (rest : List Tile) (f : Flight) : State :=
  tileLeaves (runTile (s.modVc v fun y => { y with tiles := rest }) x.queue v (ownedBy x f) x.no) x (tileNeeds s x.queue v (ownedBy x f) x.no)

theorem exec_tileExecute_runs {s : State} {v : Fin 64} {x : Tile} {rest : List Tile} {f : Flight} (hruns : s.runs = true)
    (htiles : (s.vc v).tiles = x :: rest) (hat : s.flightAt x.queue x.seq = some f) (hturn : awlTurn s v x = true)
    (hhere : linesHere (ownedBy x f) (tileNeeds s x.queue v (ownedBy x f) x.no) = true) :
    exec (.tileExecute v) s = .next (tileDone (tileRan s v x rest f) x.queue x.seq) := by
  show execTileExecute v s = _
  rw [execTileExecute, hruns, htiles]
  dsimp only
  rw [hat]
  dsimp only
  rw [if_neg (by decide), if_neg (by simp [hturn]), if_neg (by simpa [ownedBy] using hhere)]
  rfl

theorem exec_tileExecute_asks {s : State} {v : Fin 64} {x : Tile} {rest : List Tile} {f : Flight} (hruns : s.runs = true)
    (htiles : (s.vc v).tiles = x :: rest) (hat : s.flightAt x.queue x.seq = some f) (hturn : awlTurn s v x = true)
    (haway : linesHere (ownedBy x f) (tileNeeds s x.queue v (ownedBy x f) x.no) = false) :
    exec (.tileExecute v) s = .next (tileAsks s v x (ownedBy x f) (tileNeeds s x.queue v (ownedBy x f) x.no)) := by
  show execTileExecute v s = _
  rw [execTileExecute, hruns, htiles]
  dsimp only
  rw [hat]
  dsimp only
  rw [if_neg (by decide), if_neg (by simp [hturn]), if_pos (by simpa [ownedBy] using haway)]
  rfl

/-- R64: after tile `x` has run, its descriptor is the same but for what `tileCore` does not see; of the VCs' queues that tile alone has
gone. -/
theorem tileRan_frame (s : State) (v : Nat) (x : Tile) (rest : List Tile) (f : Flight) :
    TileFrame (s.modVc v fun y => { y with tiles := rest }) (tileRan s v x rest f) :=
  (runTile_tileFrame _ x.queue v (ownedBy x f) x.no).trans (tileLeaves_tileFrame _ x _)

/-- R64: a descriptor with one more tile done, complete with its last but for reductions and SCATTER. -/
def oneMoreDone (f : Flight) : Flight :=
  { f with done := f.done + 1
           complete := f.complete || (!(clsOf f.words == .red || clsOf f.words == .redsfu || dOpcode f.words == 0x93) &&
             decide (f.tiles ≤ f.done + 1)) }

theorem tileDone_eq (s : State) (q n : Nat) : tileDone s q n = s.modFlight q n oneMoreDone := rfl

theorem oneMoreDone_complete {f : Flight} (hred : clsOf f.words ≠ .red) (hredsfu : clsOf f.words ≠ .redsfu)
    (hscatter : dOpcode f.words ≠ 0x93) (hlast : f.tiles ≤ f.done + 1) : (oneMoreDone f).complete = true := by
  have hwaits : (clsOf f.words == .red || clsOf f.words == .redsfu || dOpcode f.words == 0x93) = false := by
    simp [hred, hredsfu, hscatter]
  rw [oneMoreDone, hwaits, decide_eq_true hlast]
  exact Bool.or_true _

/-- Settles O41: a tile dealt is `dealtTo`; one that runs keeps `tileCore` of its descriptor, and `tileDone` counts it. -/
theorem tilesAreDealtAndRun : Obligations.TilesAreDealtAndRun := by
  refine ⟨fun s q f v hruns hdeal hturn => ?_, fun s v x rest f hruns htiles hat hturn => ?_⟩
  · obtain ⟨hmem, hleft, hissued, hto⟩ := dealNow_some hdeal
    obtain ⟨hok, hfree, hfirst⟩ := dealTo_some hto
    have hvc : ∀ u, (dealtTo s q f v).vc u = if v = u then tileJoins s q { queue := q, seq := f.seq, no := f.dealt } (s.vc v) else s.vc u :=
      fun u => State.setVc_vc s v u _
    have hself : (dealtTo s q f v).vc v = tileJoins s q { queue := q, seq := f.seq, no := f.dealt } (s.vc v) := (hvc v).trans (if_pos rfl)
    refine ⟨_, tileDealt s.now v f, exec_tileDeal_due hruns hdeal hturn, congrArg VcSt.tiles hself, ?_, hok,
      fun u hu => (hvc u).trans (if_neg (Ne.symm hu)), hfirst, ?_, rfl, hleft, hissued, fun r hr => State.modQ_other _ hr, rfl⟩
    · rw [hself, tileJoins, List.length_append]
      exact hfree
    · rw [dealtTo, State.modFlight_q, if_pos rfl]
      exact List.mem_map.2 ⟨f, hmem, if_pos rfl⟩
  · intro r
    refine ⟨fun hhere => ?_, fun haway => ?_⟩
    · have hframe := tileRan_frame s v x rest f
      have hran : (s.modVc v fun y => { y with tiles := rest }).flightAt x.queue x.seq = some f := hat
      obtain ⟨g, hg, hcore⟩ := hframe.flightAt hran
      obtain ⟨-, hwords, hrecs, hparams, htile, hdone⟩ := tileCore_eq hcore
      have hvc : ∀ u, ((s.modVc v fun y => { y with tiles := rest }).vc u).tiles = if v.val = u then rest else (s.vc u).tiles := fun u => by
        rw [State.modVc, State.setVc_vc]
        split <;> rfl
      refine ⟨_, oneMoreDone g, exec_tileExecute_runs hruns htiles hat hturn hhere, ?_, ?_, congrArg (· + 1) hdone, hwords, hrecs, hparams,
        fun hred hredsfu hscatter hlast => ?_, fun u hu => ?_, hframe.tacks, hframe.cbls, hframe.epc⟩
      · exact (hframe.2.2 v).trans ((hvc v).trans (if_pos rfl))
      · rw [tileDone_eq, State.flightAt_modFlight (g := oneMoreDone), hg]
        · rfl
        · exact fun _ => rfl
      · rw [← hwords] at hred hredsfu hscatter
        exact oneMoreDone_complete hred hredsfu hscatter (by omega)
      · exact (hframe.2.2 u).trans ((hvc u).trans (if_neg (Ne.symm hu)))
    · have hasks := tileAsks_engineFrame s v x (ownedBy x f) (tileNeeds s x.queue v (ownedBy x f) x.no)
      exact ⟨_, exec_tileExecute_asks hruns htiles hat hturn haway, by rw [hasks], hasks.mem, hasks.tacks⟩

end Sys2Proof.Machine
end

section
/-! PROOFS. What the issue of a Cobbler instruction, the going on of its program and its end leave of the state (R191, R192, R201,
R202). -/

namespace Sys2Proof.Machine

/-! ### Frames -/

/-- Between `s` and `t` only Cobblers and queues have changed: what a program does whose fetch meets no fault. -/
def ProgramFrame (s t : State) : Prop := t = { s with cbls := t.cbls, queues := t.queues }

/-- The same, with a word of the fetch buffer read, whose error is counted (R246). -/
def IssueFrame (s t : State) : Prop := t = { s with regs := t.regs, cbls := t.cbls, queues := t.queues, cc := t.cc }

namespace ProgramFrame

theorem refl (s : State) : ProgramFrame s s := rfl

theorem trans {s t u : State} (h : ProgramFrame s t) (k : ProgramFrame t u) : ProgramFrame s u := by
  unfold ProgramFrame at h k
  rw [h] at k
  exact k

theorem ite {s t u : State} {c : Prop} [Decidable c] (ht : ProgramFrame s t) (hu : ProgramFrame s u) :
    ProgramFrame s (if c then t else u) := by
  split <;> assumption

theorem issueFrame {s t : State} (h : ProgramFrame s t) : IssueFrame s t := by
  unfold ProgramFrame at h
  rw [h]
  rfl

theorem workFrame {s t : State} (h : ProgramFrame s t) : WorkFrame s t := by
  unfold ProgramFrame at h
  rw [h]
  rfl

end ProgramFrame

namespace IssueFrame

theorem trans {s t u : State} (h : IssueFrame s t) (k : IssueFrame t u) : IssueFrame s u := by
  unfold IssueFrame at h k
  rw [h] at k
  exact k

theorem flt {s t : State} (h : IssueFrame s t) : t.flt = s.flt := by rw [h]
theorem ownsTack {s t : State} (h : IssueFrame s t) (n i : Nat) : t.ownsTack n i = s.ownsTack n i := by rw [h]; rfl
theorem ownsQ {s t : State} (h : IssueFrame s t) (n q : Nat) : t.ownsQ n q = s.ownsQ n q := by rw [h]; rfl

theorem workFrame {s t : State} (h : IssueFrame s t) : WorkFrame s t := by
  unfold IssueFrame at h
  rw [h]
  rfl

end IssueFrame

theorem WorkFrame.srPend {s t : State} (h : WorkFrame s t) : t.srPend = s.srPend := by rw [h]

theorem cblCount_programFrame (s : State) (q n : Nat) : ProgramFrame s (cblCount s q n) := rfl

@[simp] theorem State.modCbl_cbl (s : State) (i j : Nat) (f : CblSt → CblSt) :
    (s.modCbl i f).cbl j = if i = j then f (s.cbl i) else s.cbl j :=
  State.setCbl_cbl s i j _

/-! ### The records of the Cobblers -/

/-- A program's record `x` after an instruction of it has issued: its registers, its PC and what it waits for are as before. -/
def CblIssued (x y : CblSt) : Prop := y = { x with started := y.started, regAt := y.regAt, divAt := y.divAt, lines := y.lines }

/-- A program's record `x` after it has gone on or has ended: its registers and what it has still to do are as before. -/
def CblMoved (x y : CblSt) : Prop :=
  y = { x with running := y.running, pc := y.pc, started := y.started, issueAt := y.issueAt, regAt := y.regAt, divAt := y.divAt
               lines := y.lines, ops := y.ops, twait := y.twait }

theorem CblIssued.trans {x y z : CblSt} (h : CblIssued x y) (k : CblIssued y z) : CblIssued x z := by
  unfold CblIssued at h k
  rw [h] at k
  exact k

theorem CblMoved.trans {x y z : CblSt} (h : CblMoved x y) (k : CblMoved y z) : CblMoved x z := by
  unfold CblMoved at h k
  rw [h] at k
  exact k

theorem CblMoved.regs {x y : CblSt} (h : CblMoved x y) : y.regs = x.regs := by rw [h]
theorem CblMoved.late {x y : CblSt} (h : CblMoved x y) : y.late = x.late := by rw [h]

theorem CblIssued.moved {x y : CblSt} (h : CblIssued x y) : CblMoved x y := by
  unfold CblIssued at h
  rw [h]
  rfl

/-- Of the Cobblers only `k` has changed between `s` and `t`, and its record as `R` allows. -/
def OnlyCbl (R : CblSt → CblSt → Prop) (k : Nat) (s t : State) : Prop := R (s.cbl k) (t.cbl k) ∧ ∀ j, j ≠ k → t.cbl j = s.cbl j

namespace OnlyCbl

theorem trans {R : CblSt → CblSt → Prop} {k : Nat} {s t u : State} (hR : ∀ {x y z}, R x y → R y z → R x z) (h : OnlyCbl R k s t)
    (h2 : OnlyCbl R k t u) : OnlyCbl R k s u :=
  ⟨hR h.1 h2.1, fun j hj => (h2.2 j hj).trans (h.2 j hj)⟩

theorem of_cbls {R : CblSt → CblSt → Prop} {k : Nat} {s t : State} (hR : ∀ x, R x x) (h : t.cbls = s.cbls) : OnlyCbl R k s t := by
  have hcbl : ∀ j, t.cbl j = s.cbl j := fun j => by rw [State.cbl, h]; rfl
  exact ⟨by rw [hcbl]; exact hR _, fun j _ => hcbl j⟩

theorem setCbl {R : CblSt → CblSt → Prop} {k : Nat} {s : State} {c : CblSt} (h : R (s.cbl k) c) : OnlyCbl R k s (s.setCbl k c) := by
  refine ⟨?_, fun j hj => ?_⟩
  · rw [State.setCbl_cbl, if_pos rfl]
    exact h
  · rw [State.setCbl_cbl, if_neg (Ne.symm hj)]

theorem modCbl {R : CblSt → CblSt → Prop} {k : Nat} {s : State} {f : CblSt → CblSt} (h : R (s.cbl k) (f (s.cbl k))) :
    OnlyCbl R k s (s.modCbl k f) :=
  setCbl h

theorem ite {R : CblSt → CblSt → Prop} {k : Nat} {s t u : State} {c : Prop} [Decidable c] (ht : OnlyCbl R k s t)
    (hu : OnlyCbl R k s u) : OnlyCbl R k s (if c then t else u) := by
  split <;> assumption

end OnlyCbl

/-! ### The end of a program -/

theorem cblEnd_programFrame (s : State) (k : Nat) : ProgramFrame s (cblEnd s k) := by
  unfold cblEnd
  extract_lets c s1
  have h1 : ProgramFrame s s1 := rfl
  exact .ite (.refl s) (.ite (h1.trans (cblCount_programFrame s1 _ _)) h1)

/-- R202: the Cobbler is idle; its registers and its PC stay. -/
theorem cblEnd_cbl (s : State) (k : Nat) : OnlyCbl CblMoved k s (cblEnd s k) ∧ ((cblEnd s k).cbl k).running = false ∧
    ((cblEnd s k).cbl k).pc = (s.cbl k).pc ∧ ((s.cbl k).twait = none → ((cblEnd s k).cbl k).twait = none) := by
  unfold cblEnd
  extract_lets c s1
  have hc : s1.cbl k = { c with running := false, twait := none, lines := [], ops := c.ops.map fun o => { o with dead := true } } :=
    (State.setCbl_cbl s k k _).trans (if_pos rfl)
  have h1 : OnlyCbl CblMoved k s s1 := .setCbl rfl
  split
  · rename_i hidle
    exact ⟨.of_cbls (fun _ => rfl) rfl, by rwa [Bool.not_eq_true'] at hidle, rfl, id⟩
  · have hend : ∀ u : State, u.cbls = s1.cbls → OnlyCbl CblMoved k s u ∧ (u.cbl k).running = false ∧ (u.cbl k).pc = (s.cbl k).pc ∧
        ((s.cbl k).twait = none → (u.cbl k).twait = none) := fun u hu => by
      have hcbl : u.cbl k = s1.cbl k := by rw [State.cbl, hu]; rfl
      exact ⟨h1.trans .trans (.of_cbls (fun _ => rfl) hu), by rw [hcbl, hc], by rw [hcbl, hc], fun _ => by rw [hcbl, hc]⟩
    split
    · exact hend _ rfl
    · exact hend _ rfl

/-- R52, R202: the fault record of a program. -/
def cblRec (s : State) (k code level detail : Nat) : FaultRec :=
  let c := s.cbl k
  { tag := c.tag, code := code, unit := 64 + k, tenant := c.tenant, tv := true, queue := c.queue, qv := true, level := level
    detail := detail }

theorem cblRecord_engineFrame (s : State) (k code level detail : Nat) : EngineFrame s (cblRecord s k code level detail) := by
  unfold cblRecord
  extract_lets c s1
  have h1 : EngineFrame s s1 := (recordFault_noteFrame s _).engineFrame
  split
  · exact h1
  · exact h1.trans ((modFlight_engineFrame s1 _ _ _).trans (chainFault_engineFrame _ _ _))

theorem cblRecord_mem_due (s : State) (k code level detail : Nat) :
    (s.now + 4, stamped s (cblRec s k code level detail)) ∈ (cblRecord s k code level detail).flt.due := by
  unfold cblRecord
  extract_lets c s1
  have h1 : (s.now + 4, stamped s (cblRec s k code level detail)) ∈ s1.flt.due := recordFault_mem_due s _
  split
  · exact h1
  · exact h1

theorem EngineFrame.cbls {s t : State} (h : EngineFrame s t) : t.cbls = s.cbls := by rw [h]

/-- What a fault of its program leaves of a Cobbler: its registers, PC and what it has still to do; and the record is on its way. -/
theorem cblFault_ends (s : State) (k code detail : Nat) (t : State) (ht : t = cblEnd (cblRecord s k code 1 detail) k) :
    WorkFrame s t ∧ OnlyCbl CblMoved k s t ∧ (t.cbl k).running = false ∧ (t.cbl k).pc = (s.cbl k).pc ∧
      ((s.cbl k).twait = none → (t.cbl k).twait = none) ∧ (s.now + 4, stamped s (cblRec s k code 1 detail)) ∈ t.flt.due := by
  subst ht
  have hcbls : (cblRecord s k code 1 detail).cbls = s.cbls := (cblRecord_engineFrame s k code 1 detail).cbls
  have hcbl : (cblRecord s k code 1 detail).cbl k = s.cbl k := by rw [State.cbl, hcbls]; rfl
  have hflt : (cblEnd (cblRecord s k code 1 detail) k).flt = (cblRecord s k code 1 detail).flt :=
    (cblEnd_programFrame _ k).issueFrame.flt
  obtain ⟨hmoved, hidle, hpc, htwait⟩ := cblEnd_cbl (cblRecord s k code 1 detail) k
  refine ⟨(cblRecord_workFrame s k code 1 detail).trans (cblEnd_workFrame _ k),
    OnlyCbl.trans .trans (.of_cbls (fun _ => rfl) hcbls) hmoved, hidle, by rw [hpc, hcbl], fun h => htwait (by rw [hcbl]; exact h), ?_⟩
  rw [hflt]
  exact cblRecord_mem_due s k code 1 detail

/-! ### The next instruction -/

/-- R192: the PC takes its value, whether the program goes on there or halts. -/
theorem cGo_moves (s : State) (k pc wait : Nat) : WorkFrame s (cGo s k pc wait) ∧ OnlyCbl CblMoved k s (cGo s k pc wait) ∧
    ((cGo s k pc wait).cbl k).pc = pc ∧ ((s.cbl k).twait = none → ((cGo s k pc wait).cbl k).twait = none) := by
  unfold cGo
  extract_lets c s1
  have hc : s1.cbl k = { c with pc := pc, issueAt := s.now + wait } := (State.setCbl_cbl s k k _).trans (if_pos rfl)
  have hw : WorkFrame s s1 := rfl
  have h1 : OnlyCbl CblMoved k s s1 := .setCbl rfl
  have hpc : (s1.cbl k).pc = pc := by rw [hc]
  have htwait : (s1.cbl k).twait = (s.cbl k).twait := by rw [hc]
  split
  · obtain ⟨hw2, hmoved, -, hpc2, htwait2, -⟩ := cblFault_ends s1 k 0x33 _ _ rfl
    exact ⟨hw.trans hw2, h1.trans .trans hmoved, hpc2.trans hpc, fun h => htwait2 (htwait.trans h)⟩
  · split
    · exact ⟨hw, h1, hpc, fun h => htwait.trans h⟩
    · refine ⟨rfl, h1.trans .trans (.modCbl rfl), ?_, fun h => ?_⟩
      · rw [State.modCbl_cbl, if_pos rfl]
        exact hpc
      · rw [State.modCbl_cbl, if_pos rfl]
        exact htwait.trans h

/-- R192: at a PC in the program's image the program goes on. -/
theorem cGo_in_image (s : State) (k wait : Nat) {pc : Nat} (hpc : pc < 128 * (s.cbl k).len) :
    ProgramFrame s (cGo s k pc wait) ∧ ((cGo s k pc wait).cbl k).running = (s.cbl k).running := by
  unfold cGo
  extract_lets c s1
  have hc : (s1.cbl k).running = c.running := by rw [State.setCbl_cbl, if_pos rfl]
  rw [if_neg (Nat.not_le.2 hpc)]
  split
  · exact ⟨rfl, hc⟩
  · refine ⟨rfl, ?_⟩
    rw [State.modCbl_cbl, if_pos rfl]
    exact hc

/-! ### The issue of an instruction -/

/-- R246: the fetch buffer's words are read; a program that meets no error there is left as it is. -/
theorem cTouch_issues (s : State) (k : Nat) : IssueFrame s (cTouch s k) ∧ OnlyCbl CblIssued k s (cTouch s k) := by
  have hsame : IssueFrame s s ∧ OnlyCbl CblIssued k s s := ⟨rfl, .of_cbls (fun _ => rfl) rfl⟩
  have hcount : ∀ f : CblSt → CblSt, CblIssued (s.cbl k) (f (s.cbl k)) →
      IssueFrame s ((s.bump 0x04B8 1).modCbl k f) ∧ OnlyCbl CblIssued k s ((s.bump 0x04B8 1).modCbl k f) := fun f hf =>
    ⟨rfl, .modCbl (s := s.bump 0x04B8 1) hf⟩
  unfold cTouch
  extract_lets c
  split
  · exact hsame
  · split
    · exact hsame
    · split
      · exact hsame
      · exact hcount _ rfl
      · exact hcount _ rfl

theorem cTouch_clean {s : State} {k pc : Nat} (h : cblPath s k pc = true) : cTouch s k = s := by
  have hclean := (Bool.and_eq_true_iff.1 h).2
  unfold cTouch
  extract_lets c
  split
  · rfl
  · split
    · rfl
    · rename_i l hl
      rw [hl, Option.all_some, beq_iff_eq] at hclean
      rw [hclean]

theorem cIssue_issues (s : State) (k w : Nat) : ProgramFrame s (cIssue s k w) ∧ OnlyCbl CblIssued k s (cIssue s k w) := by
  unfold cIssue
  extract_lets c nx s0 s1 s2 s3
  have hmod : ∀ (u : State) (f : CblSt → CblSt), CblIssued (u.cbl k) (f (u.cbl k)) → OnlyCbl CblIssued k u (u.modCbl k f) :=
    fun u f h => .modCbl h
  have h1 : ProgramFrame s s1 ∧ OnlyCbl CblIssued k s s1 := by
    have hcount : ∀ u : State, OnlyCbl CblIssued k u (cblCount u c.queue c.seq) := fun u => .of_cbls (fun _ => rfl) rfl
    have h0 : OnlyCbl CblIssued k s s0 := hmod s _ rfl
    unfold s1
    split
    · exact ⟨rfl, .of_cbls (fun _ => rfl) rfl⟩
    · split
      · exact ⟨rfl, h0⟩
      · exact ⟨rfl, h0.trans .trans (hcount s0)⟩
  have h2 : ProgramFrame s1 s2 ∧ OnlyCbl CblIssued k s1 s2 := by
    unfold s2
    split
    · exact ⟨rfl, hmod s1 _ rfl⟩
    · exact ⟨rfl, .of_cbls (fun _ => rfl) rfl⟩
  have h3 : ProgramFrame s2 s3 ∧ OnlyCbl CblIssued k s2 s3 :=
    ⟨.ite rfl rfl, .ite (hmod s2 _ rfl) (.of_cbls (fun _ => rfl) rfl)⟩
  have hbefore : ProgramFrame s s3 ∧ OnlyCbl CblIssued k s s3 := ⟨h1.1.trans (h2.1.trans h3.1), h1.2.trans .trans (h2.2.trans .trans h3.2)⟩
  split
  · exact ⟨hbefore.1.trans rfl, hbefore.2.trans .trans (hmod s3 _ rfl)⟩
  · exact hbefore

/-- The state an instruction has its effect on: its word read and the instruction issued. -/
def cReadied (s : State) (k w : Nat) : State := cIssue (cTouch s k) k w

theorem cReadied_frame (s : State) (k w : Nat) : IssueFrame s (cReadied s k w) :=
  (cTouch_issues s k).1.trans (cIssue_issues _ k w).1.issueFrame

theorem cReadied_cbl (s : State) (k w : Nat) : OnlyCbl CblIssued k s (cReadied s k w) :=
  (cTouch_issues s k).2.trans .trans (cIssue_issues _ k w).2

theorem cReadied_clean {s : State} {k pc : Nat} (w : Nat) (h : cblPath s k pc = true) : ProgramFrame s (cReadied s k w) := by
  have hissue := (cIssue_issues (cTouch s k) k w).1
  rw [cTouch_clean h] at hissue
  rwa [cReadied, cTouch_clean h]

theorem cReadied_reg (s : State) (k w i : Nat) : cReg (cReadied s k w) k i = cReg s k i := by
  rw [cReg, (cReadied_cbl s k w).1.moved.regs]
  rfl

/-- R191: the legal word of its opcode at the PC, with nothing that holds it back, issues. -/
theorem cStep_ready {s : State} {k op w : Nat} (h : cblReady s k op w = true) (body : State → Nat → State) :
    cStep op k s body = .next (body (cReadied s k w) w) := by
  simp only [cblReady, Bool.and_eq_true, beq_iff_eq, decide_eq_true_eq] at h
  obtain ⟨⟨⟨⟨hword, hop⟩, hlegal⟩, hon⟩, hclear⟩ := h
  have hforce : ¬ s.eff (64 + k) ≤ 1 := by omega
  simp [cStep, cReadied, hword, hop, hlegal, hclear, hforce]

theorem cblReady_word {s : State} {k op w : Nat} (h : cblReady s k op w = true) : cWord s k = some w := by
  simp only [cblReady, Bool.and_eq_true, beq_iff_eq] at h
  exact h.1.1.1.1

theorem cWord_running {s : State} {k w : Nat} (h : cWord s k = some w) : (s.cbl k).running = true := by
  unfold cWord at h
  extract_lets c at h
  split at h
  · exact absurd h nofun
  · rename_i hc
    simp only [Bool.or_eq_true, Bool.not_eq_true', not_or, Bool.not_eq_false] at hc
    exact hc.1.2

end Sys2Proof.Machine
end

section
/-! PROOFS. TSET, TWAIT, SRRD, SRWR, SUBMIT and HALT (R79, R85, R86, R198 to R200, R202). -/

namespace Sys2Proof.Machine

/-! ### The effect of an instruction that issues -/

theorem cReadied_now (s : State) (k w : Nat) : (cReadied s k w).now = s.now := (cReadied_frame s k w).workFrame.now

theorem cReadied_tenant (s : State) (k w : Nat) : ((cReadied s k w).cbl k).tenant = (s.cbl k).tenant := by
  rw [(cReadied_cbl s k w).1]

theorem cReadied_pc (s : State) (k w : Nat) : ((cReadied s k w).cbl k).pc = (s.cbl k).pc := by
  rw [(cReadied_cbl s k w).1]

/-- The PC of the next instruction in order. -/
def nextPc (s : State) (k : Nat) : Nat := ((s.cbl k).pc + 4) % 2 ^ 32

theorem cNext_eq (s : State) (k : Nat) : cNext s k = cGo s k (nextPc s k) 1 := rfl

/-- After an effect outside the Cobblers the program goes on to the next instruction, with its registers. -/
theorem cNext_readied {s u : State} {k w : Nat} (hu : u.cbls = (cReadied s k w).cbls) :
    ((cNext u k).cbl k).pc = nextPc s k ∧ ((cNext u k).cbl k).regs = (s.cbl k).regs := by
  have hcbl : u.cbl k = (cReadied s k w).cbl k := by rw [State.cbl, hu]; rfl
  obtain ⟨-, hmoved, hpc, -⟩ := cGo_moves u k (nextPc u k) 1
  refine ⟨hpc.trans ?_, hmoved.1.regs.trans ?_⟩
  · rw [nextPc, hcbl, cReadied_pc, nextPc]
  · rw [hcbl, (cReadied_cbl s k w).1.moved.regs]

/-- R202: a fault of the instruction that issues halts the program, which keeps its registers. -/
theorem cblFault_faulted {s v : State} {k : Nat} (hframe : WorkFrame s v) (hissued : CblIssued (s.cbl k) (v.cbl k)) (code a : Nat) :
    cblFaulted s (cblFault v k code a) k code (s.cbl k).pc a ∧ (cblFault v k code a).srPend = s.srPend := by
  have hpc : (v.cbl k).pc = (s.cbl k).pc := by rw [hissued]
  obtain ⟨hend, hmoved, hidle, -, -, hdue⟩ := cblFault_ends v k code (a % 2 ^ 32 * 2 ^ 32 + (v.cbl k).pc % 2 ^ 16)
    (cblFault v k code a) rfl
  have hwork : WorkFrame s (cblFault v k code a) := hframe.trans hend
  refine ⟨⟨hidle, hmoved.1.regs.trans hissued.moved.regs, by rw [hwork.mem], by rw [hwork.mem], ?_⟩, hwork.srPend⟩
  rw [← hpc]
  exact ⟨_, hdue, rfl, rfl, rfl, rfl⟩

/-- R199, R200: an instruction that leaves `l` to a later cc goes on to the next one. -/
theorem cLater_goes {s v : State} {k : Nat} (hrunning : (s.cbl k).running = true) (hframe : IssueFrame s v)
    (hissued : OnlyCbl CblIssued k s v) (hclean : cblPath s k (nextPc s k) = true → ProgramFrame s v) (l : CblLate) :
    ((cNext (cLater v k l) k).cbl k).regs = (s.cbl k).regs ∧ cblStep s (cNext (cLater v k l) k) k (nextPc s k) ∧
      ((cNext (cLater v k l) k).cbl k).late = (s.cbl k).late ++ [l] := by
  obtain ⟨hrecord, hothers⟩ := hissued
  generalize hu : cLater v k l = u
  have hcbl : u.cbl k = { v.cbl k with late := (v.cbl k).late ++ [l] } := by
    rw [← hu]
    exact (State.modCbl_cbl v k k _).trans (if_pos rfl)
  have hpcs : nextPc u k = nextPc s k := by rw [nextPc, nextPc, hcbl, hrecord]
  have hregs : (u.cbl k).regs = (s.cbl k).regs := by rw [hcbl, hrecord]
  have hlate : (u.cbl k).late = (s.cbl k).late ++ [l] := by rw [hcbl, hrecord]
  have hlen : (u.cbl k).len = (s.cbl k).len := by rw [hcbl, hrecord]
  have hruns : (u.cbl k).running = true := by rw [hcbl, hrecord, hrunning]
  have hothers2 : ∀ j, j ≠ k → u.cbl j = s.cbl j := fun j hj => by
    rw [← hu, cLater, State.modCbl_cbl, if_neg (Ne.symm hj), hothers j hj]
  have hprogram : ProgramFrame v u := by rw [← hu]; rfl
  rw [cNext_eq, hpcs]
  obtain ⟨hgo, hmoved, hpc, -⟩ := cGo_moves u k (nextPc s k) 1
  have hwork : WorkFrame s (cGo u k (nextPc s k) 1) := hframe.workFrame.trans (hprogram.workFrame.trans hgo)
  refine ⟨hmoved.1.regs.trans hregs, ⟨hpc, fun j hj => (hmoved.2 j hj).trans (hothers2 j hj), hwork.mem, hwork.tacks, hwork.tackUpd,
    hwork.srPend, fun hpath => ?_⟩, hmoved.1.late.trans hlate⟩
  have himage : nextPc s k < 128 * (u.cbl k).len := by
    rw [hlen]
    exact of_decide_eq_true (Bool.and_eq_true_iff.1 hpath).1
  obtain ⟨hgoes, hstill⟩ := cGo_in_image u k 1 himage
  have hall : ProgramFrame s (cGo u k (nextPc s k) 1) := (hclean hpath).trans (hprogram.trans hgoes)
  refine ⟨hstill.trans hruns, ?_⟩
  unfold ProgramFrame at hall
  rw [hall]

/-! ### Registers -/

/-- R186: every Cobbler holds sixteen registers. -/
theorem cblOk_regs {s : State} (h : cblOk s = true) (k : Nat) : (s.cbl k).regs.length = 16 := by
  rcases mget_mem (fun _ => ({} : CblSt)) s.cbls k with hmem | hdefault
  · have hentry := List.all_eq_true.1 h _ hmem
    simp only [Bool.and_eq_true, beq_iff_eq] at hentry
    exact hentry.1.1
  · rw [State.cbl, hdefault]
    rfl

theorem cSet_programFrame (s : State) (k i v : Nat) : ProgramFrame s (cSet s k i v) := .ite (.refl s) rfl

/-- R186, R189: the register written reads as its value modulo 2^32; c0 and every other are as before. -/
theorem cSet_reg {s : State} {k : Nat} (hregs : (s.cbl k).regs.length = 16) (rd v : Nat) {i : Nat} (hi : i < 16) :
    cReg (cSet s k rd v) k i = if i = rd ∧ i ≠ 0 then v % 2 ^ 32 else cReg s k i := by
  unfold cSet
  split
  · rename_i h0
    rw [if_neg (fun hc => hc.2 (hc.1.trans h0))]
  · by_cases hi0 : i = 0
    · simp [cReg, hi0]
    · by_cases hrd : i = rd
      · subst hrd
        simp [cReg, hi0, State.modCbl_cbl, hregs, hi]
      · simp [cReg, hi0, hrd, State.modCbl_cbl, List.getElem?_set_ne (Ne.symm hrd)]

/-- Beside its registers and what it still has to do a Cobbler keeps all that `cSet` finds. -/
theorem cSet_cbl (s : State) (k rd v : Nat) : (cSet s k rd v).cbl k = { s.cbl k with regs := ((cSet s k rd v).cbl k).regs } := by
  unfold cSet
  split
  · rfl
  · rw [State.modCbl_cbl, if_pos rfl]

theorem cReg_congr {s t : State} {k : Nat} (h : (t.cbl k).regs = (s.cbl k).regs) (i : Nat) : cReg t k i = cReg s k i := by
  rw [cReg, h]
  rfl

/-! ### TSET -/

theorem cTset_ready {s : State} {k w b : Nat} (h : cblReady s k 0x39 w = true) (hfn : cFn w % 2 = b)
    (howns : s.ownsTack (s.cbl k).tenant (cReg s k (cRs1 w) % 1024) = true) :
    cTset b k s = .next (cNext (tackUpdate (cReadied s k w) (64 + k) (cReg s k (cRs1 w) % 1024) (b == 1)
      (cReg s k (cRs2 w) % 2 ^ 16)) k) := by
  unfold cTset
  rw [cblReady_word h]
  dsimp only
  rw [if_neg (fun hc => hc.2 hfn), cStep_ready h]
  simp only [cReadied_reg, cReadied_tenant, (cReadied_frame s k w).ownsTack, howns]
  rfl

/-- R85, R198: TSET sends its update. -/
theorem cTset_sends {s : State} {k w b : Nat} (h : cblReady s k 0x39 w = true) (hfn : cFn w % 2 = b)
    (howns : s.ownsTack (s.cbl k).tenant (cReg s k (cRs1 w) % 1024) = true) :
    ∃ t, cTset b k s = .next t ∧ (t.cbl k).pc = nextPc s k ∧ (t.cbl k).regs = (s.cbl k).regs ∧ t.tacks = s.tacks ∧ t.mem = s.mem ∧
      t.tackUpd = s.tackUpd ++ [{ due := s.now + 2, rank := 64 + k, tack := cReg s k (cRs1 w) % 1024, write := b == 1
                                  value := cReg s k (cRs2 w) % 2 ^ 16 }] := by
  have hready : WorkFrame s (cReadied s k w) := (cReadied_frame s k w).workFrame
  refine ⟨_, cTset_ready h hfn howns, ?_⟩
  generalize hu : tackUpdate _ _ _ _ _ = u
  have hgo : WorkFrame u (cNext u k) := (cGo_moves u k (nextPc u k) 1).1
  obtain ⟨hpc, hregs⟩ := cNext_readied (u := u) (s := s) (k := k) (w := w) (by rw [← hu]; rfl)
  subst hu
  refine ⟨hpc, hregs, hgo.tacks.trans hready.tacks, hgo.mem.trans hready.mem, hgo.tackUpd.trans ?_⟩
  simp only [tackUpdate, hready.tackUpd, hready.now, Nat.mod_mod]

/-! ### TWAIT -/

/-- R198: what a TWAIT waits for. -/
def twaitOf (s : State) (k w : Nat) : Waiting :=
  { tack := cReg s k (cRs1 w) % 1024, thresh := cReg s k (cRs2 w) % 2 ^ 16, consume := bit w 13
    until_ := if bits w 12 0 = 0 then none else some (s.now + 1024 * bits w 12 0) }

theorem exec_twait {s : State} {k : Fin 16} {w : Nat} (h : cblReady s k 0x3A w = true) :
    exec (.cblTwait k) s = .next
      (if s.ownsTack (s.cbl k).tenant (cReg s k (cRs1 w) % 1024) = true then
        (cReadied s k w).modCbl k fun c => { c with twait := some (twaitOf s k w), twaitRd := cRd w }
      else cblEnd (cblRecord (cReadied s k w) k 0x05 1 (cReg s k (cRs1 w) % 1024)) k) := by
  show execCblTwait k s = _
  rw [execCblTwait, cStep_ready h]
  simp only [cReadied_reg, cReadied_tenant, cReadied_now, (cReadied_frame s k w).ownsTack, Bool.not_eq_true']
  cases s.ownsTack (s.cbl k).tenant (cReg s k (cRs1 w) % 1024) <;> rfl

/-- R198: the TWAIT stands at its tack. -/
theorem twait_stands {s : State} {k : Fin 16} {w : Nat} (h : cblReady s k 0x3A w = true)
    (howns : s.ownsTack (s.cbl k).tenant (cReg s k (cRs1 w) % 1024) = true) :
    ∃ t, exec (.cblTwait k) s = .next t ∧ (t.cbl k).pc = (s.cbl k).pc ∧ (t.cbl k).regs = (s.cbl k).regs ∧ t.tacks = s.tacks ∧
      (t.cbl k).twait = some (twaitOf s k w) := by
  have hissued : CblIssued (s.cbl k) ((cReadied s k w).cbl k) := (cReadied_cbl s k w).1
  refine ⟨_, (exec_twait h).trans (by rw [if_pos howns]), ?_⟩
  rw [State.modCbl_cbl, if_pos rfl]
  exact ⟨by rw [hissued], hissued.moved.regs, (cReadied_frame s k w).workFrame.tacks, rfl⟩

/-- R198: a tack of another tenant halts the program. -/
theorem twait_refused {s : State} {k : Fin 16} {w : Nat} (h : cblReady s k 0x3A w = true)
    (howns : s.ownsTack (s.cbl k).tenant (cReg s k (cRs1 w) % 1024) = false) :
    ∃ t, exec (.cblTwait k) s = .next t ∧ (t.cbl k).running = false ∧ ∃ e, e ∈ t.flt.due ∧ e.2.code = 0x05 ∧ e.2.unit = 64 + k.val := by
  obtain ⟨-, -, hidle, -, -, hdue⟩ := cblFault_ends (cReadied s k w) k 0x05 (cReg s k (cRs1 w) % 1024) _ rfl
  exact ⟨_, (exec_twait h).trans (by rw [howns, if_neg Bool.false_ne_true]), hidle, _, hdue, rfl, rfl⟩

/-- R198: a TWAIT that is left gives its result and the program goes on. -/
theorem cLeave_goes {s : State} {k : Nat} (hregs : (s.cbl k).regs.length = 16) (v : Nat) :
    WorkFrame s (cLeave s k v) ∧ ((cLeave s k v).cbl k).pc = nextPc s k ∧ ((cLeave s k v).cbl k).twait = none ∧
      ∀ i, i < 16 → cReg (cLeave s k v) k i = if i = (s.cbl k).twaitRd ∧ i ≠ 0 then v % 2 ^ 32 else cReg s k i := by
  unfold cLeave
  extract_lets rd
  rw [cNext_eq]
  generalize hleft : (s.modCbl k fun c => { c with twait := none }) = s1
  have h1 : s1.cbl k = { s.cbl k with twait := none } := by
    rw [← hleft]
    exact (State.modCbl_cbl s k k _).trans (if_pos rfl)
  generalize hset : cSet s1 k rd v = s2
  have h2 : s2.cbl k = { s1.cbl k with regs := (s2.cbl k).regs } := by
    rw [← hset]
    exact cSet_cbl s1 k rd v
  generalize hbusy : cBusy s2 k rd (s.now + 3) = s3
  have h3 : s3.cbl k = { s2.cbl k with regAt := (s3.cbl k).regAt } := by
    rw [← hbusy, cBusy, State.modCbl_cbl, if_pos rfl]
  have hpcs : nextPc s3 k = nextPc s k := by rw [nextPc, nextPc, h3, h2, h1]
  have htwait : (s3.cbl k).twait = none := by rw [h3, h2, h1]
  have hframe : ProgramFrame s s3 := by
    have hf1 : ProgramFrame s s1 := by rw [← hleft]; rfl
    have hf2 : ProgramFrame s1 s2 := by
      rw [← hset]
      exact cSet_programFrame s1 k rd v
    have hf3 : ProgramFrame s2 s3 := by rw [← hbusy]; rfl
    exact hf1.trans (hf2.trans hf3)
  obtain ⟨hgo, hmoved, hpc, hnone⟩ := cGo_moves s3 k (nextPc s3 k) 1
  refine ⟨hframe.workFrame.trans hgo, hpc.trans hpcs, hnone htwait, fun i hi => ?_⟩
  have hlength : (s1.cbl k).regs.length = 16 := by
    rw [h1]
    exact hregs
  have h32 : (s3.cbl k).regs = (s2.cbl k).regs := by rw [h3]
  have h1s : (s1.cbl k).regs = (s.cbl k).regs := by rw [h1]
  rw [cReg_congr (hmoved.1.regs.trans h32), ← hset, cSet_reg hlength rd v hi, cReg_congr h1s]

theorem tackConsume_cbl (s : State) (u : Waiting) (j : Nat) : (tackConsume s u).cbl j = s.cbl j := by
  unfold tackConsume
  split <;> rfl

/-- R86, R198: the threshold is reached and no waiter below takes the units. -/
theorem exec_twaitSatisfied {s : State} {k : Fin 16} {u : Waiting} (hwait : (s.cbl k).twait = some u) (hruns : s.runs = true)
    (hmeets : u.thresh ≤ (s.tack u.tack).value) (hfirst : takenBefore s u.tack 64 k = false) :
    exec (.cblTwaitSatisfied k) s = .next (cLeave (tackConsume s u) k 1) := by
  show execCblTwaitSatisfied k s = _
  rw [execCblTwaitSatisfied, hwait]
  simp [hruns, tackMeets, hmeets, hfirst]

theorem twait_satisfied {s : State} {k : Fin 16} {u : Waiting} (hregs : (s.cbl k).regs.length = 16) (hwait : (s.cbl k).twait = some u)
    (hruns : s.runs = true) (hmeets : u.thresh ≤ (s.tack u.tack).value) (hfirst : takenBefore s u.tack 64 k = false) :
    ∃ t, exec (.cblTwaitSatisfied k) s = .next t ∧ (t.cbl k).pc = nextPc s k ∧ cblWrote s t k (s.cbl k).twaitRd 1#32 ∧
      (t.cbl k).twait = none ∧
      (t.tack u.tack).value = (if u.consume then (s.tack u.tack).value - u.thresh else (s.tack u.tack).value) ∧
      ∀ j, j ≠ u.tack → t.tack j = s.tack j := by
  have hcbl : (tackConsume s u).cbl k = s.cbl k := tackConsume_cbl s u k
  obtain ⟨hframe, hpc, hnone, hwrote⟩ := cLeave_goes (s := tackConsume s u) (k := k) (by rw [hcbl, hregs]) 1
  refine ⟨_, exec_twaitSatisfied hwait hruns hmeets hfirst, hpc.trans (by rw [nextPc, hcbl, nextPc]), fun i hi => ?_, hnone, ?_,
    fun j hj => ?_⟩
  · rw [hwrote i hi, hcbl, cReg_congr (s := s) (by rw [hcbl])]
    rfl
  · rw [hframe.tack, tackConsume_tack]
    by_cases hc : u.consume = true
    · rw [if_pos ⟨hc, rfl⟩, if_pos hc]
    · rw [if_neg (fun h => hc h.1), if_neg hc]
  · rw [hframe.tack, tackConsume_tack, if_neg (fun h => hj h.2.symm)]

/-- R198: the limit of a TWAIT whose threshold is not reached passes. -/
theorem exec_twaitTimeout {s : State} {k : Fin 16} {u : Waiting} {d : Nat} (hwait : (s.cbl k).twait = some u) (hruns : s.runs = true)
    (hbelow : (s.tack u.tack).value < u.thresh) (hlimit : u.until_ = some d) (hpassed : d ≤ s.now) :
    exec (.cblTwaitTimeout k) s = .next (cLeave s k 0) := by
  show execCblTwaitTimeout k s = _
  rw [execCblTwaitTimeout, hwait]
  simp [hruns, tackMeets, Nat.not_le.2 hbelow, hlimit, hpassed]

theorem twait_timeout {s : State} {k : Fin 16} {u : Waiting} {d : Nat} (hregs : (s.cbl k).regs.length = 16)
    (hwait : (s.cbl k).twait = some u) (hruns : s.runs = true) (hbelow : (s.tack u.tack).value < u.thresh) (hlimit : u.until_ = some d)
    (hpassed : d ≤ s.now) :
    ∃ t, exec (.cblTwaitTimeout k) s = .next t ∧ (t.cbl k).pc = nextPc s k ∧ cblWrote s t k (s.cbl k).twaitRd 0#32 ∧
      (t.cbl k).twait = none ∧ t.tacks = s.tacks := by
  obtain ⟨hframe, hpc, hnone, hwrote⟩ := cLeave_goes hregs 0
  exact ⟨_, exec_twaitTimeout hwait hruns hbelow hlimit hpassed, hpc, fun i hi => hwrote i hi, hnone, hframe.tacks⟩

/-! ### SRRD, SRWR, SUBMIT and HALT -/

theorem exec_srrd {s : State} {k : Fin 16} {w : Nat} (h : cblReady s k 0x3B w = true) :
    exec (.cblSrrd k) s = .next
      (if s.ownsQ (s.cbl k).tenant (cReg s k (cRs1 w) % 64) = true then
        cNext (cLater (cReadied s k w) k { due := s.now + 1, queue := cReg s k (cRs1 w) % 64, arg := bits w 3 0, rd := cRd w }) k
      else cblFault (cReadied s k w) k 0x32 (cReg s k (cRs1 w))) := by
  show execCblSrrd k s = _
  rw [execCblSrrd, cStep_ready h]
  simp only [cReadied_reg, cReadied_tenant, cReadied_now, (cReadied_frame s k w).ownsQ, Bool.not_eq_true']
  cases s.ownsQ (s.cbl k).tenant (cReg s k (cRs1 w) % 64) <;> rfl

theorem exec_srwr {s : State} {k : Fin 16} {w : Nat} (h : cblReady s k 0x3C w = true) :
    exec (.cblSrwr k) s = .next
      (if s.ownsQ (s.cbl k).tenant (cReg s k (cRs1 w) % 64) = true then
        cNext (srWrite (cReadied s k w) (s.now + 2) (1 + k) (cReg s k (cRs1 w) % 64) (bits w 2 0)
          (cReg s k (cRd w) * 2 ^ 32 + cReg s k (cRs2 w))) k
      else cblFault (cReadied s k w) k 0x32 (cReg s k (cRs1 w))) := by
  show execCblSrwr k s = _
  rw [execCblSrwr, cStep_ready h]
  simp only [cReadied_reg, cReadied_tenant, cReadied_now, (cReadied_frame s k w).ownsQ, Bool.not_eq_true']
  cases s.ownsQ (s.cbl k).tenant (cReg s k (cRs1 w) % 64) <;> rfl

/-- R79, R199: SRWR leaves its write to the cc after the next. -/
theorem srwr_sends {s : State} {k : Fin 16} {w : Nat} (h : cblReady s k 0x3C w = true)
    (howns : s.ownsQ (s.cbl k).tenant (cReg s k (cRs1 w) % 64) = true) :
    ∃ t, exec (.cblSrwr k) s = .next t ∧ (t.cbl k).pc = nextPc s k ∧ (t.cbl k).regs = (s.cbl k).regs ∧ t.mem = s.mem ∧
      t.srPend = s.srPend ++ [{ due := s.now + 2, rank := 1 + k.val, queue := cReg s k (cRs1 w) % 64, reg := bits w 2 0
                                value := cReg s k (cRd w) * 2 ^ 32 + cReg s k (cRs2 w) }] := by
  have hready : WorkFrame s (cReadied s k w) := (cReadied_frame s k w).workFrame
  refine ⟨_, (exec_srwr h).trans (by rw [if_pos howns]), ?_⟩
  generalize hu : srWrite _ _ _ _ _ _ = u
  have hgo : WorkFrame u (cNext u k) := (cGo_moves u k (nextPc u k) 1).1
  obtain ⟨hpc, hregs⟩ := cNext_readied (u := u) (s := s) (k := k) (w := w) (by rw [← hu]; rfl)
  subst hu
  exact ⟨hpc, hregs, hgo.mem.trans hready.mem, hgo.srPend.trans (by rw [srWrite, hready.srPend])⟩

/-- The head a SUBMIT names: its high byte and its low word (R200). -/
theorem exec_submit {s : State} {k : Fin 16} {w : Nat} (h : cblReady s k 0x3D w = true) :
    exec (.cblSubmit k) s = .next
      (if cReg s k (cRs2 w) / 256 ≠ 0 then cblFault (cReadied s k w) k 0x32 (cReg s k (cRs1 w))
      else cNext (cLater (cReadied s k w) k
        { due := s.now + 2, submit := true, queue := bits w 5 0, arg := cReg s k (cRs2 w) % 256 * 2 ^ 32 + cReg s k (cRs1 w)
          tenant := (s.cbl k).tenant, rd := cRd w }) k) := by
  show execCblSubmit k s = _
  rw [execCblSubmit, cStep_ready h]
  simp only [cReadied_reg, cReadied_tenant, cReadied_now]

theorem exec_halt {s : State} {k : Fin 16} {w : Nat} (h : cblReady s k 0x3E w = true) :
    exec (.cblHalt k) s = .next (cblEnd (cReadied s k w) k) := by
  show execCblHalt k s = _
  rw [execCblHalt, cStep_ready h]

/-- R202: nothing of a program that may HALT is outstanding. -/
theorem halt_nothing_out {s : State} {k w : Nat} (h : cblReady s k 0x3E w = true) : cOut s k = [] := by
  simp only [cblReady, Bool.and_eq_true, beq_iff_eq, decide_eq_true_eq] at h
  obtain ⟨⟨⟨⟨-, hop⟩, -⟩, -⟩, hclear⟩ := h
  unfold cClear at hclear
  extract_lets out op at hclear
  have hlast := (Bool.and_eq_true_iff.1 hclear).2
  have hout : out.isEmpty = true := by simpa [op, hop] using hlast
  exact List.isEmpty_iff.1 hout

/-- R202: HALT ends the program. -/
theorem halt_ends {s : State} {k : Fin 16} {w : Nat} (h : cblReady s k 0x3E w = true) :
    ∃ t, exec (.cblHalt k) s = .next t ∧ (t.cbl k).running = false ∧ (t.cbl k).regs = (s.cbl k).regs ∧ t.mem = s.mem ∧
      t.flt = s.flt ∧ ∀ j, j ≠ k.val → t.cbl j = s.cbl j := by
  obtain ⟨hmoved, hidle, -, -⟩ := cblEnd_cbl (cReadied s k w) k
  have hframe : IssueFrame s (cblEnd (cReadied s k w) k) := (cReadied_frame s k w).trans (cblEnd_programFrame _ k).issueFrame
  obtain ⟨hissued, hothers⟩ := cReadied_cbl s k w
  exact ⟨_, exec_halt h, hidle, hmoved.1.regs.trans hissued.moved.regs, hframe.workFrame.mem, hframe.flt,
    fun j hj => (hmoved.2 j hj).trans (hothers j hj)⟩

/-! ### What an instruction does in a later cc -/

/-- R200: the FIFO of the queue a SUBMIT reaches, when its status is 0. -/
def cblSubmitted (s : State) (l : CblLate) : State :=
  if cblSubmitStatus s l.tenant l.queue l.arg = 0 then fifoAdd s l.queue { addr := l.arg, tenant := l.tenant } else s

theorem cblLate_submit {s : State} {k : Nat} {l : CblLate} (h : l.submit = true) :
    cblLate s k l = cSet (cblSubmitted s l) k l.rd (cblSubmitStatus s l.tenant l.queue l.arg) := by
  rw [cblLate, if_pos h]
  rfl

theorem cblLate_read {s : State} {k : Nat} {l : CblLate} (h : l.submit = false) :
    cblLate s k l = cSet s k l.rd
      (if bit l.arg 3 then bits ((s.q l.queue).sr.getD (l.arg % 8) 0) 63 32 else bits ((s.q l.queue).sr.getD (l.arg % 8) 0) 31 0) := by
  rw [cblLate, if_neg (by rw [h]; exact Bool.false_ne_true)]

theorem cSet_cblsFrame (s : State) (k i v : Nat) : cSet s k i v = { s with cbls := (cSet s k i v).cbls } := by
  unfold cSet
  split <;> rfl

theorem cblSubmitted_frame (s : State) (l : CblLate) : cblSubmitted s l = { s with queues := (cblSubmitted s l).queues } := by
  unfold cblSubmitted
  split <;> rfl

/-- R199: half of the scalar register read. -/
theorem cblLate_reads {s : State} {k : Nat} {l : CblLate} (hregs : (s.cbl k).regs.length = 16) (h : l.submit = false) :
    let v := (s.q l.queue).sr.getD (l.arg % 8) 0
    cblWrote s (cblLate s k l) k l.rd (if bit l.arg 3 then BitVec.ofNat 32 (v / 2 ^ 32) else BitVec.ofNat 32 v) ∧
      cblLate s k l = { s with cbls := (cblLate s k l).cbls } := by
  intro v
  have hhalf : (if bit l.arg 3 then bits v 63 32 else bits v 31 0) % 2 ^ 32 =
      (if bit l.arg 3 then BitVec.ofNat 32 (v / 2 ^ 32) else BitVec.ofNat 32 v).toNat := by
    split <;> simp [bits, Nat.shiftRight_eq_div_pow]
  rw [cblLate_read h]
  refine ⟨fun i hi => ?_, cSet_cblsFrame s k l.rd _⟩
  rw [cSet_reg hregs l.rd _ hi, hhalf]

/-- R200: the status of the SUBMIT, and its head in the queue's FIFO. -/
theorem cblLate_submits {s : State} {k : Nat} {l : CblLate} (hregs : (s.cbl k).regs.length = 16) (h : l.submit = true) :
    let st := cblSubmitStatus s l.tenant l.queue l.arg
    cblWrote s (cblLate s k l) k l.rd (BitVec.ofNat 32 st) ∧
      (st = 0 → ∃ c, ((cblLate s k l).q l.queue).fifo = (s.q l.queue).fifo ++ [c] ∧ c.addr = l.arg ∧ c.tenant = l.tenant ∧ c.rsp = 0) ∧
      (st ≠ 0 → (cblLate s k l).queues = s.queues) ∧
      cblLate s k l = { s with cbls := (cblLate s k l).cbls, queues := (cblLate s k l).queues } := by
  intro st
  rw [cblLate_submit h]
  have hframe : cblSubmitted s l = { s with queues := (cblSubmitted s l).queues } := cblSubmitted_frame s l
  have hcbl : (cblSubmitted s l).cbl k = s.cbl k := by rw [hframe]; rfl
  have hq : (cSet (cblSubmitted s l) k l.rd st).queues = (cblSubmitted s l).queues := by rw [cSet_cblsFrame]
  have hprogram : ProgramFrame s (cblSubmitted s l) := by rw [hframe]; rfl
  refine ⟨fun i hi => ?_, fun h0 => ?_, fun h0 => hq.trans ?_, ?_⟩
  · rw [cSet_reg (by rw [hcbl, hregs]) l.rd st hi, cReg_congr (s := s) (by rw [hcbl]), BitVec.toNat_ofNat]
  · refine ⟨{ addr := l.arg, tenant := l.tenant, id := (s.q l.queue).nextChain }, ?_, rfl, rfl, rfl⟩
    rw [State.q, hq, cblSubmitted, if_pos h0]
    show ((fifoAdd s l.queue { addr := l.arg, tenant := l.tenant }).q l.queue).fifo = _
    rw [fifoAdd, State.modQ_q, if_pos rfl]
  · rw [cblSubmitted, if_neg h0]
  · exact hprogram.trans (cSet_programFrame _ k l.rd st)

/-- What Cobbler `k` does as a cc begins (R199, R200). -/
def lateStep (s : State) (k : Nat) : State :=
  let due := (s.cbl k).late.filter fun l => decide (l.due ≤ s.now)
  if due.isEmpty then s
  else due.foldl (fun s l => cblLate s k l)
    (s.modCbl k fun c => { c with late := c.late.filter fun l => !decide (l.due ≤ s.now) })

theorem cblLateDue_eq {s : State} (hruns : s.runs = true) : cblLateDue s = (s.cbls.map (·.1)).foldl lateStep s := by
  rw [cblLateDue, hruns]
  rfl

theorem lateStep_none {s : State} {k : Nat} (h : (s.cbl k).late = []) : lateStep s k = s := by
  rw [lateStep, h]
  rfl

theorem foldl_lateStep_none {s : State} {ks : List Nat} (h : ∀ j ∈ ks, (s.cbl j).late = []) : ks.foldl lateStep s = s := by
  induction ks with
  | nil => rfl
  | cons j ks ih =>
    rw [List.foldl_cons, lateStep_none (h j List.mem_cons_self)]
    exact ih fun i hi => h i (List.mem_cons_of_mem j hi)

theorem lateStep_one {s : State} {k : Nat} {l : CblLate} (h : (s.cbl k).late = [l]) (hdue : l.due ≤ s.now) :
    lateStep s k = cblLate (s.modCbl k fun c => { c with late := [] }) k l := by
  have hrest : (s.modCbl k fun c => { c with late := c.late.filter fun l => !decide (l.due ≤ s.now) }) =
      s.modCbl k fun c => { c with late := [] } := by
    simp [State.modCbl, h, hdue]
  simp [lateStep, h, hdue, hrest]

/-- What is done late leaves what other Cobblers, and this one, have still to do. -/
theorem cblLate_late (s : State) (k : Nat) (l : CblLate) (j : Nat) : ((cblLate s k l).cbl j).late = (s.cbl j).late := by
  have hset : ∀ (u : State) (v : Nat), ((cSet u k l.rd v).cbl j).late = (u.cbl j).late := fun u v => by
    unfold cSet
    split
    · rfl
    · rw [State.modCbl_cbl]
      split
      · rename_i hkj
        rw [hkj]
      · rfl
  cases h : l.submit with
  | false => rw [cblLate_read h, hset]
  | true =>
    rw [cblLate_submit h, hset, cblSubmitted_frame]
    rfl

/-- R199, R200: with one thing due on one Cobbler, that is what happens as the cc begins. -/
theorem cblLateDue_one {s : State} {k : Nat} {l : CblLate} (hruns : s.runs = true) (hothers : ∀ j, j ≠ k → (s.cbl j).late = [])
    (hlate : (s.cbl k).late = [l]) (hdue : l.due ≤ s.now) :
    cblLateDue s = cblLate (s.modCbl k fun c => { c with late := [] }) k l := by
  have hlisted : k ∈ s.cbls.map (·.1) := by
    rcases mget_mem (fun _ => ({} : CblSt)) s.cbls k with hmem | hdefault
    · exact List.mem_map_of_mem hmem
    · rw [State.cbl, hdefault] at hlate
      exact absurd hlate nofun
  obtain ⟨before, after, hkeys, hfirst⟩ := List.eq_append_cons_of_mem hlisted
  have hdone : ∀ j, ((cblLate (s.modCbl k fun c => { c with late := [] }) k l).cbl j).late = [] := fun j => by
    rw [cblLate_late, State.modCbl_cbl]
    split
    · rfl
    · exact hothers j (Ne.symm ‹_›)
  rw [cblLateDue_eq hruns, hkeys, List.foldl_append, List.foldl_cons,
    foldl_lateStep_none (fun j hj => hothers j (fun hjk => hfirst (hjk ▸ hj))), lateStep_one hlate hdue,
    foldl_lateStep_none (fun j _ => hdone j)]

/-- Settles O38: the instructions one by one, then what SRRD and SUBMIT do late. -/
theorem cobblerTacksAndQueues : Obligations.CobblerTacksAndQueues := by
  refine ⟨fun s k w hok => ?_, fun s k w hok => ?_, fun s k l hok => ?_⟩
  · have hregs : (s.cbl k).regs.length = 16 := cblOk_regs hok k
    intro x y nx
    exact ⟨fun howns => ⟨fun h hfn => cTset_sends h hfn howns, fun h hfn => cTset_sends h hfn howns, fun h => twait_stands h howns⟩,
      fun howns h => twait_refused h howns,
      fun u hwait hruns => ⟨twait_satisfied hregs hwait hruns, fun d => twait_timeout hregs hwait hruns⟩⟩
  · intro x y q ten nx
    have hlater : ∀ {op}, cblReady s k op w = true → ∀ l, ((cNext (cLater (cReadied s k w) k l) k).cbl k).regs = (s.cbl k).regs ∧
        cblStep s (cNext (cLater (cReadied s k w) k l) k) k nx ∧
        ((cNext (cLater (cReadied s k w) k l) k).cbl k).late = (s.cbl k).late ++ [l] := fun h =>
      cLater_goes (cWord_running (cblReady_word h)) (cReadied_frame s k w) (cReadied_cbl s k w) (cReadied_clean w)
    have hfaults : cblFaulted s (cblFault (cReadied s k w) k 0x32 x) k 0x32 (s.cbl k).pc x ∧
        (cblFault (cReadied s k w) k 0x32 x).srPend = s.srPend :=
      cblFault_faulted (cReadied_frame s k w).workFrame (cReadied_cbl s k w).1 0x32 x
    refine ⟨fun howns => ⟨fun h => ⟨_, (exec_srrd h).trans (by rw [if_pos howns]), hlater h _⟩, fun h => srwr_sends h howns⟩,
      fun howns => ⟨fun h => ⟨_, (exec_srrd h).trans (by rw [if_neg (by rw [howns]; exact Bool.false_ne_true)]), hfaults.1⟩,
        fun h => ⟨_, (exec_srwr h).trans (by rw [if_neg (by rw [howns]; exact Bool.false_ne_true)]), hfaults⟩⟩,
      fun h => ⟨fun hbyte => ⟨_, (exec_submit h).trans (by rw [if_neg (not_not.2 (Nat.div_eq_of_lt hbyte))]), ?_⟩,
        fun hwide => ⟨_, (exec_submit h).trans (by rw [if_pos (Nat.div_pos hwide (by decide)).ne']), hfaults.1⟩⟩,
      fun h => ⟨halt_nothing_out h, halt_ends h⟩⟩
    rw [Nat.mod_eq_of_lt hbyte]
    exact hlater h _
  · have hregs : (s.cbl k).regs.length = 16 := cblOk_regs hok k
    exact ⟨cblLate_reads hregs, cblLate_submits hregs, cblLateDue_one⟩

end Sys2Proof.Machine
end

section
/-! PROOFS. Exact element arithmetic (R103, Table 05.5) and the encodings of the floating formats (R131, R140). -/

namespace Sys2Proof.Machine

/-! ### Finite values and their signed numerators -/

theorem fin_iff {x : Num} : x.fin = true ↔ x.nan = false ∧ x.inf = false := by simp [Num.fin]

theorem sgn_eq_zero_iff {x : Num} : x.sgn = 0 ↔ x.num = 0 := by
  unfold Num.sgn
  split <;> omega

theorem valueIs_self {x : Num} (hx : x.fin = true) (hd : 0 < x.den) : valueIs x x.sgn x.den := ⟨hx, hd, rfl⟩

theorem valueIs_of_num_zero {x : Num} (hx : x.fin = true) (hd : 0 < x.den) (hz : x.num = 0) (d : Nat) : valueIs x 0 d :=
  ⟨hx, hd, by rw [sgn_eq_zero_iff.2 hz, Int.zero_mul, Int.zero_mul]⟩

theorem valueIs_nZero (neg : Bool) (d : Nat) : valueIs (nZero neg) 0 d := valueIs_of_num_zero rfl Nat.one_pos rfl d

/-- The value whose sign and magnitude are those of an integer numerator. -/
theorem valueIs_ofInt (n : Int) {d : Nat} (hd : 0 < d) : valueIs { neg := decide (n < 0), num := n.natAbs, den := d } n d := by
  refine ⟨rfl, hd, congrArg (· * (d : Int)) ?_⟩
  simp only [Num.sgn, decide_eq_true_eq]
  split <;> omega

/-- Signs multiply as magnitudes do. -/
theorem sgn_mul_signs (s t : Bool) (m n d : Nat) :
    ({ neg := s != t, num := m * n, den := d } : Num).sgn = (if s then -(m : Int) else m) * (if t then -(n : Int) else n) := by
  cases s <;> cases t <;> simp [Num.sgn]

@[simp] theorem nNeg_fin (x : Num) : (nNeg x).fin = x.fin := by
  unfold nNeg
  split <;> rfl

@[simp] theorem nNeg_den (x : Num) : (nNeg x).den = x.den := by
  unfold nNeg
  split <;> rfl

theorem nNeg_sgn {x : Num} (hx : x.fin = true) : (nNeg x).sgn = -x.sgn := by
  obtain ⟨hnan, -⟩ := fin_iff.1 hx
  cases hneg : x.neg <;> simp [nNeg, Num.sgn, hnan, hneg]

/-! ### Sum, product and quotient -/

theorem valueIs_nAdd {x y : Num} (hx : x.fin = true) (hy : y.fin = true) (hdx : 0 < x.den) (hdy : 0 < y.den) :
    valueIs (nAdd x y) (x.sgn * y.den + y.sgn * x.den) (x.den * y.den) := by
  obtain ⟨hxn, hxi⟩ := fin_iff.1 hx
  obtain ⟨hyn, hyi⟩ := fin_iff.1 hy
  simp only [nAdd, hxn, hxi, hyn, hyi, Bool.or_self, Bool.false_eq_true, if_false]
  split
  next hzero => rw [hzero]; exact valueIs_nZero _ _
  next => exact valueIs_ofInt _ (Nat.mul_pos hdx hdy)

theorem nMul_of_fin {x y : Num} (hx : x.fin = true) (hy : y.fin = true) :
    nMul x y = { neg := x.neg != y.neg, num := x.num * y.num, den := x.den * y.den } := by
  obtain ⟨hxn, hxi⟩ := fin_iff.1 hx
  obtain ⟨hyn, hyi⟩ := fin_iff.1 hy
  simp [nMul, hxn, hxi, hyn, hyi]

theorem nMul_sgn {x y : Num} (hx : x.fin = true) (hy : y.fin = true) : (nMul x y).sgn = x.sgn * y.sgn := by
  rw [nMul_of_fin hx hy]
  exact sgn_mul_signs x.neg y.neg x.num y.num _

theorem valueIs_nMul {x y : Num} (hx : x.fin = true) (hy : y.fin = true) (hdx : 0 < x.den) (hdy : 0 < y.den) :
    valueIs (nMul x y) (x.sgn * y.sgn) (x.den * y.den) := by
  rw [← nMul_sgn hx hy, nMul_of_fin hx hy]
  exact valueIs_self rfl (Nat.mul_pos hdx hdy)

theorem valueIs_nDiv {x y : Num} (hx : x.fin = true) (hy : y.fin = true) (hdx : 0 < x.den) (hny : y.num ≠ 0) :
    valueIs (nDiv x y) (x.sgn * (if y.neg then -(y.den : Int) else y.den)) (x.den * y.num) := by
  obtain ⟨hxn, hxi⟩ := fin_iff.1 hx
  obtain ⟨hyn, hyi⟩ := fin_iff.1 hy
  have hdiv : nDiv x y = { neg := x.neg != y.neg, num := x.num * y.den, den := x.den * y.num } := by
    simp [nDiv, hxn, hxi, hyn, hyi, hny]
  rw [hdiv, ← show _ = x.sgn * _ from sgn_mul_signs x.neg y.neg x.num y.den (x.den * y.num)]
  exact valueIs_self rfl (Nat.mul_pos hdx (Nat.pos_of_ne_zero hny))

/-- The sum of a product and a third value, over the product's own numerator and denominator. -/
theorem valueIs_nAdd_nMul {x y z : Num} (hx : x.fin = true) (hy : y.fin = true) (hz : z.fin = true)
    (hdx : 0 < x.den) (hdy : 0 < y.den) (hdz : 0 < z.den) :
    valueIs (nAdd (nMul x y) z) (x.sgn * y.sgn * z.den + z.sgn * x.den * y.den) (x.den * y.den * z.den) := by
  obtain ⟨hfin, hpos, -⟩ := valueIs_nMul hx hy hdx hdy
  have hsum := valueIs_nAdd hfin hz hpos hdz
  have hden : (nMul x y).den = x.den * y.den := by rw [nMul_of_fin hx hy]
  rwa [nMul_sgn hx hy, hden, Nat.cast_mul, ← Int.mul_assoc] at hsum

/-! ### Maximum and minimum -/

/-- The order of MAX and MIN refines the order of the values: it parts only the zeros. -/
theorem le_of_nBelow {x y : Num} (hx : x.fin = true) (hy : y.fin = true) (h : nBelow x y = true) :
    x.sgn * y.den ≤ y.sgn * x.den := by
  obtain ⟨-, hxi⟩ := fin_iff.1 hx
  obtain ⟨-, hyi⟩ := fin_iff.1 hy
  simp only [nBelow, nLt, hxi, hyi, Num.isZero, Bool.false_eq_true, if_false, Bool.or_eq_true, Bool.and_eq_true,
    decide_eq_true_eq, beq_iff_eq] at h
  rcases h with hlt | ⟨⟨⟨⟨-, hxz⟩, -, hyz⟩, -⟩, -⟩
  · exact hlt.le
  · rw [sgn_eq_zero_iff.2 hxz, sgn_eq_zero_iff.2 hyz, Int.zero_mul, Int.zero_mul]

theorem le_of_not_nBelow {x y : Num} (hx : x.fin = true) (hy : y.fin = true) (h : ¬ nBelow x y = true) :
    y.sgn * x.den ≤ x.sgn * y.den := by
  obtain ⟨-, hxi⟩ := fin_iff.1 hx
  obtain ⟨-, hyi⟩ := fin_iff.1 hy
  by_contra hlt
  exact h (by simp [nBelow, nLt, hxi, hyi, not_le.1 hlt])

/-- A value that is at once at least and at most another is the other's value. -/
theorem valueIs_of_le_of_le {x y : Num} (hx : x.fin = true) (hd : 0 < x.den) (hle : x.sgn * y.den ≤ y.sgn * x.den)
    (hge : y.sgn * x.den ≤ x.sgn * y.den) : valueIs x y.sgn y.den := ⟨hx, hd, le_antisymm hle hge⟩

section
variable {x y : Num} (hx : x.fin = true) (hy : y.fin = true) (hdx : 0 < x.den) (hdy : 0 < y.den)
include hx hy hdx hdy

theorem valueIs_nMax :
    if x.sgn * y.den ≤ y.sgn * x.den then valueIs (nMax x y) y.sgn y.den else valueIs (nMax x y) x.sgn x.den := by
  have hmax : nMax x y = if nBelow x y then y else x := by simp [nMax, (fin_iff.1 hx).1, (fin_iff.1 hy).1]
  rw [hmax]
  by_cases hbelow : nBelow x y = true
  · rw [if_pos hbelow, if_pos (le_of_nBelow hx hy hbelow)]
    exact valueIs_self hy hdy
  · rw [if_neg hbelow]
    split
    next hle => exact valueIs_of_le_of_le hx hdx hle (le_of_not_nBelow hx hy hbelow)
    next => exact valueIs_self hx hdx

theorem valueIs_nMin :
    if x.sgn * y.den ≤ y.sgn * x.den then valueIs (nMin x y) x.sgn x.den else valueIs (nMin x y) y.sgn y.den := by
  have hmin : nMin x y = if nBelow y x then y else x := by simp [nMin, (fin_iff.1 hx).1, (fin_iff.1 hy).1]
  rw [hmin]
  by_cases hbelow : nBelow y x = true
  · rw [if_pos hbelow]
    split
    next hle => exact valueIs_of_le_of_le hy hdy (le_of_nBelow hy hx hbelow) hle
    next => exact valueIs_self hy hdy
  · rw [if_neg hbelow, if_pos (le_of_not_nBelow hy hx hbelow)]
    exact valueIs_self hx hdx

end

/-! ### Magnitude, negation and the neighbouring integers -/

theorem valueIs_nAbs {x : Num} (hx : x.fin = true) (hd : 0 < x.den) : valueIs (nAbs x) x.sgn.natAbs x.den := by
  obtain ⟨hnan, hinf⟩ := fin_iff.1 hx
  have habs : nAbs x = { x with neg := false } := by simp [nAbs, hnan]
  have hmag : x.sgn.natAbs = x.num := by
    unfold Num.sgn
    split <;> omega
  rw [habs, hmag]
  exact ⟨hx, hd, rfl⟩

theorem valueIs_nNeg {x : Num} (hx : x.fin = true) (hd : 0 < x.den) : valueIs (nNeg x) (-x.sgn) x.den := by
  rw [← nNeg_sgn hx, ← nNeg_den x]
  exact valueIs_self (by rwa [nNeg_fin]) (by rwa [nNeg_den])

theorem valueIs_integral (x : Num) (k : Int) : valueIs (integral x k) k 1 := by
  unfold integral
  split
  next hzero => rw [hzero]; exact valueIs_nZero _ _
  next => exact valueIs_ofInt k Nat.one_pos

theorem valueIs_floor {x : Num} (hx : x.fin = true) (hd : 0 < x.den) : valueIs (roundTo 0x25 x) (x.sgn / x.den) 1 := by
  by_cases hz : x.num = 0
  · rw [sgn_eq_zero_iff.2 hz, Int.zero_ediv, roundTo, if_pos (by simp [hz])]
    exact valueIs_of_num_zero hx hd hz 1
  · rw [roundTo, if_neg (by simp [hx, hz])]
    exact valueIs_integral x (floorInt x)

theorem valueIs_ceil {x : Num} (hx : x.fin = true) (hd : 0 < x.den) : valueIs (roundTo 0x26 x) (-(-x.sgn / x.den)) 1 := by
  by_cases hz : x.num = 0
  · rw [sgn_eq_zero_iff.2 hz, Int.neg_zero, Int.zero_ediv, Int.neg_zero, roundTo, if_pos (by simp [hz])]
    exact valueIs_of_num_zero hx hd hz 1
  · rw [roundTo, if_neg (by simp [hx, hz]), ← nNeg_sgn hx, ← nNeg_den x]
    exact valueIs_integral x (-floorInt (nNeg x))

/-! ### The fields of an encoding -/

/-- The exponent field of an encoding. -/
def fmtExp (f : Fmt) (b : Nat) : Nat := bits b (f.e + f.m - 1) f.m

/-- The mantissa field of an encoding. -/
def fmtMan (f : Fmt) (b : Nat) : Nat := b % 2 ^ f.m

/-- The sign of an encoding in its place. -/
def fmtSign (f : Fmt) (neg : Bool) : Nat := if neg then 2 ^ (f.e + f.m) else 0

theorem fmtExp_eq {f : Fmt} (he : 0 < f.e) (b : Nat) : fmtExp f b = b / 2 ^ f.m % 2 ^ f.e := by
  rw [fmtExp, bits, Nat.shiftRight_eq_div_pow, show f.e + f.m - 1 + 1 - f.m = f.e by omega]

theorem fmtExp_lt {f : Fmt} (he : 0 < f.e) (b : Nat) : fmtExp f b < 2 ^ f.e := by
  rw [fmtExp_eq he]
  exact Nat.mod_lt _ (Nat.two_pow_pos _)

theorem fmtMan_lt (f : Fmt) (b : Nat) : fmtMan f b < 2 ^ f.m := Nat.mod_lt _ (Nat.two_pow_pos _)

/-- An encoding is its sign, its exponent field and its mantissa field. -/
theorem fmt_fields {f : Fmt} {b : Nat} (he : 0 < f.e) (hb : b < 2 ^ (1 + f.e + f.m)) :
    fmtSign f (b.testBit (f.e + f.m)) + (fmtExp f b * 2 ^ f.m + fmtMan f b) = b := by
  have htop : b / 2 ^ f.m / 2 ^ f.e < 2 := by
    rw [Nat.div_div_eq_div_mul, ← pow_add, Nat.div_lt_iff_lt_mul (Nat.two_pow_pos _)]
    exact hb.trans_eq (by ring)
  have hsign : fmtSign f (b.testBit (f.e + f.m)) = b / 2 ^ f.m / 2 ^ f.e * 2 ^ f.e * 2 ^ f.m := by
    rw [fmtSign, Nat.testBit_eq_decide_div_mod_eq, pow_add, Nat.mul_comm (2 ^ f.e), ← Nat.div_div_eq_div_mul]
    generalize b / 2 ^ f.m / 2 ^ f.e = t at htop
    interval_cases t <;> simp [Nat.mul_comm]
  calc fmtSign f (b.testBit (f.e + f.m)) + (fmtExp f b * 2 ^ f.m + fmtMan f b)
      = (b / 2 ^ f.m / 2 ^ f.e * 2 ^ f.e + b / 2 ^ f.m % 2 ^ f.e) * 2 ^ f.m + b % 2 ^ f.m := by
        rw [hsign, fmtExp_eq he, fmtMan]; ring
    _ = b := by rw [Nat.div_add_mod', Nat.div_add_mod']

/-! ### The value of an encoding -/

/-- A finite encoding lies, its sign apart, at or below the greatest one. -/
theorem fmtFields_le_max {f : Fmt} {b : Nat} (he : 0 < f.e) (hinf : ¬ (f.inf = true ∧ fmtExp f b = 2 ^ f.e - 1))
    (hnan : ¬ (f.inf = false ∧ f.nan.isSome = true ∧ fmtExp f b = 2 ^ f.e - 1 ∧ fmtMan f b = 2 ^ f.m - 1)) :
    fmtExp f b * 2 ^ f.m + fmtMan f b ≤ fmtMax f := by
  have hE := fmtExp_lt he b
  have hM := fmtMan_lt f b
  have hnext : ∀ n k, n + k ≤ 2 ^ f.e → n * 2 ^ f.m + k * 2 ^ f.m ≤ 2 ^ (f.e + f.m) := fun n k h => by
    rw [← Nat.add_mul, pow_add]
    exact Nat.mul_le_mul_right _ h
  have hall := hnext (fmtExp f b) 1 hE
  unfold fmtMax
  split
  next hi =>
    have hones : fmtExp f b ≠ 2 ^ f.e - 1 := fun h => hinf ⟨hi, h⟩
    have hbelow : (fmtExp f b + 1) * 2 ^ f.m ≤ (2 ^ f.e - 1) * 2 ^ f.m := Nat.mul_le_mul_right _ (by omega)
    rw [Nat.add_mul] at hbelow
    omega
  next hi =>
    split
    next hs =>
      by_cases hones : fmtExp f b = 2 ^ f.e - 1
      · have : fmtMan f b ≠ 2 ^ f.m - 1 := fun h => hnan ⟨Bool.not_eq_true _ ▸ hi, hs, hones, h⟩
        omega
      · have := hnext (fmtExp f b) 2 (by omega)
        omega
    next => omega

/-- `fmtDecode` by the fields of the encoding. -/
theorem fmtDecode_eq (f : Fmt) (b : Nat) : fmtDecode f b =
    if f.inf && fmtExp f b = 2 ^ f.e - 1 then (if fmtMan f b = 0 then nInf (b.testBit (f.e + f.m)) else nNaN)
    else if !f.inf && f.nan.isSome && fmtExp f b = 2 ^ f.e - 1 && fmtMan f b = 2 ^ f.m - 1 then nNaN
    else if fmtExp f b = 0 then
      (if fmtMan f b = 0 then nZero (b.testBit (f.e + f.m))
       else nScaled (b.testBit (f.e + f.m)) (fmtMan f b) (1 - (f.bias : Int) - f.m))
    else nScaled (b.testBit (f.e + f.m)) (2 ^ f.m + fmtMan f b) ((fmtExp f b : Int) - f.bias - f.m) := rfl

/-- What an encoding that is no NaN stands for: an infinity, or a finite value at or below the greatest one: a zero, a subnormal
or a normal. -/
theorem fmtDecode_cases {f : Fmt} {b : Nat} (he : 0 < f.e) (h : (fmtDecode f b).nan = false) :
    (f.inf = true ∧ fmtExp f b = 2 ^ f.e - 1 ∧ fmtMan f b = 0 ∧ fmtDecode f b = nInf (b.testBit (f.e + f.m))) ∨
    (fmtExp f b * 2 ^ f.m + fmtMan f b ≤ fmtMax f ∧
      ((fmtExp f b = 0 ∧ fmtMan f b = 0 ∧ fmtDecode f b = nZero (b.testBit (f.e + f.m))) ∨
       (fmtExp f b = 0 ∧ fmtMan f b ≠ 0 ∧
         fmtDecode f b = nScaled (b.testBit (f.e + f.m)) (fmtMan f b) (1 - (f.bias : Int) - f.m)) ∨
       (fmtExp f b ≠ 0 ∧
         fmtDecode f b = nScaled (b.testBit (f.e + f.m)) (2 ^ f.m + fmtMan f b) ((fmtExp f b : Int) - f.bias - f.m)))) := by
  rw [fmtDecode_eq] at h ⊢
  split at h
  next hinf =>
    rw [if_pos hinf]
    simp only [Bool.and_eq_true, decide_eq_true_eq] at hinf
    split at h
    next hz => exact .inl ⟨hinf.1, hinf.2, hz, if_pos hz⟩
    next => exact absurd h nofun
  next hinf =>
    split at h
    next => exact absurd h nofun
    next hnan =>
      rw [if_neg hinf, if_neg hnan]
      refine .inr ⟨fmtFields_le_max he (by simpa using hinf) (by simpa [and_assoc] using hnan), ?_⟩
      by_cases hE : fmtExp f b = 0
      · by_cases hM : fmtMan f b = 0
        · exact .inl ⟨hE, hM, by rw [if_pos hE, if_pos hM]⟩
        · exact .inr (.inl ⟨hE, hM, by rw [if_pos hE, if_neg hM]⟩)
      · exact .inr (.inr ⟨hE, if_neg hE⟩)

/-! ### Encoding a value whose significand fits -/

theorem rneDiv_mul_self (n : Nat) {d : Nat} (hd : 0 < d) : rneDiv (n * d) d = n := by
  simp [rneDiv, Nat.mul_div_cancel n hd, hd.ne]

theorem log2_mul_two_pow {m : Nat} (hm : m ≠ 0) (k : Nat) : (m * 2 ^ k).log2 = m.log2 + k := by
  rw [Nat.log2_eq_iff (Nat.mul_ne_zero hm (Nat.two_pow_pos k).ne'), pow_add, Nat.add_right_comm, pow_add 2 (m.log2 + 1)]
  exact ⟨Nat.mul_le_mul_right _ (Nat.log2_self_le hm), Nat.mul_lt_mul_of_pos_right Nat.lt_log2_self (Nat.two_pow_pos k)⟩

@[simp] theorem nScaled_fin (s : Bool) (m : Nat) (e : Int) : (nScaled s m e).fin = true := by
  unfold nScaled
  split <;> rfl

@[simp] theorem nScaled_neg (s : Bool) (m : Nat) (e : Int) : (nScaled s m e).neg = s := by
  unfold nScaled
  split <;> rfl

theorem nScaled_num_ne_zero (s : Bool) {m : Nat} (hm : m ≠ 0) (e : Int) : (nScaled s m e).num ≠ 0 := by
  unfold nScaled
  split
  · exact Nat.mul_ne_zero hm (Nat.two_pow_pos _).ne'
  · exact hm

theorem rneAt_nScaled (s : Bool) (m : Nat) (e : Int) : rneAt (nScaled s m e).num (nScaled s m e).den e = m := by
  by_cases he : 0 ≤ e
  · rw [nScaled, rneAt, if_pos he, if_pos he, Nat.one_mul]
    exact rneDiv_mul_self m (Nat.two_pow_pos _)
  · rw [nScaled, rneAt, if_neg he, if_neg he]
    exact rneDiv_mul_self m (Nat.two_pow_pos _)

/-- Over a power of two the numerator's leading bit decides: it is at or below the numerator, so the comparison in `log2Rat` holds. -/
theorem log2Rat_two_pow {n : Nat} (hn : n ≠ 0) (k : Nat) : log2Rat n (2 ^ k) = n.log2 - k := by
  have hlead := Nat.log2_self_le hn
  simp only [log2Rat, Nat.log2_two_pow, Int.neg_sub, Int.toNat_sub]
  split
  next =>
    have hle : 2 ^ k * 2 ^ (n.log2 - k) ≤ n := by rwa [← pow_add, Nat.add_sub_cancel' (by omega)]
    rw [if_pos hle]
  next =>
    have hle : 2 ^ k ≤ n * 2 ^ (k - n.log2) := by
      calc 2 ^ k = 2 ^ n.log2 * 2 ^ (k - n.log2) := by rw [← pow_add, Nat.add_sub_cancel' (by omega)]
        _ ≤ n * 2 ^ (k - n.log2) := Nat.mul_le_mul_right _ hlead
    rw [if_pos hle]

theorem log2Rat_nScaled (s : Bool) {m : Nat} (hm : m ≠ 0) (e : Int) :
    log2Rat (nScaled s m e).num (nScaled s m e).den = m.log2 + e := by
  by_cases he : 0 ≤ e
  · have hlog := log2Rat_two_pow (Nat.mul_ne_zero hm (Nat.two_pow_pos e.toNat).ne') 0
    rw [log2_mul_two_pow hm] at hlog
    rw [nScaled, if_pos he]
    exact hlog.trans (by omega)
  · rw [nScaled, if_neg he]
    exact (log2Rat_two_pow hm _).trans (by omega)

/-- A value whose significand `q` fits at the exponent `e` the encoder chooses is not rounded: the encoding, its sign apart, is
the biased exponent over `q`. -/
theorem fmtEncode_nScaled {f : Fmt} (ovf s : Bool) {q : Nat} (hq : q ≠ 0) {e : Int}
    (he : max ((q.log2 : Int) + e) (1 - (f.bias : Int)) = e + f.m)
    (hmax : (e + f.m + f.bias - 1).toNat * 2 ^ f.m + q ≤ fmtMax f) :
    fmtEncode f ovf (nScaled s q e) = { bits := fmtSign f s + ((e + f.m + f.bias - 1).toNat * 2 ^ f.m + q) } := by
  obtain ⟨hnan, hinf⟩ := fin_iff.1 (nScaled_fin s q e)
  simp only [fmtEncode, hnan, hinf, nScaled_num_ne_zero s hq, log2Rat_nScaled s hq, he, Int.add_sub_cancel, rneAt_nScaled,
    nScaled_neg, Bool.false_eq_true, if_false, if_pos hmax, fmtSign]

/-- A subnormal value is encoded under the least exponent. -/
theorem fmtEncode_subnormal {f : Fmt} (ovf s : Bool) {M : Nat} (hM : M ≠ 0) (hlt : M < 2 ^ f.m) (hmax : M ≤ fmtMax f) :
    fmtEncode f ovf (nScaled s M (1 - (f.bias : Int) - f.m)) = { bits := fmtSign f s + M } := by
  have hlog : M.log2 < f.m := (Nat.log2_lt hM).2 hlt
  have hexp : (1 - (f.bias : Int) - f.m + f.m + f.bias - 1).toNat = 0 := by omega
  rw [fmtEncode_nScaled ovf s hM (by omega) (by rwa [hexp, Nat.zero_mul, Nat.zero_add]), hexp, Nat.zero_mul, Nat.zero_add]

/-- A normal value is encoded under its own exponent, its leading one adding the last unit to the exponent field. -/
theorem fmtEncode_normal {f : Fmt} (ovf s : Bool) {E M : Nat} (hE : E ≠ 0) (hlt : M < 2 ^ f.m) (hmax : E * 2 ^ f.m + M ≤ fmtMax f) :
    fmtEncode f ovf (nScaled s (2 ^ f.m + M) ((E : Int) - f.bias - f.m)) = { bits := fmtSign f s + (E * 2 ^ f.m + M) } := by
  have hpos := Nat.two_pow_pos f.m
  have hlog : (2 ^ f.m + M).log2 = f.m := by
    rw [Nat.log2_eq_iff (by omega), pow_succ]
    omega
  have hexp : ((E : Int) - f.bias - f.m + f.m + f.bias - 1).toNat = E - 1 := by omega
  have hfield : (E - 1) * 2 ^ f.m + (2 ^ f.m + M) = E * 2 ^ f.m + M := by
    rw [← Nat.add_assoc, ← Nat.succ_mul, Nat.succ_eq_add_one, Nat.sub_add_cancel (Nat.pos_of_ne_zero hE)]
  rw [fmtEncode_nScaled ovf s (by omega) (by omega) (by rwa [hexp, hfield]), hexp, hfield]

/-! ### Encoding the value of an encoding -/

theorem fmtEncode_nInf {f : Fmt} (ovf s : Bool) (h : f.inf = true) :
    fmtEncode f ovf (nInf s) = { bits := fmtSign f s + (2 ^ f.e - 1) * 2 ^ f.m } := by
  show fmtOver f ovf (fmtSign f s) = _
  rw [fmtOver, if_pos h]

theorem fmtEncode_nZero (f : Fmt) (ovf s : Bool) : fmtEncode f ovf (nZero s) = { bits := fmtSign f s } := rfl

theorem fmtEncode_fmtDecode {f : Fmt} (ovf : Bool) {b : Nat} (he : 0 < f.e) (hb : b < 2 ^ (1 + f.e + f.m))
    (hnan : (fmtDecode f b).nan = false) : fmtEncode f ovf (fmtDecode f b) = { bits := b } := by
  suffices h : fmtEncode f ovf (fmtDecode f b) =
      { bits := fmtSign f (b.testBit (f.e + f.m)) + (fmtExp f b * 2 ^ f.m + fmtMan f b) } by rwa [fmt_fields he hb] at h
  have hM := fmtMan_lt f b
  rcases fmtDecode_cases he hnan with ⟨hinf, hE, hz, hdec⟩ | ⟨hmax, ⟨hE, hz, hdec⟩ | ⟨hE, hz, hdec⟩ | ⟨hE, hdec⟩⟩
  · rw [hdec, fmtEncode_nInf ovf _ hinf, hE, hz, Nat.add_zero]
  · rw [hdec, fmtEncode_nZero, hE, hz, Nat.zero_mul, Nat.add_zero]
  · rw [hE, Nat.zero_mul, Nat.zero_add] at hmax ⊢
    rw [hdec, fmtEncode_subnormal ovf _ hz hM hmax]
  · rw [hdec, fmtEncode_normal ovf _ hE hM hmax]

theorem formats_have_exponent : ∀ f ∈ formats, 0 < f.e := by decide

/-! ### The statement -/

/-- Settles O39: each opcode's value is that of its exact operation, and an encoding is put together again from its fields. -/
theorem elementArithmeticAndFormats : Obligations.ElementArithmeticAndFormats := by
  refine ⟨fun w ps a b c ha hb hc hda hdb hdc => ?_, fun f ovf b hf hb hnan =>
    fmtEncode_fmtDecode ovf (formats_have_exponent f hf) hb hnan⟩
  have hsub := valueIs_nAdd ha ((nNeg_fin b).trans hb) hda ((nNeg_den b).symm ▸ hdb)
  rw [nNeg_sgn hb, nNeg_den, Int.neg_mul, ← Int.sub_eq_add_neg] at hsub
  intro r
  refine ⟨fun h => ?_, fun h => ?_, fun h => ?_, fun h hne => ?_, fun h => ?_, fun h => ?_, fun h => ?_, fun h => ?_, fun h => ?_,
    fun h => ?_, fun h => ?_⟩ <;> simp only [r, elemOp, h]
  · exact valueIs_nAdd ha hb hda hdb
  · exact hsub
  · exact valueIs_nMul ha hb hda hdb
  · exact valueIs_nDiv ha hb hda hne
  · exact valueIs_nAdd_nMul ha hb hc hda hdb hdc
  · exact valueIs_nMax ha hb hda hdb
  · exact valueIs_nMin ha hb hda hdb
  · exact valueIs_nAbs ha hda
  · exact valueIs_nNeg ha hda
  · exact valueIs_floor ha hda
  · exact valueIs_ceil ha hda

end Sys2Proof.Machine
end

section
/-! PROOFS. The one rounding of the floating formats is to nearest (R140). -/

namespace Sys2Proof.Machine

/-! ### The rational value of a number -/

/-- The sign of a magnitude as a factor. -/
def signFactor (neg : Bool) : ℚ := if neg then -1 else 1

theorem abs_signFactor (neg : Bool) : |signFactor neg| = 1 := by cases neg <;> simp [signFactor]

/-- The rational a finite value stands for. -/
def Num.val (x : Num) : ℚ := x.sgn / x.den

theorem val_eq (x : Num) : x.val = signFactor x.neg * (x.num / x.den) := by
  cases hneg : x.neg <;> simp [Num.val, Num.sgn, signFactor, hneg, neg_div]

theorem val_of_num_zero {x : Num} (hz : x.num = 0) : x.val = 0 := by rw [val_eq, hz, Nat.cast_zero, zero_div, mul_zero]

theorem den_nScaled_pos (s : Bool) (m : Nat) (e : Int) : 0 < (nScaled s m e).den := by
  unfold nScaled
  split
  · exact Nat.one_pos
  · exact Nat.two_pow_pos _

theorem two_zpow_of_nonneg {e : Int} (he : 0 ≤ e) : (2 : ℚ) ^ e = 2 ^ e.toNat := by
  rw [← zpow_natCast, Int.toNat_of_nonneg he]

theorem two_zpow_of_neg {e : Int} (he : ¬ 0 ≤ e) : (2 : ℚ) ^ e = (2 ^ (-e).toNat)⁻¹ := by
  rw [← two_zpow_of_nonneg (by omega : 0 ≤ -e), zpow_neg, inv_inv]

theorem val_nScaled (s : Bool) (m : Nat) (e : Int) : (nScaled s m e).val = signFactor s * (m * 2 ^ e) := by
  rw [val_eq, nScaled_neg]
  by_cases he : 0 ≤ e
  · simp [nScaled, he, two_zpow_of_nonneg he]
  · simp [nScaled, he, two_zpow_of_neg he, div_eq_mul_inv]

/-- Distances to `x` compare as rationals the way they compare over the common denominators. -/
theorem dist_le_of_val {x y z : Num} (hx : 0 < x.den) (hy : 0 < y.den) (hz : 0 < z.den)
    (h : |y.val - x.val| ≤ |z.val - x.val|) :
    (y.sgn * x.den - x.sgn * y.den).natAbs * z.den ≤ (z.sgn * x.den - x.sgn * z.den).natAbs * y.den := by
  have hx' : (0 : ℚ) < x.den := Nat.cast_pos.2 hx
  have habs : ∀ w : Num, 0 < w.den → |w.val - x.val| = (w.sgn * x.den - x.sgn * w.den).natAbs / (w.den * x.den : ℚ) := fun w hw => by
    have hw' : (0 : ℚ) < w.den := Nat.cast_pos.2 hw
    rw [Num.val, Num.val, div_sub_div _ _ hw'.ne' hx'.ne', abs_div, abs_of_pos (mul_pos hw' hx'), Nat.cast_natAbs]
    push_cast
    rw [mul_comm (w.den : ℚ) (x.sgn : ℚ)]
  rw [habs y hy, habs z hz, ← div_div, ← div_div, div_le_div_iff_of_pos_right hx',
    div_le_div_iff₀ (Nat.cast_pos.2 hy) (Nat.cast_pos.2 hz)] at h
  exact_mod_cast h

/-! ### Rounding to the nearest multiple of a power of two -/

theorem two_mul_rneDiv_bounds (n : Nat) {d : Nat} (hd : 0 < d) :
    2 * n ≤ 2 * (rneDiv n d * d) + d ∧ 2 * (rneDiv n d * d) ≤ 2 * n + d := by
  have hdiv := Nat.div_add_mod' n d
  have hmod := Nat.mod_lt n hd
  simp only [rneDiv, Bool.or_eq_true, Bool.and_eq_true, decide_eq_true_eq]
  split
  next => rw [Nat.add_mul]; omega
  next => omega

theorem abs_rneDiv_sub_le_half (n : Nat) {d : Nat} (hd : 0 < d) : |(rneDiv n d : ℚ) - n / d| ≤ 1 / 2 := by
  obtain ⟨hlow, hhigh⟩ := two_mul_rneDiv_bounds n hd
  have hd' : (0 : ℚ) < d := Nat.cast_pos.2 hd
  have hlow' : (n : ℚ) ≤ (rneDiv n d + 1 / 2) * d := by
    have : (2 : ℚ) * n ≤ 2 * (rneDiv n d * d) + d := by exact_mod_cast hlow
    linarith
  have hhigh' : ((rneDiv n d : ℚ) - 1 / 2) * d ≤ n := by
    have : (2 : ℚ) * (rneDiv n d * d) ≤ 2 * n + d := by exact_mod_cast hhigh
    linarith
  rw [abs_sub_le_iff]
  constructor
  · linarith [(le_div_iff₀ hd').2 hhigh']
  · linarith [(div_le_iff₀ hd').2 hlow']

/-- An integer at most half a unit away is a nearest one: any other integer is a unit away from it. -/
theorem abs_sub_le_of_le_half {q : Int} {v : ℚ} (h : |(q : ℚ) - v| ≤ 1 / 2) (k : Int) : |(q : ℚ) - v| ≤ |(k : ℚ) - v| := by
  by_cases hk : k = q
  · rw [hk]
  · have hunit : (1 : ℚ) ≤ |(k : ℚ) - q| := by exact_mod_cast Int.one_le_abs (sub_ne_zero.2 hk)
    have htri := abs_sub_le (k : ℚ) v q
    rw [abs_sub_comm v] at htri
    linarith

/-- `rneAt` is the integer division of the value in units of 2^e. -/
theorem rneAt_eq_rneDiv (n : Nat) {d : Nat} (hd : 0 < d) (e : Int) :
    ∃ n' d', 0 < d' ∧ rneAt n d e = rneDiv n' d' ∧ (n' / d' : ℚ) = n / d / 2 ^ e := by
  by_cases he : 0 ≤ e
  · refine ⟨n, d * 2 ^ e.toNat, Nat.mul_pos hd (Nat.two_pow_pos _), by rw [rneAt, if_pos he], ?_⟩
    rw [two_zpow_of_nonneg he, div_div]
    push_cast
    rfl
  · refine ⟨n * 2 ^ (-e).toNat, d, hd, by rw [rneAt, if_neg he], ?_⟩
    rw [two_zpow_of_neg he, div_inv_eq_mul, div_mul_eq_mul_div]
    push_cast
    rfl

theorem abs_rneAt_sub_le_half (n : Nat) {d : Nat} (hd : 0 < d) (e : Int) : |(rneAt n d e : ℚ) - n / d / 2 ^ e| ≤ 1 / 2 := by
  obtain ⟨n', d', hd', hq, hv⟩ := rneAt_eq_rneDiv n hd e
  rw [hq, ← hv]
  exact abs_rneDiv_sub_le_half n' hd'

/-- No multiple of 2^e lies closer to n / d than the rounded one. -/
theorem rneAt_nearest (n : Nat) {d : Nat} (hd : 0 < d) (e k : Int) :
    |(rneAt n d e : ℚ) * 2 ^ e - n / d| ≤ |(k : ℚ) * 2 ^ e - n / d| := by
  have hpos : (0 : ℚ) < 2 ^ e := zpow_pos two_pos e
  have hscale : ∀ q : ℚ, |q * 2 ^ e - n / d| = |q - n / d / 2 ^ e| * 2 ^ e := fun q => by
    rw [← abs_of_pos hpos, ← abs_mul, abs_of_pos hpos, sub_mul, div_mul_cancel₀ _ hpos.ne']
  rw [hscale, hscale]
  exact mul_le_mul_of_nonneg_right (abs_sub_le_of_le_half (q := rneAt n d e) (abs_rneAt_sub_le_half n hd e) k) hpos.le

/-- A value below the integer `k` in units of 2^e rounds to at most `k`. -/
theorem rneAt_le {n d : Nat} (hd : 0 < d) {e : Int} {k : Nat} (h : (n / d : ℚ) / 2 ^ e < k) : rneAt n d e ≤ k := by
  have hhalf := (abs_sub_le_iff.1 (abs_rneAt_sub_le_half n hd e)).1
  have hlt : (rneAt n d e : ℚ) < k + 1 := by linarith
  exact Nat.lt_succ_iff.1 (by exact_mod_cast hlt)

/-- A value at or above the integer `k` in units of 2^e rounds to at least `k`. -/
theorem le_rneAt {n d : Nat} (hd : 0 < d) {e : Int} {k : Nat} (h : (k : ℚ) ≤ n / d / 2 ^ e) : k ≤ rneAt n d e := by
  have hhalf := (abs_sub_le_iff.1 (abs_rneAt_sub_le_half n hd e)).2
  have hlt : (k : ℚ) < rneAt n d e + 1 := by linarith
  exact Nat.lt_succ_iff.1 (by exact_mod_cast hlt)

/-! ### The exponent of a value -/

/-- `log2Rat` decides between the two exponents the leading bits leave. -/
theorem log2Rat_eq (n : Nat) {d : Nat} (hd : 0 < d) :
    log2Rat n d = if (2 : ℚ) ^ ((n.log2 : Int) - d.log2) ≤ n / d then (n.log2 : Int) - d.log2 else n.log2 - d.log2 - 1 := by
  have hd' : (0 : ℚ) < d := Nat.cast_pos.2 hd
  simp only [log2Rat]
  generalize (n.log2 : Int) - d.log2 = e
  by_cases he : 0 ≤ e
  · have hiff : (2 : ℚ) ^ e ≤ n / d ↔ d * 2 ^ e.toNat ≤ n := by
      rw [two_zpow_of_nonneg he, le_div_iff₀ hd', mul_comm]
      exact_mod_cast Iff.rfl
    simp only [if_pos he, hiff]
  · have hiff : (2 : ℚ) ^ e ≤ n / d ↔ d ≤ n * 2 ^ (-e).toNat := by
      rw [two_zpow_of_neg he, inv_le_iff_one_le_mul₀ (by positivity), div_mul_eq_mul_div, one_le_div hd']
      exact_mod_cast Iff.rfl
    simp only [if_neg he, hiff]

theorem zpow_log2_le {n : Nat} (hn : n ≠ 0) : (2 : ℚ) ^ (n.log2 : Int) ≤ n := by
  rw [zpow_natCast]
  exact_mod_cast Nat.log2_self_le hn

theorem lt_zpow_log2_add_one (n : Nat) : (n : ℚ) < 2 ^ ((n.log2 : Int) + 1) := by
  rw [← Nat.cast_succ, zpow_natCast]
  exact_mod_cast Nat.lt_log2_self

/-- A positive value lies within its leading power of two and the next. -/
theorem log2Rat_bounds {n d : Nat} (hn : n ≠ 0) (hd : 0 < d) :
    (2 : ℚ) ^ log2Rat n d ≤ n / d ∧ (n / d : ℚ) < 2 ^ (log2Rat n d + 1) := by
  have hd' : (0 : ℚ) < d := Nat.cast_pos.2 hd
  have hmul : ∀ a b : Int, (2 : ℚ) ^ (a + b) = 2 ^ a * 2 ^ b := zpow_add₀ two_ne_zero
  have hpos : ∀ a : Int, (0 : ℚ) < 2 ^ a := zpow_pos two_pos
  rw [log2Rat_eq n hd]
  split
  next hle =>
    refine ⟨hle, (div_lt_iff₀ hd').2 ?_⟩
    calc (n : ℚ) < 2 ^ ((n.log2 : Int) - d.log2 + 1 + d.log2) := by
          rw [show (n.log2 : Int) - d.log2 + 1 + d.log2 = n.log2 + 1 by ring]; exact lt_zpow_log2_add_one n
      _ ≤ 2 ^ ((n.log2 : Int) - d.log2 + 1) * d := by
          rw [hmul]; exact mul_le_mul_of_nonneg_left (zpow_log2_le hd.ne') (hpos _).le
  next hgt =>
    refine ⟨(le_div_iff₀ hd').2 ?_, by rw [sub_add_cancel]; exact not_le.1 hgt⟩
    calc (2 : ℚ) ^ ((n.log2 : Int) - d.log2 - 1) * d
        ≤ 2 ^ ((n.log2 : Int) - d.log2 - 1) * 2 ^ ((d.log2 : Int) + 1) :=
          mul_le_mul_of_nonneg_left (lt_zpow_log2_add_one d).le (hpos _).le
      _ = 2 ^ (n.log2 : Int) := by rw [← hmul]; congr 1; ring
      _ ≤ n := zpow_log2_le hn

/-! ### The value of an encoding, from its fields -/

/-- The significand of an encoding, with its leading one. -/
def fmtSignificand (f : Fmt) (b : Nat) : Nat := if fmtExp f b = 0 then fmtMan f b else 2 ^ f.m + fmtMan f b

/-- The exponent of the last place of an encoding. -/
def fmtUlp (f : Fmt) (b : Nat) : Int := max (fmtExp f b : Int) 1 - f.bias - f.m

/-- The magnitude of a finite encoding. -/
def fmtMagnitude (f : Fmt) (b : Nat) : ℚ := fmtSignificand f b * 2 ^ fmtUlp f b

theorem den_fmtDecode_pos (f : Fmt) (b : Nat) : 0 < (fmtDecode f b).den := by
  rw [fmtDecode_eq]
  split
  · split <;> exact Nat.one_pos
  split
  · exact Nat.one_pos
  split
  · split
    · exact Nat.one_pos
    · exact den_nScaled_pos ..
  · exact den_nScaled_pos ..

theorem val_fmtDecode {f : Fmt} {b : Nat} (he : 0 < f.e) (hfin : (fmtDecode f b).fin = true) :
    (fmtDecode f b).val = signFactor (b.testBit (f.e + f.m)) * fmtMagnitude f b := by
  obtain ⟨hnan, hinf⟩ := fin_iff.1 hfin
  rw [fmtMagnitude]
  rcases fmtDecode_cases he hnan with ⟨-, -, -, hdec⟩ | ⟨-, ⟨hE, hM, hdec⟩ | ⟨hE, -, hdec⟩ | ⟨hE, hdec⟩⟩
  · rw [hdec] at hinf
    exact absurd hinf nofun
  · rw [hdec, val_of_num_zero rfl, fmtSignificand, if_pos hE, hM, Nat.cast_zero, zero_mul, mul_zero]
  · rw [hdec, val_nScaled, fmtSignificand, if_pos hE, fmtUlp, hE, max_eq_right (by decide)]
  · rw [hdec, val_nScaled, fmtSignificand, if_neg hE, fmtUlp, max_eq_left (by omega)]

theorem fmtSignificand_lt (f : Fmt) (b : Nat) : fmtSignificand f b < 2 ^ (f.m + 1) := by
  have := fmtMan_lt f b
  rw [fmtSignificand, pow_succ]
  split <;> omega

section
variable {f : Fmt} {b : Nat} (s : Bool) (hb : b < 2 ^ (f.e + f.m))
include hb

theorem testBit_fmtSign_add : (fmtSign f s + b).testBit (f.e + f.m) = s := by
  cases s
  · simpa [fmtSign] using Nat.testBit_lt_two_pow hb
  · simp [fmtSign, Nat.testBit_two_pow_add_eq, Nat.testBit_lt_two_pow hb]

theorem fmtExp_fmtSign_add (he : 0 < f.e) : fmtExp f (fmtSign f s + b) = b / 2 ^ f.m := by
  have hlt : b / 2 ^ f.m < 2 ^ f.e := by rwa [Nat.div_lt_iff_lt_mul (Nat.two_pow_pos _), ← pow_add]
  rw [fmtExp_eq he, fmtSign]
  split
  · rw [pow_add, Nat.mul_comm, Nat.mul_add_div (Nat.two_pow_pos _), Nat.add_mod_left, Nat.mod_eq_of_lt hlt]
  · rw [Nat.zero_add, Nat.mod_eq_of_lt hlt]

omit hb in
theorem fmtMan_fmtSign_add : fmtMan f (fmtSign f s + b) = b % 2 ^ f.m := by
  rw [fmtMan, fmtSign]
  split
  · rw [pow_add, Nat.mul_add_mod']
  · rw [Nat.zero_add]

end

/-- The magnitude of an encoding, from its two fields side by side. -/
theorem magnitude_of_fields {f : Fmt} (s : Bool) {E M : Nat} (he : 0 < f.e) (hM : M < 2 ^ f.m)
    (hb : E * 2 ^ f.m + M < 2 ^ (f.e + f.m)) :
    fmtMagnitude f (fmtSign f s + (E * 2 ^ f.m + M)) =
      (if E = 0 then M else 2 ^ f.m + M : Nat) * 2 ^ (max (E : Int) 1 - f.bias - f.m) := by
  have hexp : (E * 2 ^ f.m + M) / 2 ^ f.m = E := by
    rw [Nat.mul_comm, Nat.mul_add_div (Nat.two_pow_pos _), Nat.div_eq_of_lt hM, Nat.add_zero]
  rw [fmtMagnitude, fmtSignificand, fmtUlp, fmtExp_fmtSign_add s hb he, fmtMan_fmtSign_add, hexp, Nat.mul_add_mod', Nat.mod_eq_of_lt hM]

/-- The encoder adds the rounded significand `q`, leading one and all, to the exponent field `k`: a carry out of the significand
moves on to the next exponent, whose values it names. -/
theorem magnitude_of_significand {f : Fmt} (s : Bool) {k q : Nat} (he : 0 < f.e) (hq : q ≤ 2 ^ (f.m + 1)) (hk : k = 0 ∨ 2 ^ f.m ≤ q)
    (hb : k * 2 ^ f.m + q < 2 ^ (f.e + f.m)) :
    fmtMagnitude f (fmtSign f s + (k * 2 ^ f.m + q)) = q * 2 ^ ((k : Int) + 1 - f.bias - f.m) := by
  have hpos := Nat.two_pow_pos f.m
  rw [pow_succ] at hq
  rcases hq.lt_or_eq with hlt | rfl
  · rcases Nat.lt_or_ge q (2 ^ f.m) with hsub | hnorm
    · obtain rfl : k = 0 := hk.resolve_right hsub.not_ge
      rw [magnitude_of_fields s he hsub hb, if_pos rfl, Nat.cast_zero, max_eq_right (by decide), zero_add]
    · have hfield : k * 2 ^ f.m + q = (k + 1) * 2 ^ f.m + (q - 2 ^ f.m) := by rw [Nat.succ_mul]; omega
      rw [hfield] at hb ⊢
      rw [magnitude_of_fields s he (by omega) hb, if_neg (Nat.succ_ne_zero k), Nat.add_sub_cancel' hnorm, max_eq_left (by omega),
        Nat.cast_succ]
  · have hfield : k * 2 ^ f.m + 2 ^ f.m * 2 = (k + 2) * 2 ^ f.m + 0 := by ring
    rw [hfield] at hb ⊢
    rw [magnitude_of_fields s he hpos hb, if_neg (Nat.succ_ne_zero _), max_eq_left (by omega), Nat.add_zero, Nat.cast_mul, mul_assoc,
      Nat.cast_ofNat, ← zpow_one_add₀ two_ne_zero]
    congr 2
    push_cast
    ring

/-! ### What the encoder writes -/

/-- The exponent the encoder rounds a value at: its own, or that of the subnormals. -/
def roundExp (f : Fmt) (x : Num) : Int := max (log2Rat x.num x.den) (1 - (f.bias : Int))

/-- The significand the encoder rounds a value to. -/
def roundSignificand (f : Fmt) (x : Num) : Nat := rneAt x.num x.den (roundExp f x - f.m)

/-- The encoding of the rounded value, its sign apart. -/
def roundBits (f : Fmt) (x : Num) : Nat := (roundExp f x + f.bias - 1).toNat * 2 ^ f.m + roundSignificand f x

theorem fmtEncode_of_ne_zero (f : Fmt) (ovf : Bool) {x : Num} (hx : x.fin = true) (hz : x.num ≠ 0) :
    fmtEncode f ovf x =
      if roundBits f x ≤ fmtMax f then { bits := fmtSign f x.neg + roundBits f x } else fmtOver f ovf (fmtSign f x.neg) := by
  obtain ⟨hnan, hinf⟩ := fin_iff.1 hx
  simp only [fmtEncode, hnan, hinf, hz, Bool.false_eq_true, if_false]
  rfl

theorem fmtEncode_of_zero (f : Fmt) (ovf : Bool) {x : Num} (hx : x.fin = true) (hz : x.num = 0) :
    fmtEncode f ovf x = { bits := fmtSign f x.neg } := by
  obtain ⟨hnan, hinf⟩ := fin_iff.1 hx
  simp only [fmtEncode, hnan, hinf, hz, Bool.false_eq_true, if_false, if_true]
  rfl

theorem fmtMax_lt (f : Fmt) : fmtMax f < 2 ^ (f.e + f.m) := by
  have hpos := Nat.two_pow_pos (f.e + f.m)
  have hinf : (2 ^ f.e - 1) * 2 ^ f.m ≤ 2 ^ (f.e + f.m) := by
    rw [pow_add]
    exact Nat.mul_le_mul_right _ (Nat.sub_le _ _)
  unfold fmtMax
  repeat' split
  all_goals omega

/-- An overflow gives an infinity, or saturates (R141 under OVF 0). -/
theorem fmtOver_inf_or_sat {f : Fmt} (s : Bool) (he : 0 < f.e) :
    (fmtDecode f (fmtOver f false (fmtSign f s)).bits).fin = false ∨ (fmtOver f false (fmtSign f s)).sat = true := by
  cases hinf : f.inf
  · right
    simp [fmtOver, hinf]
  · left
    have hlt : (2 ^ f.e - 1) * 2 ^ f.m < 2 ^ (f.e + f.m) := by
      rw [pow_add]
      exact Nat.mul_lt_mul_of_pos_right (Nat.sub_one_lt (Nat.two_pow_pos _).ne') (Nat.two_pow_pos _)
    rw [fmtOver, if_pos hinf, fmtDecode_eq, fmtExp_fmtSign_add s hlt he, fmtMan_fmtSign_add,
      Nat.mul_div_cancel _ (Nat.two_pow_pos _), Nat.mul_mod_left, hinf]
    simp [nInf, Num.fin]

/-- A finite result that did not saturate is the rounded value's encoding. -/
theorem fmtEncode_bits {f : Fmt} {x : Num} (he : 0 < f.e) (hx : x.fin = true) (hz : x.num ≠ 0)
    (hsat : (fmtEncode f false x).sat = false) (hfin : (fmtDecode f (fmtEncode f false x).bits).fin = true) :
    (fmtEncode f false x).bits = fmtSign f x.neg + roundBits f x ∧ roundBits f x < 2 ^ (f.e + f.m) := by
  rw [fmtEncode_of_ne_zero f false hx hz] at hsat hfin ⊢
  split at hsat
  next hmax =>
    rw [if_pos hmax]
    exact ⟨rfl, hmax.trans_lt (fmtMax_lt f)⟩
  next hmax =>
    rw [if_neg hmax] at hfin
    rcases fmtOver_inf_or_sat x.neg he with hover | hover
    · exact absurd (hfin.symm.trans hover) nofun
    · exact absurd (hsat.symm.trans hover) nofun

section
variable {f : Fmt} {x : Num} (hd : 0 < x.den) (hz : x.num ≠ 0)
include hd hz

theorem roundSignificand_le : roundSignificand f x ≤ 2 ^ (f.m + 1) := by
  refine rneAt_le hd ?_
  rw [div_lt_iff₀ (zpow_pos two_pos _), Nat.cast_pow, Nat.cast_ofNat, ← zpow_natCast, ← zpow_add₀ two_ne_zero]
  refine (log2Rat_bounds hz hd).2.trans_le (zpow_le_zpow_right₀ one_le_two ?_)
  rw [roundExp]
  push_cast
  omega

/-- Above the subnormals the value has the exponent it is rounded at. -/
theorem two_zpow_roundExp_le (h : roundExp f x ≠ 1 - f.bias) : (2 : ℚ) ^ roundExp f x ≤ x.num / x.den := by
  have hexp : roundExp f x = log2Rat x.num x.den := by unfold roundExp at h ⊢; omega
  rw [hexp]
  exact (log2Rat_bounds hz hd).1

theorem le_roundSignificand (h : roundExp f x ≠ 1 - f.bias) : 2 ^ f.m ≤ roundSignificand f x := by
  refine le_rneAt hd ?_
  rw [le_div_iff₀ (zpow_pos two_pos _), Nat.cast_pow, Nat.cast_ofNat, ← zpow_natCast, ← zpow_add₀ two_ne_zero, add_sub_cancel]
  exact two_zpow_roundExp_le hd hz h

/-- The result's value is the rounded significand at its exponent. -/
theorem val_fmtEncode (he : 0 < f.e) (hx : x.fin = true) (hsat : (fmtEncode f false x).sat = false)
    (hfin : (fmtDecode f (fmtEncode f false x).bits).fin = true) :
    (fmtDecode f (fmtEncode f false x).bits).val =
      signFactor x.neg * (roundSignificand f x * 2 ^ (roundExp f x - f.m)) := by
  obtain ⟨hbits, hlt⟩ := fmtEncode_bits he hx hz hsat hfin
  have hleast : 1 - (f.bias : Int) ≤ roundExp f x := le_max_right _ _
  have hfield : (roundExp f x + f.bias - 1).toNat = 0 ∨ 2 ^ f.m ≤ roundSignificand f x := by
    by_cases h : roundExp f x = 1 - f.bias
    · left; omega
    · exact .inr (le_roundSignificand hd hz h)
  rw [hbits] at hfin ⊢
  rw [val_fmtDecode he hfin, testBit_fmtSign_add _ hlt, roundBits,
    magnitude_of_significand x.neg he (roundSignificand_le hd hz) hfield hlt, Int.toNat_of_nonneg (by omega)]
  congr 3
  ring

end

theorem val_fmtEncode_of_zero {f : Fmt} {x : Num} (he : 0 < f.e) (hx : x.fin = true) (hz : x.num = 0)
    (hfin : (fmtDecode f (fmtEncode f false x).bits).fin = true) : (fmtDecode f (fmtEncode f false x).bits).val = 0 := by
  have hmag := magnitude_of_significand (f := f) x.neg he (k := 0) (Nat.zero_le _) (.inl rfl) (by simp)
  rw [Nat.zero_mul, Nat.add_zero, Nat.cast_zero, zero_mul] at hmag
  rw [val_fmtDecode he hfin, fmtEncode_of_zero f false hx hz, hmag, mul_zero]

/-! ### No encoding lies closer -/

theorem rneAt_nearest_signed (s : Bool) (n : Nat) {d : Nat} (hd : 0 < d) (e k : Int) :
    |signFactor s * (rneAt n d e * 2 ^ e) - signFactor s * (n / d)| ≤ |k * 2 ^ e - signFactor s * (n / d)| := by
  rw [← mul_sub, abs_mul, abs_signFactor, one_mul]
  cases s
  · rw [signFactor, if_neg nofun, one_mul]
    exact rneAt_nearest n hd e k
  · have hneg : |(k : ℚ) * 2 ^ e - signFactor true * (n / d)| = |((-k : Int) : ℚ) * 2 ^ e - n / d| := by
      rw [← abs_neg, signFactor, if_pos rfl]
      congr 1
      push_cast
      ring
    rw [hneg]
    exact rneAt_nearest n hd e (-k)

/-- At or above the exponent of the rounding an encoding's value is a multiple of its unit. -/
theorem val_eq_mul_of_le_ulp {f : Fmt} {c : Nat} (he : 0 < f.e) (hfin : (fmtDecode f c).fin = true) {g : Int} (hg : g ≤ fmtUlp f c) :
    ∃ k : Int, (fmtDecode f c).val = k * 2 ^ g := by
  obtain ⟨j, hj⟩ := Int.le.dest hg
  have hsign : ∃ t : Int, signFactor (c.testBit (f.e + f.m)) = t := by
    cases c.testBit (f.e + f.m)
    · exact ⟨1, by simp [signFactor]⟩
    · exact ⟨-1, by simp [signFactor]⟩
  obtain ⟨t, ht⟩ := hsign
  refine ⟨t * (fmtSignificand f c * 2 ^ j), ?_⟩
  rw [val_fmtDecode he hfin, fmtMagnitude, ht, ← hj, zpow_add₀ two_ne_zero, zpow_natCast]
  push_cast
  ring

/-- Below the exponent of the rounding an encoding's value has a smaller one. -/
theorem abs_val_lt_of_ulp_lt {f : Fmt} {c : Nat} (he : 0 < f.e) (hfin : (fmtDecode f c).fin = true) {g : Int} (hg : fmtUlp f c < g) :
    |(fmtDecode f c).val| < 2 ^ (g + f.m) := by
  have hlt : (fmtSignificand f c : ℚ) < 2 ^ (f.m + 1) := by exact_mod_cast fmtSignificand_lt f c
  rw [val_fmtDecode he hfin, abs_mul, abs_signFactor, one_mul, fmtMagnitude, abs_of_nonneg (by positivity)]
  calc (fmtSignificand f c : ℚ) * 2 ^ fmtUlp f c
      < 2 ^ (f.m + 1) * 2 ^ fmtUlp f c := mul_lt_mul_of_pos_right hlt (zpow_pos two_pos _)
    _ = 2 ^ (fmtUlp f c + 1 + f.m) := by
        rw [← zpow_natCast, ← zpow_add₀ two_ne_zero]
        congr 1
        push_cast
        ring
    _ ≤ 2 ^ (g + f.m) := zpow_le_zpow_right₀ one_le_two (by omega)

theorem one_sub_bias_le_fmtUlp (f : Fmt) (c : Nat) : 1 - (f.bias : Int) - f.m ≤ fmtUlp f c := by
  unfold fmtUlp
  omega

/-- The rounded value is a nearest one: an encoding above the exponent of the rounding is among the multiples the rounding chose from,
and between the others and the value lies the power of two that begins its binade, a multiple itself. -/
theorem rounded_nearest {f : Fmt} {x : Num} {c : Nat} (he : 0 < f.e) (hd : 0 < x.den) (hz : x.num ≠ 0)
    (hfin : (fmtDecode f c).fin = true) :
    |signFactor x.neg * (roundSignificand f x * 2 ^ (roundExp f x - f.m)) - x.val| ≤ |(fmtDecode f c).val - x.val| := by
  rw [val_eq x]
  rcases le_or_gt (roundExp f x - f.m) (fmtUlp f c) with hcoarse | hfine
  · obtain ⟨k, hk⟩ := val_eq_mul_of_le_ulp he hfin hcoarse
    rw [hk]
    exact rneAt_nearest_signed x.neg x.num hd _ k
  · have hleast := one_sub_bias_le_fmtUlp f c
    have hbinade := two_zpow_roundExp_le (f := f) hd hz (by omega)
    have hbelow := abs_val_lt_of_ulp_lt he hfin hfine
    rw [sub_add_cancel] at hbelow
    have hpow : ((2 ^ f.m : Int) : ℚ) * 2 ^ (roundExp f x - f.m) = 2 ^ roundExp f x := by
      rw [Int.cast_pow, Int.cast_ofNat, ← zpow_natCast, ← zpow_add₀ two_ne_zero, add_sub_cancel]
    have habs : |signFactor x.neg * (x.num / x.den : ℚ)| = x.num / x.den := by
      rw [abs_mul, abs_signFactor, one_mul, abs_of_nonneg (by positivity)]
    calc |signFactor x.neg * (roundSignificand f x * 2 ^ (roundExp f x - f.m)) - signFactor x.neg * (x.num / x.den)|
        = |(roundSignificand f x : ℚ) * 2 ^ (roundExp f x - f.m) - x.num / x.den| := by
          rw [← mul_sub, abs_mul, abs_signFactor, one_mul]
      _ ≤ |((2 ^ f.m : Int) : ℚ) * 2 ^ (roundExp f x - f.m) - x.num / x.den| := rneAt_nearest x.num hd _ _
      _ = x.num / x.den - 2 ^ roundExp f x := by rw [hpow, abs_sub_comm, abs_of_nonneg (sub_nonneg.2 hbinade)]
      _ ≤ |signFactor x.neg * (x.num / x.den : ℚ)| - |(fmtDecode f c).val| := by rw [habs]; linarith
      _ ≤ |(fmtDecode f c).val - signFactor x.neg * (x.num / x.den)| := by
          rw [abs_sub_comm (fmtDecode f c).val]; exact abs_sub_abs_le_abs_sub _ _

/-! ### The statement -/

/-- Settles O40: the result's value is the rounded one, and the rounded value is a nearest one. -/
theorem roundingIsNearest : Obligations.RoundingIsNearest := by
  intro f x c hf hx hd _ hc y z hsat hy
  have he := formats_have_exponent f hf
  refine dist_le_of_val hd (den_fmtDecode_pos f _) (den_fmtDecode_pos f _) ?_
  by_cases hz : x.num = 0
  · rw [val_fmtEncode_of_zero he hx hz hy, val_of_num_zero hz, sub_zero, abs_zero]
    exact abs_nonneg _
  · rw [val_fmtEncode hd hz he hx hsat hy]
    exact rounded_nearest he hd hz hc

end Sys2Proof.Machine
end

section
/-! PROOFS. The requests of the Veper: how one takes its reserve and is sent, and how it ends (R166, R279, R282, R292, R294). -/

namespace Sys2Proof.Machine

/-! ### A report leaves ports and deliveries -/

theorem NoteFrame.ports {s t : State} (h : NoteFrame s t) : t.ports = s.ports := by rw [h]

theorem flightOnce_ports (s : State) (q n code unit level detail : Nat) :
    (flightOnce s q n code unit level detail).ports = s.ports := by
  unfold flightOnce flightFault
  split
  · rfl
  · split
    · rfl
    · exact (recordFault_noteFrame s _).ports

/-- What a descriptor in flight has of its remote requests: those outstanding, and the lines they brought. -/
def remoteCore (f : Flight) : Nat × Nat × List RemoteLine := (f.seq, f.remote, f.lines)

/-- R166: a fault record of a descriptor in flight leaves what its requests brought it. -/
theorem flightOnce_remoteCore {s : State} {q n : Nat} {f : Flight} (h : s.flightAt q n = some f) (code unit level detail : Nat) :
    ∃ g, (flightOnce s q n code unit level detail).flightAt q n = some g ∧ remoteCore g = remoteCore f := by
  have hcore := (flightOnce_storeFrame (core := remoteCore) (fun _ _ _ => rfl) s q n code unit level detail).flightAt
    (num := Prod.fst) (fun _ => rfl) q n
  rw [h] at hcore
  exact Option.map_eq_some_iff.1 hcore

/-- R398: the first record of a code is on its way, under the descriptor's tag. -/
theorem flightOnce_writes {s : State} {q n code : Nat} {f : Flight} (h : s.flightAt q n = some f)
    (hnew : f.wrote.contains code = false) (unit level detail : Nat) :
    ∃ e, e ∈ (flightOnce s q n code unit level detail).flt.due ∧ e.2.code = code ∧ e.2.tag = tagOf f.words ∧ e.2.level = level := by
  have hfault : flightOnce s q n code unit level detail = flightFault s q n code unit level detail := by
    rw [flightOnce, h]
    exact if_neg (by rw [hnew]; decide)
  rw [hfault]
  exact ⟨_, flightFault_mem_due h code unit level detail, rfl, rfl, rfl⟩

/-! ### A request that ends -/

/-- Request `r` has left port `p`, and its reserve is free (R292, R294). -/
def reqLeft (s : State) (p : Nat) (r : Req) : State :=
  s.modPort p fun x => { dropUnsent x r with
    reqs := x.reqs.filter fun y => y.txn != r.txn
    rsvHeads := if r.due.isSome then x.rsvHeads - 1 else x.rsvHeads
    rsvUnits := if r.due.isSome && !r.write then x.rsvUnits - r.nlines else x.rsvUnits }

/-- What the end of request `r` brings the descriptor that made it (R166). -/
def reqBrings (r : Req) (lines : List RemoteLine) (f : Flight) : Flight :=
  { f with remote := f.remote - 1, lines := if r.write then f.lines else f.lines ++ lines }

/-- The end of request `r` as its port and its descriptor see it, before any record. -/
def reqEnded (s : State) (p : Nat) (r : Req) (q n : Nat) (lines : List RemoteLine) : State :=
  (reqLeft s p r).modFlight q n (reqBrings r lines)

theorem reqDone_flight {r : Req} {q n : Nat} (hwho : r.who = .flight q n) (s : State) (p : Nat) (ok : Bool) (status fault : Nat)
    (lines : List RemoteLine) :
    reqDone s p r ok status fault lines =
      if ok then reqEnded s p r q n lines
      else flightOnce (reqEnded s p r q n lines) q n 0x1A (portUnit p) 1 (fault + status * 2 ^ 8 + p * 2 ^ 16) := by
  rw [reqDone, hwho]
  rfl

theorem reqEnded_flightAt {s : State} {q n : Nat} {f : Flight} (h : s.flightAt q n = some f) (p : Nat) (r : Req)
    (lines : List RemoteLine) : (reqEnded s p r q n lines).flightAt q n = some (reqBrings r lines f) := by
  have hleft : (reqLeft s p r).flightAt q n = some f := h
  rw [reqEnded, State.flightAt_modFlight (g := reqBrings r lines) _ _ _ (fun _ => rfl), hleft]
  rfl

theorem reqDone_ports (s : State) (p : Nat) (r : Req) (ok : Bool) (status fault : Nat) (lines : List RemoteLine) :
    (reqDone s p r ok status fault lines).ports = (reqLeft s p r).ports := by
  unfold reqDone
  extract_lets u
  split
  · cases ok with
    | true => rfl
    | false => exact flightOnce_ports _ _ _ _ _ _ _
  · rfl

theorem reqDone_port (s : State) (p : Nat) (r : Req) (ok : Bool) (status fault : Nat) (lines : List RemoteLine) :
    (reqDone s p r ok status fault lines).port p = (reqLeft s p r).port p := by
  rw [State.port, reqDone_ports, State.port]

/-- R279: the TXN of a request that has ended is free. -/
theorem reqDone_forgets (s : State) (p : Nat) (r : Req) (ok : Bool) (status fault : Nat) (lines : List RemoteLine) :
    ∀ y ∈ ((reqDone s p r ok status fault lines).port p).reqs, y.txn ≠ r.txn := by
  intro y hy
  rw [reqDone_port, reqLeft, State.modPort, State.setPort_port, if_pos rfl] at hy
  exact bne_iff_ne.1 (List.mem_filter.1 hy).2

/-- R292: a request that held a reserve gives its header back. -/
theorem reqDone_rsvHeads {r : Req} {d : Nat} (hdue : r.due = some d) (s : State) (p : Nat) (ok : Bool) (status fault : Nat)
    (lines : List RemoteLine) : ((reqDone s p r ok status fault lines).port p).rsvHeads = (s.port p).rsvHeads - 1 := by
  rw [reqDone_port, reqLeft, State.modPort, State.setPort_port, if_pos rfl, hdue]
  rfl

/-- Request `r` of port `p` failed on the way from `s` to `t`: poisoned zeros for the lines of a READ, memory as it was, one
REMOTE_FAIL record for its descriptor (R166, R294). -/
def FailsRequest (s t : State) (p : Nat) (r : Req) : Prop :=
  (∀ y ∈ (t.port p).reqs, y.txn ≠ r.txn) ∧ t.mem = s.mem ∧
    ∀ q n f, r.who = .flight q n → s.flightAt q n = some f → ∃ g, t.flightAt q n = some g ∧ g.remote = f.remote - 1 ∧
      g.lines = (if r.write then f.lines else f.lines ++ errLines p r) ∧
      (f.wrote.contains 0x1A = false → ∃ e, e ∈ t.flt.due ∧ e.2.code = 0x1A ∧ e.2.tag = tagOf f.words ∧ e.2.level = 1)

/-- R166, R294: an end without success is a failure, whatever its STATUS. -/
theorem reqDone_fails (s : State) (p : Nat) (r : Req) (status fault : Nat) :
    FailsRequest s (reqDone s p r false status fault (errLines p r)) p r := by
  refine ⟨reqDone_forgets s p r _ _ _ _, (reqDone_engineFrame s p r _ _ _ _).mem, fun q n f hwho hf => ?_⟩
  have hended := reqEnded_flightAt hf p r (errLines p r)
  rw [reqDone_flight hwho, if_neg Bool.false_ne_true]
  obtain ⟨g, hg, hcore⟩ := flightOnce_remoteCore hended 0x1A (portUnit p) 1 (fault + status * 2 ^ 8 + p * 2 ^ 16)
  exact ⟨g, hg, congrArg (fun c => c.2.1) hcore, congrArg (fun c => c.2.2) hcore, fun hnew => flightOnce_writes hended hnew _ _ _⟩

/-- R166: an end with success brings the lines, and no record. -/
theorem reqDone_succeeds {s : State} {r : Req} {q n : Nat} {f : Flight} (hwho : r.who = .flight q n)
    (hf : s.flightAt q n = some f) (p : Nat) (status fault : Nat) (lines : List RemoteLine) :
    (reqDone s p r true status fault lines).flightAt q n = some (reqBrings r lines f) ∧
    (reqDone s p r true status fault lines).flt = s.flt := by
  rw [reqDone_flight hwho, if_pos rfl]
  exact ⟨reqEnded_flightAt hf p r lines, rfl⟩

/-! ### REQUEST_SEND and REQUEST_TIMEOUT -/

/-- Request `r` holds its reserve on port `p`, and its WLT_REQ_TO counts (R292, R294). -/
def reqReserved (s : State) (p : Nat) (r : Req) : State :=
  let x := s.port p
  s.setPort p { x with
    rsvHeads := x.rsvHeads + 1, rsvUnits := if r.write then x.rsvUnits else x.rsvUnits + r.nlines
    reqs := x.reqs.map fun y => if y.txn = r.txn then { y with due := some (s.now + reqToCc s p) } else y }

/-- R282: a request of a port that is not UP ends as PORT_DOWN. -/
theorem exec_requestSend_down {s : State} {p : Fin 8} {r : Req} (hon : s.linkOn = true)
    (hfirst : (s.port p).reqs.find? (fun r => r.due.isNone) = some r) (hhalt : s.halted = false) (hdown : (s.port p).state ≠ .up) :
    exec (.requestSend p) s = .next (reqDone s p r false 0x09 0 (errLines p r)) := by
  show execRequestSend p s = _
  unfold execRequestSend
  extract_lets x
  rw [show x.reqs.find? (fun r => r.due.isNone) = some r from hfirst]
  dsimp only
  rw [if_neg (by simp [hon, hhalt]), if_pos hdown]

/-- R292: a request for which a reserve is free takes it and is sent. -/
theorem exec_requestSend_up {s : State} {p : Fin 8} {r : Req} (hon : s.linkOn = true)
    (hfirst : (s.port p).reqs.find? (fun r => r.due.isNone) = some r) (hhalt : s.halted = false) (hup : (s.port p).state = .up)
    (hheads : (s.port p).rsvHeads < 256) (hunits : r.write = true ∨ (s.port p).rsvUnits + r.nlines ≤ 1024) :
    exec (.requestSend p) s = .next (pushMsg (reqReserved s p r) p (reqMsg (reqReserved s p r) r)) := by
  have hroom : ¬ (256 < (s.port p).rsvHeads + 1 ∨ (r.write = false ∧ 1024 < (s.port p).rsvUnits + r.nlines)) := by
    rintro (h | ⟨hread, h⟩)
    · omega
    · rcases hunits with hwrite | hle
      · exact absurd hwrite (by rw [hread]; decide)
      · omega
  show execRequestSend p s = _
  unfold execRequestSend
  extract_lets x
  rw [show x.reqs.find? (fun r => r.due.isNone) = some r from hfirst]
  dsimp only
  rw [if_neg (by simp [hon, hhalt]), if_neg (not_not.2 hup), if_neg hroom]
  rfl

/-- R294: a request whose WLT_REQ_TO has passed ends as TIMEOUT. -/
theorem exec_requestTimeout_due {s : State} {p : Fin 8} {txn : Nat} {r : Req} {d : Nat} (hon : s.linkOn = true)
    (hreq : (s.port p).reqs.find? (fun r => r.txn == txn) = some r) (hdue : r.due = some d) (hd : d ≤ s.now) :
    exec (.requestTimeout p txn) s = .next (reqDone s p r false 0x08 0 (errLines p r)) := by
  show execRequestTimeout p txn s = _
  unfold execRequestTimeout
  rw [hreq]
  dsimp only
  rw [if_pos (by simp [hon, hdue, hd])]

theorem reqReserved_port (s : State) (p : Nat) (r : Req) : (reqReserved s p r).port p = { s.port p with
    rsvHeads := (s.port p).rsvHeads + 1
    rsvUnits := if r.write then (s.port p).rsvUnits else (s.port p).rsvUnits + r.nlines
    reqs := (s.port p).reqs.map fun y => if y.txn = r.txn then { y with due := some (s.now + reqToCc s p) } else y } := by
  rw [reqReserved, State.setPort_port, if_pos rfl]

/-- Tables 12.14, 12.16, 12.17: a request goes on the RQ channel. -/
theorem reqMsg_channel (s : State) (r : Req) : (typeVc (reqMsg s r).type).getD 2 = 2 := by
  unfold reqMsg
  cases r.write <;> rfl

theorem PortSt.setChan_chan (x : PortSt) (v : Nat) (c : Chan) : (x.setChan v c).chan v = c := mget_mset_self _ _ _ _

/-- R264: a message waits behind those of its channel; no other part of its port changes. -/
theorem pushMsg_port (s : State) (p : Nat) (m : Msg) (heads units : Nat) :
    (pushMsg s p m heads units).port p = (s.port p).setChan ((typeVc m.type).getD 2)
      { (s.port p).chan ((typeVc m.type).getD 2) with
        tx := ((s.port p).chan ((typeVc m.type).getD 2)).tx ++
          [{ bytes := msgBytes { m with len := m.payload.length }, heads := heads, units := units }] } := by
  rw [pushMsg, State.modPort, State.setPort_port, if_pos rfl]

theorem requestSend_reserves {s : State} {p : Fin 8} {r : Req} (hon : s.linkOn = true)
    (hfirst : (s.port p).reqs.find? (fun r => r.due.isNone) = some r) (hhalt : s.halted = false) (hup : (s.port p).state = .up)
    (hheads : (s.port p).rsvHeads < 256) (hunits : r.write = true ∨ (s.port p).rsvUnits + r.nlines ≤ 1024) :
    ∃ t, exec (.requestSend p) s = .next t ∧ (t.port p).rsvHeads = (s.port p).rsvHeads + 1 ∧
      (t.port p).rsvUnits = (s.port p).rsvUnits + (if r.write then 0 else r.nlines) ∧
      (∃ y, y ∈ (t.port p).reqs ∧ y.txn = r.txn ∧ y.due = some (s.now + reqToCc s p)) ∧
      ((t.port p).chan 2).tx.length = ((s.port p).chan 2).tx.length + 1 ∧ t = { s with ports := t.ports } := by
  have hport := pushMsg_port (reqReserved s p r) p (reqMsg (reqReserved s p r) r) 0 0
  rw [reqMsg_channel, reqReserved_port] at hport
  refine ⟨_, exec_requestSend_up hon hfirst hhalt hup hheads hunits, (congrArg PortSt.rsvHeads hport :),
    (congrArg PortSt.rsvUnits hport :).trans ?_, ?_, ?_, rfl⟩
  · cases r.write <;> rfl
  · refine ⟨{ r with due := some (s.now + reqToCc s p) }, ?_, rfl, rfl⟩
    rw [hport]
    exact List.mem_map.2 ⟨r, List.mem_of_find?_eq_some hfirst, if_pos rfl⟩
  · rw [hport, PortSt.setChan_chan]
    exact List.length_append

/-! ### READ_RSP and WRITE_ACK -/

/-- R264: a message that is next on its channel is taken by a port that is UP. -/
theorem withRx_up {s : State} {p v : Nat} {m : Msg} (hello up fenced : State → State) (hon : s.linkOn = true)
    (hup : (s.port p).state = .up) (hnext : rxNext s p v m = true) :
    withRx s p v m hello up fenced = up (takeRx s p v m) := by
  unfold withRx
  extract_lets x u
  rw [if_neg (by simp [x, hon, hup, hnext, linkState]), show x.state = .up from hup]

theorem takeRx_reqs (s : State) (p v : Nat) (m : Msg) : ((takeRx s p v m).port p).reqs = (s.port p).reqs := by
  unfold takeRx
  extract_lets x
  split
  · split
    · rw [State.setPort_port, if_pos rfl]
      rfl
    · rfl
  · rfl

/-- `m` is the next message of the RS channel of an open port, and answers in time its outstanding request `r`, whose TENANT and TAG
it carries (R279). -/
structure AnswerAt (s : State) (p : Nat) (m : Msg) (r : Req) : Prop where
  on : s.linkOn = true
  up : (s.port p).state = .up
  next : rxNext s p 1 m = true
  names : (s.port p).reqs.find? (fun r => r.txn == m.txn && r.due.any fun d => decide (s.now < d)) = some r
  tenant : m.tenant = r.tenant
  tag : m.tag = r.tag

/-- The lines a READ_RSP carries, each with its POISON bit (R274). -/
def rspLines (p : Nat) (r : Req) (m : Msg) : List RemoteLine :=
  (List.range r.nlines).map fun i =>
    { port := p, node := r.node, tenant := r.tenant, addr := r.addr + 64 * i
      data := (m.payload.drop (8 + 64 * i)).take 64, poison := bit (mword m 0) i }

/-- How a response in order ends its request (R166). -/
def rspEnds (s : State) (p : Nat) (r : Req) (m : Msg) : State :=
  if m.status ≠ 0 then reqDone s p r false m.status m.fault (errLines p r) else reqDone s p r true 0 0 (rspLines p r m)

/-- R277, R279: a response of the type, the length and the POISON bits its request asks for is in order. -/
theorem rspFor_fits {s : State} {p : Nat} {m : Msg} {r : Req} (h : AnswerAt s p m r) {write : Bool} (hwrite : r.write = write)
    (hfit : msgFits s m (if write then 0x21 else 0x20) (if write then 0 else if m.status = 0 then 8 + 64 * r.nlines else 8) = true)
    (hbits : (write || decide (mword m 0 < 2 ^ (if m.status = 0 then r.nlines else 0))) = true) :
    rspFor (takeRx s p 1 m) p m write = rspEnds (takeRx s p 1 m) p r m := by
  obtain ⟨-, -, -, hnames, htenant, htag⟩ := h
  have hframe := (takeRx_admits s p 1 m).1
  have hfound : ((takeRx s p 1 m).port p).reqs.find?
      (fun r => r.txn == m.txn && r.due.any fun d => decide ((takeRx s p 1 m).now < d)) = some r := by
    rw [takeRx_reqs, show (takeRx s p 1 m).now = s.now by rw [hframe]]
    exact hnames
  have hfit' : ∀ type len, msgFits (takeRx s p 1 m) m type len = msgFits s m type len := fun type len => by rw [hframe]; rfl
  unfold rspFor
  rw [hfound]
  dsimp only
  rw [hfit', if_neg]
  · rfl
  · simp only [hfit, hwrite, htenant, htag, hbits, beq_self_eq_true, Bool.and_self, Bool.not_true, Bool.false_eq_true,
      not_false_eq_true]

theorem exec_readRsp_fits {s : State} {p : Fin 8} {m : Msg} {r : Req} (h : AnswerAt s p m r) (hread : r.write = false)
    (hfit : msgFits s m 0x20 (if m.status = 0 then 8 + 64 * r.nlines else 8) = true)
    (hbits : mword m 0 < 2 ^ (if m.status = 0 then r.nlines else 0)) :
    exec (.readRsp p m) s = .next (rspEnds (takeRx s p 1 m) p r m) := by
  show execReadRsp p m s = _
  rw [execReadRsp, withRx_up _ _ _ h.on h.up h.next, rspFor_fits h hread hfit (decide_eq_true hbits)]

theorem exec_writeAck_fits {s : State} {p : Fin 8} {m : Msg} {r : Req} (h : AnswerAt s p m r) (hwrite : r.write = true)
    (hfit : msgFits s m 0x21 0 = true) : exec (.writeAck p m) s = .next (rspEnds (takeRx s p 1 m) p r m) := by
  show execWriteAck p m s = _
  rw [execWriteAck, withRx_up _ _ _ h.on h.up h.next, rspFor_fits h hwrite hfit rfl]

/-- R166: a STATUS other than OK makes the end a failure. -/
theorem rspEnds_fails {s : State} {p : Nat} {m : Msg} (r : Req) (hstatus : m.status ≠ 0) :
    FailsRequest s (rspEnds (takeRx s p 1 m) p r m) p r := by
  have hframe := (takeRx_admits s p 1 m).1
  have hfails := reqDone_fails (takeRx s p 1 m) p r m.status m.fault
  rw [rspEnds, if_pos hstatus]
  generalize reqDone (takeRx s p 1 m) p r false m.status m.fault (errLines p r) = t at hfails ⊢
  rw [hframe] at hfails
  exact hfails

/-- R166, R274: STATUS OK brings the lines of a READ. -/
theorem rspEnds_delivers {s : State} {p : Nat} {m : Msg} {r : Req} {q n : Nat} {f : Flight} (hstatus : m.status = 0)
    (hwho : r.who = .flight q n) (hf : s.flightAt q n = some f) :
    ∃ t, rspEnds (takeRx s p 1 m) p r m = t ∧ t.flightAt q n = some (reqBrings r (rspLines p r m) f) ∧
      (∀ y ∈ (t.port p).reqs, y.txn ≠ r.txn) ∧ t.mem = s.mem ∧ t.flt = s.flt := by
  have hframe := (takeRx_admits s p 1 m).1
  have hf' : (takeRx s p 1 m).flightAt q n = some f := by rw [hframe]; exact hf
  obtain ⟨hbrings, hflt⟩ := reqDone_succeeds hwho hf' p 0 0 (rspLines p r m)
  refine ⟨_, if_neg (not_not.2 hstatus), hbrings, reqDone_forgets _ p r _ _ _ _, ?_, ?_⟩
  · exact (reqDone_engineFrame _ p r _ _ _ _).mem.trans (by rw [hframe])
  · exact hflt.trans (by rw [hframe])

theorem readRsp_delivers {s : State} {p : Fin 8} {m : Msg} {r : Req} {q n : Nat} {f : Flight} (h : AnswerAt s p m r)
    (hwho : r.who = .flight q n) (hf : s.flightAt q n = some f) (hstatus : m.status = 0) (hread : r.write = false)
    (hfit : msgFits s m 0x20 (8 + 64 * r.nlines) = true) (hbits : mword m 0 < 2 ^ r.nlines) :
    ∃ t g, exec (.readRsp p m) s = .next t ∧ t.flightAt q n = some g ∧ g.remote = f.remote - 1 ∧
      g.lines = f.lines ++ rspLines p r m ∧ (∀ y ∈ (t.port p).reqs, y.txn ≠ r.txn) ∧ t.mem = s.mem ∧ t.flt = s.flt := by
  have hexec := exec_readRsp_fits h hread (by rw [if_pos hstatus]; exact hfit) (by rw [if_pos hstatus]; exact hbits)
  obtain ⟨t, ht, hg, hrest⟩ := rspEnds_delivers hstatus hwho hf
  refine ⟨t, _, hexec.trans (congrArg _ ht), hg, rfl, ?_, hrest⟩
  rw [reqBrings, hread]
  rfl

theorem writeAck_acknowledges {s : State} {p : Fin 8} {m : Msg} {r : Req} {q n : Nat} {f : Flight} (h : AnswerAt s p m r)
    (hwho : r.who = .flight q n) (hf : s.flightAt q n = some f) (hstatus : m.status = 0) (hwrite : r.write = true)
    (hfit : msgFits s m 0x21 0 = true) :
    ∃ t g, exec (.writeAck p m) s = .next t ∧ t.flightAt q n = some g ∧ g.remote = f.remote - 1 ∧ g.lines = f.lines ∧
      (∀ y ∈ (t.port p).reqs, y.txn ≠ r.txn) ∧ t.mem = s.mem ∧ t.flt = s.flt := by
  obtain ⟨t, ht, hg, hrest⟩ := rspEnds_delivers hstatus hwho hf
  refine ⟨t, _, (exec_writeAck_fits h hwrite hfit).trans (congrArg _ ht), hg, rfl, ?_, hrest⟩
  rw [reqBrings, hwrite]
  rfl

/-! ### The statement -/

/-- Settles O52: a request without its reserve is sent or ends; one that has it ends with its response or the timeout. -/
theorem requestsEndWithTheirLines : Obligations.RequestsEndWithTheirLines := by
  intro s p hon fails
  refine ⟨fun r hfirst hhalt hdown => ?_, fun r => requestSend_reserves hon, fun txn r d hreq hdue hd => ?_,
    fun m r hup hnext hnames hstatus htenant htag => ?_, fun m r q n f hup hnext hnames hwho hf hstatus htenant htag => ?_⟩
  · exact ⟨_, exec_requestSend_down hon hfirst hhalt hdown, reqDone_fails s p r _ _⟩
  · exact ⟨_, exec_requestTimeout_due hon hreq hdue hd, reqDone_fails s p r _ _, reqDone_rsvHeads hdue s p _ _ _ _⟩
  · have h : AnswerAt s p m r := ⟨hon, hup, hnext, hnames, htenant, htag⟩
    refine ⟨fun hread hfit hbits => ⟨_, exec_readRsp_fits h hread ?_ ?_, rspEnds_fails r hstatus⟩,
      fun hwrite hfit => ⟨_, exec_writeAck_fits h hwrite hfit, rspEnds_fails r hstatus⟩⟩
    · rw [if_neg hstatus]
      exact hfit
    · rw [if_neg hstatus, hbits]
      exact Nat.one_pos
  · have h : AnswerAt s p m r := ⟨hon, hup, hnext, hnames, htenant, htag⟩
    exact ⟨readRsp_delivers h hwho hf hstatus, writeAck_acknowledges h hwho hf hstatus⟩

end Sys2Proof.Machine
end

section
/-! PROOFS. The Awl units: the messages on their way and the jobs of the homes (R171, R172). -/

namespace Sys2Proof.Machine

@[simp] theorem State.modAwl_awl (s : State) (i j : Nat) (f : AwlSt → AwlSt) :
    (s.modAwl i f).awl j = if i = j then f (s.awl i) else s.awl j :=
  State.setAwl_awl s i j _

/-! ### Messages on their way -/

theorem awlOut_dropMsg (s : State) (y h : Nat) (m : ScMsg) : awlOut (dropMsg s y h m) y h = (awlOut s y h).erase m := by
  rw [awlOut, dropMsg, setAwlOut, State.modAwl_awl, if_pos rfl]
  exact mget_mset_self _ _ _ _

/-- What changes no message of an Awl unit leaves each on its way. -/
theorem awlOut_modAwl (s : State) (h : Nat) {f : AwlSt → AwlSt} (hf : ∀ a, (f a).out = a.out) (y z : Nat) :
    awlOut (s.modAwl h f) y z = awlOut s y z := by
  rw [awlOut, State.modAwl_awl]
  split
  · rename_i hy
    rw [hf, hy, awlOut]
  · rfl

theorem dropMsg_jobs (s : State) (y h : Nat) (m : ScMsg) (z : Nat) : ((dropMsg s y h m).awl z).jobs = (s.awl z).jobs := by
  rw [dropMsg, setAwlOut, State.modAwl_awl]
  split
  · rename_i hz
    rw [← hz]
  · rfl

/-! ### Jobs -/

/-- The job of a descriptor at a home. -/
def jobAt (a : AwlSt) (q n : Nat) : Option ScJob := a.jobs.find? fun j => j.queue == q && j.seq == n

theorem jobOf_eq (a : AwlSt) (m : ScMsg) : jobOf a m = jobAt a m.queue m.seq := rfl

theorem jobOf_dropMsg (s : State) (y h : Nat) (m : ScMsg) (z : Nat) (x : ScMsg) :
    jobOf ((dropMsg s y h m).awl z) x = jobOf (s.awl z) x := by
  rw [jobOf, jobOf, dropMsg_jobs]

theorem atHead_dropMsg (s : State) (y h : Nat) (m : ScMsg) (z : Nat) (j : ScJob) (x : ScMsg) :
    atHead ((dropMsg s y h m).awl z) j x = atHead (s.awl z) j x := by
  rw [atHead, atHead, dropMsg_jobs]

/-- The descriptor a job is of. -/
def jobKey (j : ScJob) : Nat × Nat := (j.queue, j.seq)

theorem jobAt_key {a : AwlSt} {q n : Nat} {j : ScJob} (h : jobAt a q n = some j) : j.queue = q ∧ j.seq = n := by
  simpa using List.find?_some h

theorem jobAt_head {a : AwlSt} {j : ScJob} {js : List ScJob} (h : a.jobs = j :: js) : jobAt a j.queue j.seq = some j := by
  rw [jobAt, h]
  exact List.find?_cons_of_pos (by simp)

/-- A job replaced is found where it, or another of its descriptor, was found. -/
theorem jobAt_setJob (a : AwlSt) (x : ScJob) (q n : Nat) :
    jobAt (setJob a x) q n = (jobAt a q n).map fun y => if y.queue = x.queue ∧ y.seq = x.seq then x else y := by
  have hkey : (fun j : ScJob => j.queue == q && j.seq == n) ∘ (fun y => if y.queue = x.queue ∧ y.seq = x.seq then x else y) =
      fun j => j.queue == q && j.seq == n := by
    funext y
    by_cases h : y.queue = x.queue ∧ y.seq = x.seq <;> simp [h]
  rw [jobAt, setJob, List.find?_map, hkey, jobAt]

theorem jobAt_setJob_self {a : AwlSt} {x j : ScJob} (h : jobAt a x.queue x.seq = some j) :
    jobAt (setJob a x) x.queue x.seq = some x := by
  rw [jobAt_setJob, h]
  exact congrArg some (if_pos (jobAt_key h))

theorem setJob_keys (a : AwlSt) (x : ScJob) : (setJob a x).jobs.map jobKey = a.jobs.map jobKey := by
  rw [setJob, List.map_map]
  refine List.map_congr_left fun y _ => ?_
  show jobKey (if y.queue = x.queue ∧ y.seq = x.seq then x else y) = jobKey y
  split
  · rename_i h
    exact Prod.ext h.1.symm h.2.symm
  · rfl

/-- Between `a` and `b` nothing has changed on its way from the Awl unit, no job has come or gone, and each holds the same end
markers and has applied as many tiles or more. -/
structure JobsMove (a b : AwlSt) : Prop where
  out : b.out = a.out
  keys : b.jobs.map jobKey = a.jobs.map jobKey
  goesOn : ∀ q n j, jobAt a q n = some j → ∃ i, jobAt b q n = some i ∧ i.ended = j.ended ∧ j.applied ≤ i.applied

namespace JobsMove

theorem refl (a : AwlSt) : JobsMove a a := ⟨rfl, rfl, fun _ _ j hj => ⟨j, hj, rfl, le_rfl⟩⟩

theorem trans {a b c : AwlSt} (h : JobsMove a b) (k : JobsMove b c) : JobsMove a c := by
  refine ⟨k.out.trans h.out, k.keys.trans h.keys, fun q n j hj => ?_⟩
  obtain ⟨i, hi, hended, happlied⟩ := h.goesOn q n j hj
  obtain ⟨l, hl, lended, lapplied⟩ := k.goesOn q n i hi
  exact ⟨l, hl, lended.trans hended, happlied.trans lapplied⟩

theorem length {a b : AwlSt} (h : JobsMove a b) : b.jobs.length = a.jobs.length := by
  simpa using congrArg List.length h.keys

/-- The first job is still the first. -/
theorem head {a b : AwlSt} (h : JobsMove a b) {j : ScJob} {js : List ScJob} (ha : a.jobs = j :: js) :
    ∃ x xs, b.jobs = x :: xs ∧ jobKey x = jobKey j ∧ j.applied ≤ x.applied := by
  have hkeys := h.keys
  rw [ha, List.map_cons] at hkeys
  obtain ⟨x, xs, hb, hkey, -⟩ := List.map_eq_cons_iff.1 hkeys
  obtain ⟨i, hi, -, happlied⟩ := h.goesOn _ _ j (jobAt_head ha)
  obtain ⟨hqueue, hseq⟩ := Prod.mk.inj hkey
  rw [← hqueue, ← hseq, jobAt_head hb] at hi
  obtain rfl := Option.some.inj hi
  exact ⟨x, xs, hb, hkey, happlied⟩

/-- A job found under its own descriptor is replaced by one of that descriptor that has gone on. -/
theorem setJob {a : AwlSt} {j x : ScJob} (hj : jobAt a j.queue j.seq = some j) (hkey : jobKey x = jobKey j) (hended : x.ended = j.ended)
    (happlied : j.applied ≤ x.applied) : JobsMove a (setJob a x) := by
  refine ⟨rfl, setJob_keys a x, fun q n i hi => ?_⟩
  rw [jobAt_setJob, hi, Option.map_some]
  split
  · rename_i hsame
    obtain ⟨hqueue, hseq⟩ := Prod.mk.inj hkey
    obtain ⟨rfl, rfl⟩ := jobAt_key hi
    rw [hsame.1, hsame.2, hqueue, hseq, hj] at hi
    obtain rfl := Option.some.inj hi
    exact ⟨x, rfl, hended, happlied⟩
  · exact ⟨i, rfl, rfl, le_rfl⟩

end JobsMove

/-! ### Frames -/

theorem StoreFrame.awls {α : Type} {core : Flight → α} {s t : State} (h : StoreFrame core s t) : t.awls = s.awls := by rw [h.1]

/-- Between `s` and `t` Awl units have changed, and what stores of results change. -/
def AwlFrame (s t : State) : Prop := CoreFrame { s with awls := t.awls } t

theorem StoreFrame.awlFrame {s t : State} (h : CoreFrame s t) : AwlFrame s t := by
  unfold AwlFrame
  rw [h.awls]
  exact h

theorem modAwl_awlFrame (s : State) (y : Nat) (f : AwlSt → AwlSt) : AwlFrame s (s.modAwl y f) := StoreFrame.refl _

namespace AwlFrame

theorem refl (s : State) : AwlFrame s s := StoreFrame.refl s

theorem trans {s t u : State} (h : AwlFrame s t) (k : AwlFrame t u) : AwlFrame s u := by
  have hmid : CoreFrame { s with awls := u.awls } { t with awls := u.awls } := by
    obtain ⟨hrest, hflights⟩ := h
    refine ⟨?_, hflights⟩
    unfold DataFrame at hrest ⊢
    rw [hrest]
  exact StoreFrame.trans hmid k

theorem tacks {s t : State} (h : AwlFrame s t) : t.tacks = s.tacks := StoreFrame.tacks (s := { s with awls := t.awls }) h
theorem epc {s t : State} (h : AwlFrame s t) : t.epc = s.epc := StoreFrame.epc (s := { s with awls := t.awls }) h
theorem vcs {s t : State} (h : AwlFrame s t) : t.vcs = s.vcs := StoreFrame.vcs (s := { s with awls := t.awls }) h

theorem flightAt {s t : State} (h : AwlFrame s t) {q n : Nat} {f : Flight} (hf : s.flightAt q n = some f) :
    ∃ g, t.flightAt q n = some g := by
  have hcore := StoreFrame.flightAt h (num := Prod.fst) (fun _ => rfl) q n
  rw [show State.flightAt { s with awls := t.awls } q n = some f from hf] at hcore
  obtain ⟨g, hg, -⟩ := Option.map_eq_some_iff.1 hcore
  exact ⟨g, hg⟩

end AwlFrame

/-- The same, with the jobs of every Awl unit as `JobsMove` says. -/
structure HomesMove (s t : State) : Prop where
  frame : AwlFrame s t
  jobs : ∀ y, JobsMove (s.awl y) (t.awl y)

namespace HomesMove

theorem refl (s : State) : HomesMove s s := ⟨.refl s, fun y => .refl (s.awl y)⟩

theorem trans {s t u : State} (h : HomesMove s t) (k : HomesMove t u) : HomesMove s u :=
  ⟨h.frame.trans k.frame, fun y => (h.jobs y).trans (k.jobs y)⟩

/-- What every step of a fold keeps, its end keeps. -/
theorem foldl {β : Type} {f : State → β → State} (hf : ∀ s x, HomesMove s (f s x)) :
    ∀ (l : List β) (s : State), HomesMove s (l.foldl f s)
  | [], s => refl s
  | x :: l, s => (hf s x).trans (foldl hf l (f s x))

theorem modAwl {s : State} {h : Nat} {f : AwlSt → AwlSt} (hf : JobsMove (s.awl h) (f (s.awl h))) : HomesMove s (s.modAwl h f) := by
  refine ⟨modAwl_awlFrame s h f, fun y => ?_⟩
  rw [State.modAwl_awl]
  split
  · rename_i hy
    exact hy ▸ hf
  · exact .refl _

theorem awlOut {s t : State} (h : HomesMove s t) (y z : Nat) : awlOut t y z = awlOut s y z :=
  congrArg (fun o => mget (fun _ => ([] : List ScMsg)) o z) (h.jobs y).out

end HomesMove

theorem StoreFrame.homesMove {s t : State} (h : CoreFrame s t) : HomesMove s t :=
  ⟨h.awlFrame, fun y => by rw [State.awl, State.awl, h.awls]; exact .refl _⟩

end Sys2Proof.Machine
end

section
/-! PROOFS. A contribution applied at its home (R173, R176, Table 08.2). -/

namespace Sys2Proof.Machine

/-! ### Stored at once -/

/-- A state with other Awl units. -/
def withAwls (w : List (Nat × AwlSt)) (s : State) : State := { s with awls := w }

/-- A word of owner entry `e` written. -/
def entryWord (e : Nat) (s : State) (x : Nat × Nat) : State := s.setTw 7 e x.2 x.1

/-- The owner entries a descriptor's accesses see do not depend on the Awl units. -/
theorem ownView_withAwls (s : State) (f : Flight) (w : List (Nat × AwlSt)) : ownView (withAwls w s) f = withAwls w (ownView s f) :=
  List.foldl_hom (withAwls w) fun _ o =>
    List.foldl_hom (g₁ := entryWord o.entry) (g₂ := entryWord o.entry) (withAwls w) fun _ _ => rfl

/-- Table 08.2: a WRITE stored at once, as it waits for no write-back. -/
abbrev StoredAtOnce (s : State) (f : Flight) (m : ScMsg) : Prop :=
  scComb f = 0 ∧
    writeWaits (viewAt s f (dstMark m.tile)) (s.qTen m.queue) m.vc (recOf f.recs 4) (unflat (rSizes (recOf f.recs 4)) m.dst) = false

theorem storedAtOnce_dropMsg (s : State) (y h : Nat) (x : ScMsg) (f : Flight) (m : ScMsg) :
    StoredAtOnce (dropMsg s y h x) f m ↔ StoredAtOnce s f m := by
  have hview : viewAt (dropMsg s y h x) f (dstMark m.tile) = withAwls (dropMsg s y h x).awls (viewAt s f (dstMark m.tile)) :=
    ownView_withAwls s _ _
  unfold StoredAtOnce
  rw [hview]
  exact Iff.rfl

theorem applyMsg_stored {s : State} {h : Nat} {m : ScMsg} {f : Flight} (hf : s.flightAt m.queue m.seq = some f)
    (hnow : StoredAtOnce s f m) : CoreFrame s (applyMsg s h m) := by
  rw [applyMsg, hf]
  dsimp only
  rw [if_pos hnow]
  exact storePuts_coreFrame (tile_notes flightCore_ignoresFaults _ _ _ _ _) s _ _ _ _ _

/-! ### Entered in the home's table -/

/-- What the home's table holds of the contribution's element after it (R173, Table 08.2). -/
def enteredValue (d : LastRec) (comb : Nat) (j : ScJob) (m : ScMsg) : List Num :=
  combIn comb ((j.table.find? (sameDst d m)).map (·.value)) m.value

/-- The job with a contribution combined into its table (R173, Table 08.2). -/
def entered (d : LastRec) (comb : Nat) (j : ScJob) (m : ScMsg) : ScJob :=
  { j with table := match j.table.find? (sameDst d m) with
      | some o => j.table.map fun c => if c = o then { c with value := enteredValue d comb j m } else c
      | none => j.table ++ [{ dst := m.dst, vc := m.vc, tile := m.tile, value := enteredValue d comb j m }] }

theorem applyMsg_entered {s : State} {h : Nat} {m : ScMsg} {f : Flight} {j : ScJob} (hf : s.flightAt m.queue m.seq = some f)
    (hlater : ¬ StoredAtOnce s f m) (hj : jobOf (s.awl h) m = some j) :
    applyMsg s h m = s.modAwl h fun a => setJob a (entered (recOf f.recs 4) (scComb f) j m) := by
  rw [applyMsg, hf]
  dsimp only
  rw [if_neg hlater, hj]
  rfl

theorem applyMsg_unserved {s : State} {h : Nat} {m : ScMsg} {f : Flight} (hf : s.flightAt m.queue m.seq = some f)
    (hlater : ¬ StoredAtOnce s f m) (hj : jobOf (s.awl h) m = none) : applyMsg s h m = s := by
  rw [applyMsg, hf]
  dsimp only
  rw [if_neg hlater, hj]

theorem applyMsg_gone {s : State} {h : Nat} {m : ScMsg} (hf : s.flightAt m.queue m.seq = none) : applyMsg s h m = s := by
  rw [applyMsg, hf]

/-- R173: the table then has an entry of the contribution's element, with the combined value. -/
theorem entered_entry (d : LastRec) (comb : Nat) (j : ScJob) (m : ScMsg) :
    ∃ c, c ∈ (entered d comb j m).table ∧ sameDst d m c = true ∧ c.value = enteredValue d comb j m := by
  unfold entered
  cases hold : j.table.find? (sameDst d m) with
  | none => exact ⟨_, List.mem_append_right _ (List.mem_singleton_self _), by simp [sameDst], rfl⟩
  | some o =>
    have hmem := List.mem_of_find?_eq_some hold
    have hsame : sameDst d m o = true := List.find?_some hold
    exact ⟨{ o with value := enteredValue d comb j m }, List.mem_map.2 ⟨o, hmem, if_pos rfl⟩, hsame, rfl⟩

/-- A contribution applied moves no job. -/
theorem applyMsg_moves (s : State) (h : Nat) (m : ScMsg) : HomesMove s (applyMsg s h m) := by
  cases hf : s.flightAt m.queue m.seq with
  | none => rw [applyMsg_gone hf]; exact .refl s
  | some f =>
    by_cases hnow : StoredAtOnce s f m
    · exact (applyMsg_stored hf hnow).homesMove
    · cases hj : jobOf (s.awl h) m with
      | none => rw [applyMsg_unserved hf hnow hj]; exact .refl s
      | some j =>
        obtain ⟨hqueue, hseq⟩ := jobAt_key hj
        rw [applyMsg_entered hf hnow hj]
        exact .modAwl (.setJob (j := j) (by rw [hqueue, hseq]; exact hj) rfl rfl le_rfl)

end Sys2Proof.Machine
end

section
/-! PROOFS. The job served moves on (R172). -/

namespace Sys2Proof.Machine

/-- The job without the contributions it holds of its next tile. -/
def tileTaken (j : ScJob) : ScJob := { j with held := j.held.filter fun m => m.tile != j.applied }

/-- The job gone past its next tile. -/
def onePassed (j : ScJob) : ScJob := { j with applied := j.applied + 1 }

/-- What is held of the next tile of the job served, `j`, applied. -/
def heldApplied (s : State) (h : Nat) (j : ScJob) : State :=
  (j.held.filter fun m => m.tile == j.applied).foldl (fun s m => applyMsg s h m)
    (s.modAwl h fun a => setJob a (tileTaken j))

/-- The job served, `x`, goes past a tile. -/
def tilePassed (s : State) (h : Nat) (x : ScJob) : State := s.modAwl h fun a => setJob a (onePassed x)

section Served

variable {s : State} {h k : Nat} {j x : ScJob} {js xs : List ScJob}

theorem pump_idle (hjobs : (s.awl h).jobs = []) : pump k s h = s := by
  cases k with
  | zero => rfl
  | succ k => rw [pump, hjobs]

/-- R172: what is held of the next tile is applied; with that tile's end marker the job goes past it, and so on. -/
theorem pump_serves (hjobs : (s.awl h).jobs = j :: js) :
    pump (k + 1) s h = if j.ended.contains j.applied then
        match ((heldApplied s h j).awl h).jobs with
        | [] => heldApplied s h j
        | x :: _ => pump k (tilePassed (heldApplied s h j) h x) h
      else heldApplied s h j := by
  rw [pump, hjobs]
  rfl

theorem pump_stays (hjobs : (s.awl h).jobs = j :: js) (hopen : j.ended.contains j.applied = false) :
    pump (k + 1) s h = heldApplied s h j := by
  rw [pump_serves hjobs, if_neg (Bool.eq_false_iff.1 hopen)]

theorem pump_passes (hjobs : (s.awl h).jobs = j :: js) (hended : j.ended.contains j.applied = true)
    (hx : ((heldApplied s h j).awl h).jobs = x :: xs) : pump (k + 1) s h = pump k (tilePassed (heldApplied s h j) h x) h := by
  rw [pump_serves hjobs, if_pos hended, hx]

theorem heldApplied_moves (hjobs : (s.awl h).jobs = j :: js) : HomesMove s (heldApplied s h j) :=
  (HomesMove.modAwl (.setJob (x := tileTaken j) (jobAt_head hjobs) rfl rfl le_rfl)).trans (.foldl (fun u m => applyMsg_moves u h m) _ _)

theorem tilePassed_moves (hx : (s.awl h).jobs = x :: xs) : HomesMove s (tilePassed s h x) :=
  .modAwl (.setJob (x := onePassed x) (jobAt_head hx) rfl rfl (Nat.le_succ _))

end Served

/-- R172: no job of a home comes or goes as the home goes on, and none goes back. -/
theorem pump_moves (k : Nat) (s : State) (h : Nat) : HomesMove s (pump k s h) := by
  induction k generalizing s with
  | zero => exact .refl s
  | succ k ih =>
    cases hjobs : (s.awl h).jobs with
    | nil => rw [pump_idle hjobs]; exact .refl s
    | cons j js =>
      have hheld := heldApplied_moves hjobs
      cases hended : j.ended.contains j.applied with
      | false => rw [pump_stays hjobs hended]; exact hheld
      | true =>
        obtain ⟨x, xs, hx, -⟩ := (hheld.jobs h).head hjobs
        rw [pump_passes hjobs hended hx]
        exact hheld.trans ((tilePassed_moves hx).trans (ih _))

/-- R172: the job served goes past its tile once it holds that tile's end marker. -/
theorem pump_advances {s : State} {h : Nat} {j : ScJob} {js : List ScJob} (k : Nat) (hjobs : (s.awl h).jobs = j :: js)
    (hended : j.ended.contains j.applied = true) :
    ∃ i, jobAt ((pump (k + 1) s h).awl h) j.queue j.seq = some i ∧ j.applied < i.applied := by
  obtain ⟨x, xs, hx, hkey, happlied⟩ := ((heldApplied_moves hjobs).jobs h).head hjobs
  obtain ⟨hqueue, hseq⟩ := Prod.mk.inj hkey
  have hpassed : jobAt ((tilePassed (heldApplied s h j) h x).awl h) x.queue x.seq = some (onePassed x) := by
    rw [tilePassed, State.modAwl_awl, if_pos rfl]
    exact jobAt_setJob_self (x := onePassed x) (j := x) (jobAt_head hx :)
  obtain ⟨i, hi, -, hmore⟩ := ((pump_moves k (tilePassed (heldApplied s h j) h x) h).jobs h).goesOn _ _ _ hpassed
  rw [pump_passes hjobs hended hx, ← hqueue, ← hseq]
  exact ⟨i, hi, Nat.lt_of_le_of_lt happlied hmore⟩

end Sys2Proof.Machine
end

section
/-! PROOFS. CONTRIBUTION, END_MARKER and TILE_RESUME (R172, R173, R175). -/

namespace Sys2Proof.Machine

/-- The job `j` of a home with the end marker of tile `k` (R172). -/
def withMarker (j : ScJob) (k : Nat) : ScJob := { j with ended := k :: j.ended }

section Message

variable {s : State} {y h : Fin 8} {m : ScMsg} {j : ScJob} (hruns : s.runs = true) (hnext : nextMsg s y h = some m)
include hruns hnext

/-! ### What the next message does -/

theorem exec_contribution_refused (hmark : m.marker = false) (hfull : accepts (s.awl h) m = false) :
    exec (.contribution y h) s =
      .next (s.modAwl y fun a => { a with suspended := a.suspended ++ [{ queue := m.queue, seq := m.seq, no := m.tile }] }) := by
  show execContribution y h s = _
  rw [execContribution, hruns, hnext]
  dsimp only
  rw [if_neg (by decide), if_neg (by simp [hmark]), if_pos (by simp [hfull])]

theorem exec_contribution_accepted (hmark : m.marker = false) (hjob : jobOf (s.awl h) m = some j) (hroom : accepts (s.awl h) m = true) :
    exec (.contribution y h) s = .next (if atHead (s.awl h) j m then applyMsg (dropMsg s y h m) h m else
      (dropMsg s y h m).modAwl h fun a => setJob a { j with held := j.held ++ [m] }) := by
  show execContribution y h s = _
  rw [execContribution, hruns, hnext]
  dsimp only
  rw [if_neg (by decide), if_neg (by simp [hmark]), if_neg (by simp [hroom]), jobOf_dropMsg, hjob]
  dsimp only
  rw [atHead_dropMsg]
  split <;> rfl

theorem exec_endMarker (hmark : m.marker = true) (hjob : jobOf (s.awl h) m = some j) :
    exec (.endMarker y h) s =
      .next (pump (j.ended.length + 2) ((dropMsg s y h m).modAwl h fun a => setJob a (withMarker j m.tile)) h) := by
  show execEndMarker y h s = _
  rw [execEndMarker, hruns, hnext]
  dsimp only
  rw [if_neg (by decide), if_neg (by simp [hmark]), jobOf_dropMsg, hjob]
  rfl

end Message

/-! ### A contribution held, and one applied -/

section Taken

variable {s : State} {y h : Nat} {m : ScMsg} {j x : ScJob}

/-- The job of a message, replaced as the message is taken off its way. -/
theorem jobOf_taken (hjob : jobOf (s.awl h) m = some j) (hkey : jobKey x = jobKey j) :
    jobOf (((dropMsg s y h m).modAwl h fun a => setJob a x).awl h) m = some x := by
  obtain ⟨hqueue, hseq⟩ := Prod.mk.inj hkey
  obtain ⟨jqueue, jseq⟩ := jobAt_key hjob
  have hat : jobAt ((dropMsg s y h m).awl h) x.queue x.seq = some j := by
    rw [hqueue, hseq, jqueue, jseq]
    exact (jobOf_dropMsg s y h m h m).trans hjob
  rw [State.modAwl_awl, if_pos rfl, jobOf_eq, ← jqueue, ← jseq, ← hqueue, ← hseq]
  exact jobAt_setJob_self hat

theorem awlOut_modAwl_setJob (s : State) (h : Nat) (x : ScJob) (y z : Nat) :
    awlOut (s.modAwl h fun a => setJob a x) y z = awlOut s y z :=
  awlOut_modAwl s h (f := fun a => setJob a x) (fun _ => rfl) y z

/-- R173, Table 08.2: a contribution of the tile at the head, combined into the home's table or stored. -/
theorem applyMsg_outcome (hjob : jobOf (s.awl h) m = some j) :
    ∃ i, jobOf ((applyMsg (dropMsg s y h m) h m).awl h) m = some i ∧
      ∀ f, s.flightAt m.queue m.seq = some f →
        (StoredAtOnce s f m → i = j) ∧
        (¬ StoredAtOnce s f m →
          (applyMsg (dropMsg s y h m) h m).mem = s.mem ∧ i = entered (recOf f.recs 4) (scComb f) j m) := by
  have hjob' : jobOf ((dropMsg s y h m).awl h) m = some j := (jobOf_dropMsg s y h m h m).trans hjob
  obtain ⟨i, hi, -⟩ := ((applyMsg_moves (dropMsg s y h m) h m).jobs h).goesOn _ _ _ hjob'
  refine ⟨i, hi, fun f hf => ⟨fun hnow => ?_, fun hlater => ?_⟩⟩
  · have hstored := applyMsg_stored (h := h) (s := dropMsg s y h m) hf ((storedAtOnce_dropMsg s y h m f m).2 hnow)
    rw [State.awl, hstored.awls] at hi
    exact Option.some.inj (hi.symm.trans hjob')
  · have heq := applyMsg_entered (s := dropMsg s y h m) hf (mt (storedAtOnce_dropMsg s y h m f m).1 hlater) hjob'
    rw [heq] at hi ⊢
    exact ⟨rfl, Option.some.inj (hi.symm.trans (jobOf_taken hjob rfl))⟩

/-- R172: after an end marker the home holds it and has not gone back; with the marker of the tile at the head it has gone on. -/
theorem endMarker_outcome (k : Nat) (hjob : jobOf (s.awl h) m = some j) :
    let t := pump (k + 1) ((dropMsg s y h m).modAwl h fun a => setJob a (withMarker j m.tile)) h
    awlOut t y h = (awlOut s y h).erase m ∧ t.tacks = s.tacks ∧
      ∃ i, jobOf (t.awl h) m = some i ∧ i.ended.contains m.tile = true ∧ j.applied ≤ i.applied ∧
        (atHead (s.awl h) j m = true → j.applied < i.applied) := by
  intro t
  have hmoves := pump_moves (k + 1) ((dropMsg s y h m).modAwl h fun a => setJob a (withMarker j m.tile)) h
  have hmarked := jobOf_taken (x := withMarker j m.tile) (y := y) hjob rfl
  obtain ⟨i, hi, hended, happlied⟩ := (hmoves.jobs h).goesOn _ _ _ hmarked
  refine ⟨?_, hmoves.frame.tacks, i, hi, ?_, happlied, fun hhead => ?_⟩
  · rw [hmoves.awlOut, awlOut_modAwl_setJob, awlOut_dropMsg]
  · rw [hended]
    simp [withMarker]
  · obtain ⟨hfirst, htile⟩ : (s.awl h).jobs.head? = some j ∧ m.tile = j.applied := by simpa [atHead] using hhead
    obtain ⟨js, hjobs⟩ := List.head?_eq_some_iff.1 hfirst
    obtain ⟨xs, hserved⟩ : ∃ xs, (((dropMsg s y h m).modAwl h fun a => setJob a (withMarker j m.tile)).awl h).jobs =
        withMarker j m.tile :: xs := by
      rw [State.modAwl_awl, if_pos rfl, setJob, dropMsg_jobs, hjobs, List.map_cons, if_pos ⟨rfl, rfl⟩]
      exact ⟨_, rfl⟩
    obtain ⟨l, hl, hmore⟩ := pump_advances k hserved (by simp [withMarker, htile])
    obtain ⟨jqueue, jseq⟩ := jobAt_key hjob
    have hsame : jobAt (t.awl h) m.queue m.seq = some l := by
      rw [← jqueue, ← jseq]
      exact hl
    obtain rfl := Option.some.inj (hi.symm.trans hsame)
    exact hmore

end Taken

/-! ### A suspended tile -/

/-- R175: every home would accept the next message of the tile. -/
def resumable (s : State) (y : Nat) (x : Tile) : Bool :=
  (List.range 8).all fun h => match (awlOut s y h).find? fun m => ofTile m x with
    | none => true
    | some m => m.marker || accepts (s.awl h) m

theorem resumable_of_accepted {s : State} {y : Nat} {x : Tile}
    (h : ∀ z m, z < 8 → (awlOut s y z).find? (fun m => ofTile m x) = some m → m.marker = true ∨ accepts (s.awl z) m = true) :
    resumable s y x = true := by
  unfold resumable
  rw [List.all_eq_true]
  intro z hz
  split
  · rfl
  · rename_i m hm
    exact Bool.or_eq_true_iff.2 (h z m (List.mem_range.1 hz) hm)

theorem exec_tileResume_first {s : State} {y : Fin 8} {x : Tile} {ts : List Tile} (hruns : s.runs = true)
    (hsuspended : (s.awl y).suspended = x :: ts) (hfits : resumable s y x = true) :
    exec (.tileResume y) s = .next (s.modAwl y fun a => { a with suspended := a.suspended.erase x }) := by
  have hfirst : (s.awl y).suspended.find? (resumable s y) = some x := by
    rw [hsuspended]
    exact List.find?_cons_of_pos hfits
  show execTileResume y s = _
  rw [execTileResume, hruns, if_neg (by decide)]
  change (match (s.awl y).suspended.find? (resumable s y) with | none => _ | some t => _) = _
  rw [hfirst]

end Sys2Proof.Machine
end

section
/-! PROOFS. SCATTER_WRITEBACK (R173, R176). -/

namespace Sys2Proof.Machine

theorem dropLines_coreFrame (s : State) (q n : Nat) (ks : List UnitKey) : CoreFrame s (dropLines s q n ks) :=
  modFlight_storeFrame s q n (f := fun f => { f with lines := ks.foldl dropLine f.lines }) fun _ => rfl

/-- R173, R176: a write-back reads and stores for its descriptor. -/
theorem writeBack_coreFrame (s : State) (h q : Nat) (f : Flight) (j : ScJob) : CoreFrame s (writeBack s h q f j) := by
  have ha : Notes flightCore (awlAgent q f.seq h) := tile_notes flightCore_ignoresFaults q f.seq _ _ _
  unfold writeBack
  extract_lets t d ag so one locs r s1 old new s2 firsts puts
  have h1 : CoreFrame s s1 := readUnits_coreFrame ha s q f.seq _
  have h2 : CoreFrame s1 s2 := .ite (flightOnce_storeFrame flightCore_ignoresFaults s1 q f.seq _ _ _ _) (.refl s1)
  have h3 : CoreFrame s2 (storePuts s2 ag t q f.seq (80 + h) puts) := storePuts_coreFrame ha s2 t q f.seq _ puts
  exact h1.trans (h2.trans (h3.trans (dropLines_coreFrame _ q f.seq _)))

/-- Home `h` without job `j`. -/
def jobLeft (s : State) (h : Nat) (j : ScJob) : State := s.modAwl h fun a => { a with jobs := a.jobs.erase j }

/-- Home `h` after job `j` has left it and it serves the next. -/
def nextServed (s : State) (h : Nat) (j : ScJob) : State :=
  match ((jobLeft s h j).awl h).jobs with
  | [] => jobLeft s h j
  | k :: _ => pump (k.ended.length + 1) (jobLeft s h j) h

/-- A descriptor whose work is done. -/
def workDone (f : Flight) : Flight := { f with complete := true }

/-- A home still has a job of `j`'s descriptor. -/
def stillServed (s : State) (j : ScJob) : Bool :=
  (List.range 8).any fun y => (s.awl y).jobs.any fun x => x.queue == j.queue && x.seq == j.seq

theorem endJob_eq (s : State) (h : Nat) (j : ScJob) :
    endJob s h j = if stillServed (nextServed s h j) j then nextServed s h j
      else (nextServed s h j).modFlight j.queue j.seq workDone := rfl

theorem nextServed_moves (s : State) (h : Nat) (j : ScJob) : HomesMove (jobLeft s h j) (nextServed s h j) := by
  unfold nextServed
  split
  · exact .refl _
  · exact pump_moves _ _ h

theorem endJob_awlFrame (s : State) (h : Nat) (j : ScJob) : AwlFrame s (endJob s h j) := by
  have hserved : AwlFrame s (nextServed s h j) := (modAwl_awlFrame s h _).trans (nextServed_moves s h j).frame
  rw [endJob_eq]
  split
  · exact hserved
  · exact hserved.trans (modFlight_storeFrame (core := flightCore) (f := workDone) _ _ _ fun _ => rfl).awlFrame

theorem endJob_awls (s : State) (h : Nat) (j : ScJob) : (endJob s h j).awls = (nextServed s h j).awls := by
  rw [endJob_eq]
  split <;> rfl

section Served

variable {s : State} {h : Nat} {j : ScJob} {js : List ScJob} (hjobs : (s.awl h).jobs = j :: js)
include hjobs

theorem jobLeft_jobs : ((jobLeft s h j).awl h).jobs = js := by
  rw [jobLeft, State.modAwl_awl, if_pos rfl, hjobs]
  exact List.erase_cons_head j js

theorem endJob_jobs_length : ((endJob s h j).awl h).jobs.length = js.length := by
  rw [State.awl, endJob_awls]
  exact ((nextServed_moves s h j).jobs h).length.trans (congrArg List.length (jobLeft_jobs hjobs))

/-- A home whose last job leaves it serves none: nothing else moves. -/
theorem nextServed_last (hlast : js = []) : nextServed s h j = jobLeft s h j := by
  rw [nextServed, jobLeft_jobs hjobs, hlast]

theorem endJob_last_mem (hlast : js = []) : (endJob s h j).mem = s.mem := by
  rw [endJob_eq, nextServed_last hjobs hlast]
  split <;> rfl

theorem stillServed_last (hlast : js = [])
    (hothers : ∀ z, z < 8 → z ≠ h → (s.awl z).jobs.any (fun x => x.queue == j.queue && x.seq == j.seq) = false) :
    stillServed (jobLeft s h j) j = false := by
  rw [stillServed, List.any_eq_false]
  intro z hz
  rw [Bool.not_eq_true]
  by_cases hzh : z = h
  · rw [hzh, jobLeft_jobs hjobs, hlast]
    rfl
  · rw [jobLeft, State.modAwl_awl, if_neg (Ne.symm hzh)]
    exact hothers z (List.mem_range.1 hz) hzh

/-- R173: with its last job gone a SCATTER is complete. -/
theorem endJob_completes (hlast : js = [])
    (hothers : ∀ z, z < 8 → z ≠ h → (s.awl z).jobs.any (fun x => x.queue == j.queue && x.seq == j.seq) = false) {g : Flight}
    (hg : (endJob s h j).flightAt j.queue j.seq = some g) : g.complete = true := by
  rw [endJob_eq, nextServed_last hjobs hlast, stillServed_last hjobs hlast hothers, if_neg (by decide),
    State.flightAt_modFlight (g := workDone) _ _ _ fun _ => rfl] at hg
  obtain ⟨f, -, rfl⟩ := Option.map_eq_some_iff.1 hg
  rfl

end Served

section Writeback

variable {s : State} {h : Fin 8} {j : ScJob} {js : List ScJob} {f : Flight} (hruns : s.runs = true) (hjobs : (s.awl h).jobs = j :: js)
  (hat : s.flightAt j.queue j.seq = some f) (happlied : f.tiles ≤ j.applied)
include hruns hjobs hat happlied

theorem exec_scatterWriteback_writes (hhere : linesHere f (wbNeeds s j.queue f (wbKept s j.queue f j)) = true) :
    exec (.scatterWriteback h) s = .next (endJob (writeBack s h j.queue f (wbKept s j.queue f j)) h j) := by
  show execScatterWriteback h s = _
  rw [execScatterWriteback, hruns, hjobs]
  dsimp only
  rw [hat]
  dsimp only
  rw [if_neg (by decide), if_neg (Nat.not_lt.2 happlied), if_neg (by simp [hhere])]

theorem exec_scatterWriteback_asks (haway : linesHere f (wbNeeds s j.queue f (wbKept s j.queue f j)) = false) :
    exec (.scatterWriteback h) s =
      .next (formReads s j.queue j.seq (tagOf f.words) (wbNeeds s j.queue f (wbKept s j.queue f j))) := by
  show execScatterWriteback h s = _
  rw [execScatterWriteback, hruns, hjobs]
  dsimp only
  rw [hat]
  dsimp only
  rw [if_neg (by decide), if_neg (Nat.not_lt.2 happlied), if_pos (by simp [haway])]

end Writeback

/-! ### O42 -/

/-- R172, R173, R175: what an accepted contribution does to the job of its home. -/
theorem contribution_outcome {s : State} {y h : Fin 8} {m : ScMsg} {j : ScJob} (hruns : s.runs = true) (hnext : nextMsg s y h = some m)
    (hmark : m.marker = false) (hjob : jobOf (s.awl h) m = some j) (hroom : accepts (s.awl h) m = true) :
    ∃ t i, exec (.contribution y h) s = .next t ∧ awlOut t y h = (awlOut s y h).erase m ∧ t.tacks = s.tacks ∧ t.epc = s.epc ∧
      jobOf (t.awl h) m = some i ∧
      (atHead (s.awl h) j m = false → i = { j with held := j.held ++ [m] } ∧ t.mem = s.mem) ∧
      ∀ f, atHead (s.awl h) j m = true → s.flightAt m.queue m.seq = some f →
        (StoredAtOnce s f m → i = j) ∧
        (¬ StoredAtOnce s f m → t.mem = s.mem ∧ i = entered (recOf f.recs 4) (scComb f) j m) := by
  have hexec := exec_contribution_accepted hruns hnext hmark hjob hroom
  cases hhead : atHead (s.awl h) j m with
  | false =>
    rw [hhead, if_neg (by decide)] at hexec
    refine ⟨_, _, hexec, ?_, rfl, rfl, jobOf_taken hjob rfl, fun _ => ⟨rfl, rfl⟩, fun f hh => absurd hh (by decide)⟩
    rw [awlOut_modAwl_setJob, awlOut_dropMsg]
  | true =>
    rw [hhead, if_pos rfl] at hexec
    have hmoves := applyMsg_moves (dropMsg s y h m) h m
    obtain ⟨i, hi, happly⟩ := applyMsg_outcome (y := y) hjob
    exact ⟨_, i, hexec, (hmoves.awlOut y h).trans (awlOut_dropMsg s y h m), hmoves.frame.tacks, hmoves.frame.epc, hi,
      fun hh => absurd hh (by decide), fun f _ hf => happly f hf⟩

/-- Settles O42: a message moves the jobs of its home as `applyMsg` and `pump` say; a write-back keeps what `AwlFrame` says. -/
theorem scatterContributionsReachHome : Obligations.ScatterContributionsReachHome := by
  refine ⟨fun s y h hruns => ⟨fun m j hnext hmark hjob hroom => ?_, fun m hnext hmark hfull => ?_, fun m j hnext hmark hjob => ?_,
    fun x ts hsuspended haccepted => ?_⟩, fun s h j js f hruns hjobs hat happlied => ?_⟩
  · obtain ⟨t, i, hexec, hout, htacks, hepc, hi, hheld, happly⟩ := contribution_outcome hruns hnext hmark hjob hroom
    refine ⟨t, i, hexec, hout, htacks, hepc, hi, hheld, fun f hhead hf => ?_⟩
    obtain ⟨hstored, hentered⟩ := happly f hhead hf
    refine ⟨fun hwaits => ?_, fun hwrite hnow => hstored ⟨hwrite, hnow⟩⟩
    obtain ⟨hmem, rfl⟩ := hentered fun hnow => hwaits.elim (· hnow.1) fun hw => Bool.false_ne_true (hnow.2.symm.trans hw)
    exact ⟨hmem, rfl, entered_entry _ _ j m⟩
  · refine ⟨_, exec_contribution_refused hruns hnext hmark hfull, ?_, rfl, fun z => ?_⟩
    · rw [State.modAwl_awl, if_pos rfl]
    · rw [awlOut_modAwl]
      exact fun _ => rfl
  · obtain ⟨hout, htacks, i, hi, hended, hle, hlt⟩ := endMarker_outcome (y := y) (j.ended.length + 1) hjob
    exact ⟨_, i, exec_endMarker hruns hnext hmark hjob, hout, hi, hended, hle, hlt, htacks⟩
  · refine ⟨_, exec_tileResume_first hruns hsuspended (resumable_of_accepted haccepted), ?_, rfl, fun z hz => ?_⟩
    · rw [State.modAwl_awl, if_pos rfl, hsuspended]
      exact List.erase_cons_head x ts
    · rw [State.modAwl_awl, if_neg (Ne.symm hz)]
  · intro w
    refine ⟨fun hhere => ?_, fun haway => ?_⟩
    · have hwritten := writeBack_coreFrame s h j.queue f w
      have hawl : ∀ z, (writeBack s h j.queue f w).awl z = s.awl z := fun z => by rw [State.awl, State.awl, hwritten.awls]
      have hjobs' : ((writeBack s h j.queue f w).awl h).jobs = j :: js := by rw [hawl, hjobs]
      have hframe : AwlFrame s (endJob (writeBack s h j.queue f w) h j) := hwritten.awlFrame.trans (endJob_awlFrame _ h j)
      obtain ⟨g, hg⟩ := hframe.flightAt hat
      refine ⟨_, g, exec_scatterWriteback_writes hruns hjobs hat happlied hhere, endJob_last_mem hjobs', fun hlive => ?_,
        endJob_jobs_length hjobs', hg, fun hlast hothers => endJob_completes hjobs' hlast (fun z => ?_) hg, hframe.tacks, hframe.vcs⟩
      · exact if_neg (by simp [hlive])
      · rw [hawl]
        exact hothers z
    · have hasks := formReads_engineFrame s j.queue j.seq (tagOf f.words) (wbNeeds s j.queue f w)
      exact ⟨_, exec_scatterWriteback_asks hruns hjobs hat happlied haway, by rw [hasks], hasks.mem, hasks.tacks, by rw [hasks]⟩

end Sys2Proof.Machine
end

section
/-! PROOFS. What leaves the records of the Cobblers as they are: every operation but an instruction of a Cobbler, an access one of
them makes, the end of a program, a launch, abandonment, CLEAR, a holder's change and reset. -/

namespace Sys2Proof.Machine

/-- A command that answers a state leaves the records of the Cobblers as they are. -/
def KeepsCbls (s : State) (o : Out) : Prop := ∀ t, o = .next t → t.cbls = s.cbls

@[simp] theorem keepsCbls_next {s t : State} : KeepsCbls s (.next t) ↔ t.cbls = s.cbls :=
  ⟨fun h => h t rfl, fun h _ ht => Host.Outcome.next.inj ht ▸ h⟩

@[simp] theorem keepsCbls_fault (s : State) (r : Fault) : KeepsCbls s (.fault r) := fun _ h => nomatch h

@[simp] theorem keepsCbls_ite {s : State} {c : Prop} [Decidable c] {o p : Out} :
    KeepsCbls s (if c then o else p) ↔ (c → KeepsCbls s o) ∧ (¬c → KeepsCbls s p) := by
  split <;> simp [*]

@[simp] theorem cbls_ite (c : Prop) [Decidable c] (s t : State) :
    (if c then s else t).cbls = if c then s.cbls else t.cbls := apply_ite _ _ _ _

@[simp] theorem foldl_cbls {α : Type} {f : State → α → State} (hf : ∀ s x, (f s x).cbls = s.cbls)
    (l : List α) (s : State) : (l.foldl f s).cbls = s.cbls := foldl_keeps_view State.cbls hf l s

/-- The same records of Cobblers stand in both states: the relation to argue by where the bare equation would have its sides
computed. -/
def SameCbls (s t : State) : Prop := t.cbls = s.cbls

theorem SameCbls.refl (s : State) : SameCbls s s := rfl

theorem SameCbls.trans {s t u : State} (h : SameCbls s t) (h' : SameCbls t u) : SameCbls s u := Eq.trans h' h

theorem SameCbls.ite {s t u : State} {c : Prop} [Decidable c] (ht : SameCbls s t) (hu : SameCbls s u) :
    SameCbls s (if c then t else u) := by
  split <;> assumption

theorem foldl_sameCbls {α : Type} {f : State → α → State} (hf : ∀ s x, SameCbls s (f s x)) (l : List α) (s : State) :
    SameCbls s (l.foldl f s) := foldl_cbls hf l s

/-- The requester is a Cobbler's program. -/
def Agent.isCob (a : Agent) : Bool := match a.kind with
  | .cob _ _ => true
  | _ => false

@[simp] theorem isCob_fetch (q tag c cls unit tile : Nat) : Agent.isCob ⟨.fetch q tag c, cls, unit, tile⟩ = false := (rfl)
@[simp] theorem evAgent_isCob (v : Nat) : (evAgent v).isCob = false := (rfl)
@[simp] theorem twinAgent_isCob : twinAgent.isCob = false := (rfl)
@[simp] theorem scrubAgent_isCob (u : Nat) : (scrubAgent u).isCob = false := (rfl)
@[simp] theorem partnerAgent_isCob (p t : Nat) : (partnerAgent p t).isCob = false := (rfl)
@[simp] theorem strAgent_isCob (s : State) (c : Nat) : (strAgent s c).isCob = false := (rfl)
@[simp] theorem fetchAgent_isCob (q : Nat) (f : Fetch) : (fetchAgent q f).isCob = false := (rfl)
@[simp] theorem writerAgent_isCob : writerAgent.isCob = false := (rfl)

/-- The record of a requester that is no Cobbler's program. -/
theorem notes_of_isCob {a : Agent} (ha : a.isCob = false) : Notes (fun _ => ()) a := by
  intro s u c d
  have hcbl : ∀ (o : List Nat) (r : FaultRec), StoreFrame (fun _ => ()) s (recordFault { s with once := o } r) := fun o r =>
    .trans (DataFrame.storeFrame (t := { s with once := o }) rfl) (recordFault_noteFrame _ r).storeFrame
  unfold agentOnce
  split
  · exact flightOnce_storeFrame (fun _ _ _ => rfl) s _ _ _ _ _ _
  · rename_i h
    dsimp only at h
    rw [Agent.isCob, h] at ha
    cases ha
  · exact .ite (.refl s) (hcbl _ _)
  · exact .ite (.refl s) (hcbl _ _)
  · exact .ite (.refl s) ((hcbl _ _).trans (chainFault_storeFrame _ _ _))
  all_goals exact (recordFault_noteFrame s _).storeFrame

@[simp] theorem agentOnce_cbls (s : State) {a : Agent} (ha : a.isCob = false) (code detail : Nat) :
    (agentOnce s a code detail).cbls = s.cbls := ((notes_of_isCob ha).own s code detail).cbls

/-! ### Tables -/

@[simp] theorem State.modQ_cbls (s : State) (i : Nat) (f : QueueSt → QueueSt) : (State.modQ s i f).cbls = s.cbls := by
  simp [State.modQ]

@[simp] theorem State.modVc_cbls (s : State) (i : Nat) (f : VcSt → VcSt) : (State.modVc s i f).cbls = s.cbls := by
  simp [State.modVc]

@[simp] theorem State.modAwl_cbls (s : State) (i : Nat) (f : AwlSt → AwlSt) : (State.modAwl s i f).cbls = s.cbls := by
  simp [State.modAwl]

@[simp] theorem State.modPort_cbls (s : State) (i : Nat) (f : PortSt → PortSt) : (State.modPort s i f).cbls = s.cbls := by
  simp [State.modPort]

@[simp] theorem State.modTen_cbls (s : State) (i : Nat) (f : TenSt → TenSt) : (State.modTen s i f).cbls = s.cbls := by
  simp [State.modTen]

@[simp] theorem State.modTack_cbls (s : State) (i : Nat) (f : TackSt → TackSt) : (State.modTack s i f).cbls = s.cbls := by
  simp [State.modTack]

@[simp] theorem State.modUnit_cbls (s : State) (i : Nat) (f : UnitSt → UnitSt) : (State.modUnit s i f).cbls = s.cbls := by
  simp [State.modUnit]

@[simp] theorem State.modStr_cbls (s : State) (i : Nat) (f : StrSt → StrSt) : (State.modStr s i f).cbls = s.cbls := by
  simp [State.modStr]

@[simp] theorem State.modKey_cbls (s : State) (i : Nat) (f : KeySt → KeySt) : (State.modKey s i f).cbls = s.cbls := by
  simp [State.modKey]

@[simp] theorem State.setRef_cbls (s : State) (i : Nat) (v : RefSt) : (State.setRef s i v).cbls = s.cbls := by
  simp [State.setRef]

@[simp] theorem State.tackBit_cbls (s : State) (k i : Nat) : (State.tackBit s k i).cbls = s.cbls := by
  simp [State.tackBit]

/-! ### Flags -/

@[simp] theorem setObs_cbls (s : State) (u obs cause : Nat) : (setObs s u obs cause).cbls = s.cbls := by
  simp [setObs]

@[simp] theorem startSwitch_cbls (s : State) (r : Nat) : (startSwitch s r).cbls = s.cbls := by
  simp [startSwitch]

@[simp] theorem clkEval_cbls (s : State) : (clkEval s).cbls = s.cbls := by
  obtain ⟨h, -⟩ := clkEval_movesClock s
  rw [h]

@[simp] theorem reftMoved_cbls (s : State) : (reftMoved s).cbls = s.cbls := by
  simp [reftMoved]

@[simp] theorem traceAdd_cbls (s : State) (tag kind tenant queue detail : Nat) : (traceAdd s tag kind tenant queue detail).cbls = s.cbls := by
  rw [traceAdd_traceFrame]

@[simp] theorem traceTen_cbls (s : State) (tag kind t queue detail : Nat) : (traceTen s tag kind t queue detail).cbls = s.cbls := by
  rw [traceTen_traceFrame]

@[simp] theorem recordFault_cbls (s : State) (r : FaultRec) : (recordFault s r).cbls = s.cbls := by
  rw [recordFault_noteFrame s r]

@[simp] theorem faultEnter_cbls (s : State) (r : FaultRec) : (faultEnter s r).cbls = s.cbls := by
  simp [faultEnter]

@[simp] theorem faultEnterDue_cbls (s : State) : (faultEnterDue s).cbls = s.cbls := by
  simp [faultEnterDue]

@[simp] theorem faultLost_cbls (s : State) : (faultLost s).cbls = s.cbls := foldl_cbls (fun s _ => by simp) _ s

@[simp] theorem alertFollow_cbls (s : State) : (alertFollow s).cbls = s.cbls := by
  simp [alertFollow]

/-! ### Ops -/

@[simp] theorem State.modFlight_cbls (s : State) (q n : Nat) (f : Flight → Flight) : (State.modFlight s q n f).cbls = s.cbls := by
  simp [State.modFlight]

@[simp] theorem chainFault_cbls (s : State) (q chain : Nat) : (chainFault s q chain).cbls = s.cbls := by
  unfold chainFault; simp

@[simp] theorem flightFault_cbls (s : State) (q n code unit level detail : Nat) :
    (flightFault s q n code unit level detail).cbls = s.cbls := (flightFault_engineFrame ..).cbls

@[simp] theorem flightOnce_cbls (s : State) (q n code unit level detail : Nat) : (flightOnce s q n code unit level detail).cbls = s.cbls :=
  (flightOnce_engineFrame ..).cbls

@[simp] theorem logUE_cbls (s : State) (a : Agent) (kind unit addr : Nat) : (logUE s a kind unit addr).cbls = s.cbls :=
  (logUE_storeFrame (core := fun _ => ()) ..).cbls

@[simp] theorem State.setLineErr_cbls (s : State) (l : Nat) (e : Err) : (State.setLineErr s l e).cbls = s.cbls := by
  simp [State.setLineErr]

@[simp] theorem readLine_cbls (s : State) {a : Agent} (ha : a.isCob = false) (l : Nat) : (readLine s a l).2.2.cbls = s.cbls :=
  (readLine_storeFrame (notes_of_isCob ha) ..).cbls

@[simp] theorem readPhys_cbls (s : State) {a : Agent} (ha : a.isCob = false) (pa n : Nat) : (readPhys s a pa n).2.2.cbls = s.cbls :=
  (readPhys_storeFrame (notes_of_isCob ha) ..).cbls

@[simp] theorem writeLine_cbls (s : State) {a : Agent} (ha : a.isCob = false) (l : Nat) (new : List (Option Byte)) (poison : Bool) (mask : List Byte) :
    (writeLine s a l new poison mask).cbls = s.cbls := (writeLine_storeFrame (notes_of_isCob ha) ..).cbls

@[simp] theorem writePhys_cbls (s : State) {a : Agent} (ha : a.isCob = false) (pa : Nat) (new : List (Option Byte)) (poison : Bool) :
    (writePhys s a pa new poison).cbls = s.cbls := (writePhys_storeFrame (notes_of_isCob ha) ..).cbls

@[simp] theorem State.setWord_cbls (s : State) (w : Nat) (v : Bool) (e : Err) : (State.setWord s w v e).cbls = s.cbls := by
  simp [State.setWord]

@[simp] theorem parityCheck_cbls (s : State) {a : Agent} (ha : a.isCob = false) (w : Nat) : (parityCheck s a w).1.cbls = s.cbls :=
  (parityCheck_storeFrame (notes_of_isCob ha) ..).cbls

@[simp] theorem readWord_cbls (s : State) {a : Agent} (ha : a.isCob = false) (w : Nat) : (readWord s a w).2.2.cbls = s.cbls :=
  (readWord_storeFrame (notes_of_isCob ha) ..).cbls

@[simp] theorem readSram_cbls (s : State) {a : Agent} (ha : a.isCob = false) (addr n : Nat) :
    (readSram s a addr n).2.2.cbls = s.cbls := by
  refine foldl_keeps_view (fun b : List Byte × Bool × State => b.2.2.cbls) (fun b i => ?_) _ _
  exact readWord_cbls b.2.2 ha _

@[simp] theorem writeWord_cbls (s : State) {a : Agent} (ha : a.isCob = false) (w : Nat) (new : List (Option Byte)) (poison : Bool) (mask : List Byte) :
    (writeWord s a w new poison mask).cbls = s.cbls := (writeWord_storeFrame (notes_of_isCob ha) ..).cbls

@[simp] theorem clearValid_cbls (s : State) (addr n : Nat) : (clearValid s addr n).cbls = s.cbls := by
  simp [clearValid]

@[simp] theorem ringPut_cbls (s : State) (reg off : Nat) (bs : List Byte) : (ringPut s reg off bs).cbls = s.cbls :=
  (ringPut_storeFrame (core := fun _ => ()) ..).cbls

@[simp] theorem startSession_cbls (s : State) (t : Nat) : (startSession s t).cbls = s.cbls := by
  simp [startSession]

@[simp] theorem txAppend_cbls (s : State) (r : JRec) : (txAppend s r).cbls = s.cbls := (txAppend_storeFrame (core := fun _ => ()) ..).cbls

@[simp] theorem jrnlLines_cbls (s : State) (rk t taddr first : Nat) (ls : List Nat) (seed : Bool) :
    (jrnlLines s rk t taddr first ls seed).cbls = s.cbls := (jrnlLines_storeFrame (core := fun _ => ()) ..).cbls

@[simp] theorem reqWrite_cbls (s : State) {a : Agent} (ha : a.isCob = false) (t w : Nat) (ls : List LineWr) : (reqWrite s a t w ls).1.cbls = s.cbls :=
  (reqWrite_storeFrame (notes_of_isCob ha) ..).cbls

@[simp] theorem tenWrite_cbls (s : State) {a : Agent} (ha : a.isCob = false) (t addr : Nat) (new : List (Option Byte)) (poison : Bool) :
    (tenWrite s a t addr new poison).1.cbls = s.cbls := (tenWrite_storeFrame (notes_of_isCob ha) ..).cbls

theorem tenRead_cbls {s : State} {a : Agent} (ha : a.isCob = false) {t addr n : Nat} {r : List Byte × Bool × State}
    (h : tenRead s a t addr n = some r) : r.2.2.cbls = s.cbls := by
  obtain ⟨pa, -, rfl⟩ := Option.map_eq_some_iff.mp h
  exact readPhys_cbls s ha pa n

/-! ### Port -/

@[simp] theorem pushMsg_cbls (s : State) (p : Nat) (m : Msg) (heads : Nat) (units : Nat) : (pushMsg s p m heads units).cbls = s.cbls := by
  simp [pushMsg]

@[simp] theorem pushRsp_cbls (s : State) (p : Nat) (m : Msg) (heads units : Nat) : (pushRsp s p m heads units).cbls = s.cbls := by
  simp [pushRsp]

@[simp] theorem linkCount_cbls (s : State) (p i : Nat) : (linkCount s p i).cbls = s.cbls := by
  simp [linkCount]

@[simp] theorem portObs_cbls (s : State) (p : Nat) : (portObs s p).cbls = s.cbls := by
  simp [portObs]

@[simp] theorem portEvent_cbls (s : State) (p : Nat) : (portEvent s p).cbls = s.cbls := by
  simp [portEvent]

@[simp] theorem evDrop_cbls (s : State) (cause n : Nat) : (evDrop s cause n).cbls = s.cbls := by
  simp [evDrop]

@[simp] theorem reqDone_cbls (s : State) (p : Nat) (r : Req) (ok : Bool) (status fault : Nat) (lines : List RemoteLine) :
    (reqDone s p r ok status fault lines).cbls = s.cbls := by
  cases h : r.who <;> simp [reqDone, h]

@[simp] theorem reqsDown_cbls (s : State) (p : Nat) : (reqsDown s p).cbls = s.cbls := by
  simp [reqsDown]

@[simp] theorem linkRecord_cbls (s : State) (p code : Nat) : (linkRecord s p code).cbls = s.cbls := by
  simp [linkRecord]

@[simp] theorem sendTState_cbls (s : State) : (sendTState s).cbls = s.cbls := by
  simp [sendTState]

@[simp] theorem unpair_cbls (s : State) : (unpair s).cbls = s.cbls := by
  simp [unpair]

@[simp] theorem startSeeding_cbls (s : State) : (startSeeding s).cbls = s.cbls := by
  simp [startSeeding]

@[simp] theorem pairTo_cbls (s : State) (st : Nat) : (pairTo s st).cbls = s.cbls := by
  simp [pairTo]

@[simp] theorem pairJudge_cbls (s : State) : (pairJudge s).cbls = s.cbls := by
  simp [pairJudge]

@[simp] theorem freshNonce_cbls (s : State) : (freshNonce s).2.cbls = s.cbls := by
  simp [freshNonce]

@[simp] theorem sendHello_cbls (s : State) (p : Nat) : (sendHello s p).cbls = s.cbls := by
  simp [sendHello]

@[simp] theorem portTo_cbls (s : State) (p : Nat) (st : PState) : (portTo s p st).cbls = s.cbls := by
  cases st <;> simp [portTo]

@[simp] theorem addStrikes_cbls (s : State) (p n : Nat) : (addStrikes s p n).cbls = s.cbls := by
  simp [addStrikes]

@[simp] theorem malformed_cbls (s : State) (p : Nat) : (malformed s p).cbls = s.cbls := by
  simp [malformed]

@[simp] theorem refusal_cbls (s : State) (p : Nat) : (refusal s p).cbls = s.cbls := by
  simp [refusal]

@[simp] theorem portForce_cbls (s : State) (p force : Nat) : (portForce s p force).cbls = s.cbls := by
  cases h : (s.port p).state <;> simp [portForce, h]

@[simp] theorem stallFollow_cbls (s : State) : (stallFollow s).cbls = s.cbls := by
  simp [stallFollow]

/-! ### Events -/

@[simp] theorem setSlot_cbls (s : State) (v i : Nat) (es : List DelayEv) : (setSlot s v i es).cbls = s.cbls := by
  simp [setSlot]

@[simp] theorem fileEvent_cbls (s : State) (v d ev : Nat) : (fileEvent s v d ev).cbls = s.cbls := by
  simp [fileEvent]

@[simp] theorem clearDue_cbls (s : State) (v t : Nat) : (clearDue s v t).cbls = s.cbls := by
  simp [clearDue]

@[simp] theorem dueLeaves_cbls (s : State) (v : Nat) : (dueLeaves s v).cbls = s.cbls := by
  simp [dueLeaves]

@[simp] theorem dropDue_cbls (s : State) (v cause : Nat) : (dropDue s v cause).cbls = s.cbls := by
  simp [dropDue]

@[simp] theorem closeBatches_cbls (s : State) : (closeBatches s).cbls = s.cbls := by
  simp [closeBatches]

@[simp] theorem routeSpike_cbls (s : State) (v n : Nat) : (routeSpike s v n).cbls = s.cbls := (routeSpike_tileFrame s v n).cbls

@[simp] theorem evtPoison_cbls (s : State) (v : Nat) : (evtPoison s v).cbls = s.cbls := by
  simp [evtPoison]

theorem evPoisoned_sameCbls (s : State) (v : Nat) (f : VcSt → VcSt) : SameCbls s (evtPoison (s.modVc v f) v) := by
  simp [SameCbls]

theorem readSram_sameCbls {s : State} {a : Agent} {addr n : Nat} {r : List Byte × Bool × State} (ha : a.isCob = false)
    (h : r = readSram s a addr n) : SameCbls s r.2.2 := h ▸ readSram_cbls s ha addr n

theorem sameCbls_third_ite {s : State} {c : Prop} [Decidable c] {x z : List Byte × Bool × State} {l : List Byte} {b : Bool}
    {t : State} (h : z = if c then x else (l, b, t)) (hx : SameCbls s x.2.2) (ht : SameCbls s t) : SameCbls s z.2.2 := by
  subst h
  split <;> assumption

theorem addWord_sameCbls (s : State) (v a i : Nat) : SameCbls s (addWord s v a i) := by
  unfold addWord
  extract_lets ty n row r blk sc u ns
  have hr : SameCbls s r.2.2 := readSram_sameCbls rfl rfl
  clear_value r
  have hu : SameCbls s u := sameCbls_third_ite rfl (hr.trans (readSram_sameCbls rfl rfl)) hr
  clear_value u
  exact .ite (hu.trans (evPoisoned_sameCbls ..)) (hu.trans (State.modVc_cbls ..))

@[simp] theorem deliver_cbls (s : State) (v ev : Nat) : (deliver s v ev).cbls = s.cbls := by
  show SameCbls s _
  unfold deliver
  extract_lets +onlyGivenNames set_ r u
  have hu : SameCbls s u := readSram_sameCbls (r := r) rfl rfl
  clear_value r u
  have hbump : ∀ k n, SameCbls s (u.bump k n) := fun k n => hu.trans (State.bump_cbls u k n)
  have hdrop : SameCbls s (evDrop u 9 1) := hu.trans (evDrop_cbls u 9 1)
  refine .ite (hdrop.trans (evtPoison_cbls _ v)) ?_
  split
  · exact hbump _ _
  · extract_lets w
    have hw : SameCbls s w := (hbump _ _).trans (State.modVc_cbls ..)
    clear_value w
    exact .ite (hbump _ _) (.ite (hu.trans (evDrop_cbls ..)) (hw.trans (foldl_sameCbls (fun s i => addWord_sameCbls s v _ i) _ _)))

@[simp] theorem deliverFiled_cbls (s : State) (v : Nat) (e : DelayEv) : (deliverFiled s v e).cbls = s.cbls := by
  unfold deliverFiled
  split <;> simp

@[simp] theorem execEventDeliver_keepsCbls (v : Fin 64) (s : State) : KeepsCbls s (execEventDeliver v s) := by
  unfold execEventDeliver
  dsimp only
  split
  · simp
  · split <;> simp

@[simp] theorem updateNeuron_cbls (s : State) (v n : Nat) : (updateNeuron s v n).cbls = s.cbls := by
  simp [updateNeuron]

@[simp] theorem evUpdate_cbls (s : State) (v : Nat) : (evUpdate s v).cbls = s.cbls := by
  simp [evUpdate]

@[simp] theorem endDelivery_cbls (s : State) (v : Nat) : (endDelivery s v).cbls = s.cbls := by
  simp [endDelivery]

@[simp] theorem execDeliveryEnd_keepsCbls (v : Fin 64) (s : State) : KeepsCbls s (execDeliveryEnd v s) := by
  simp [execDeliveryEnd]

@[simp] theorem execStretchLimit_keepsCbls (s : State) : KeepsCbls s (execStretchLimit s) := by
  simp [execStretchLimit]

@[simp] theorem evAbandon_cbls (s : State) (t : Nat) : (evAbandon s t).cbls = s.cbls := by
  simp [evAbandon]

@[simp] theorem remoteEvent_cbls (s : State) (t d ev : Nat) : (remoteEvent s t d ev).cbls = s.cbls := by
  simp [remoteEvent]

/-! ### Tiles and Awl units -/

@[simp] theorem runTile_cbls (s : State) (q v : Nat) (f : Flight) (k : Nat) : (runTile s q v f k).cbls = s.cbls :=
  (runTile_tileFrame s q v f k).cbls

@[simp] theorem tileLeaves_cbls (s : State) (t : Tile) (ks : List UnitKey) : (tileLeaves s t ks).cbls = s.cbls :=
  (tileLeaves_tileFrame s t ks).cbls

@[simp] theorem tileAsks_cbls (s : State) (v : Nat) (t : Tile) (f : Flight) (ks : List UnitKey) : (tileAsks s v t f ks).cbls = s.cbls :=
  (tileAsks_engineFrame s v t f ks).cbls

@[simp] theorem formReads_cbls (s : State) (q n tag : Nat) (ks : List UnitKey) : (formReads s q n tag ks).cbls = s.cbls :=
  (formReads_engineFrame s q n tag ks).cbls

@[simp] theorem tileDone_cbls (s : State) (q n : Nat) : (tileDone s q n).cbls = s.cbls := rfl

@[simp] theorem noteSr_cbls (s : State) (q : Nat) (f : Flight) (rs : List (List Nat × Num)) : (noteSr s q f rs).cbls = s.cbls :=
  (noteSr_coreFrame s q f rs).cbls

@[simp] theorem storeResults_cbls (s : State) (q n v k : Nat) (f : Flight) (rs : List (List Nat × Num)) :
    (storeResults s q n v k f rs).cbls = s.cbls := (storeResults_tileFrame s q n v k f rs).cbls

@[simp] theorem execTileExecute_keepsCbls (v : Fin 64) (s : State) : KeepsCbls s (execTileExecute v s) := by
  unfold execTileExecute
  split
  · simp
  · split
    · simp
    · split <;> simp

@[simp] theorem execReductionCombine_keepsCbls (q : Fin 64) (s : State) : KeepsCbls s (execReductionCombine q s) := by
  unfold execReductionCombine
  split
  · simp
  · split <;> simp

theorem AwlFrame.cbls {s t : State} (h : AwlFrame s t) : t.cbls = s.cbls := by
  unfold AwlFrame at h
  rw [StoreFrame.cbls h]

theorem HomesMove.cbls {s t : State} (h : HomesMove s t) : t.cbls = s.cbls := h.frame.cbls

@[simp] theorem dropMsg_cbls (s : State) (y h : Nat) (m : ScMsg) : (dropMsg s y h m).cbls = s.cbls := rfl

@[simp] theorem applyMsg_cbls (s : State) (h : Nat) (m : ScMsg) : (applyMsg s h m).cbls = s.cbls := (applyMsg_moves s h m).cbls

@[simp] theorem pump_cbls (n : Nat) (s : State) (h : Nat) : (pump n s h).cbls = s.cbls := (pump_moves n s h).cbls

@[simp] theorem writeBack_cbls (s : State) (h q : Nat) (f : Flight) (j : ScJob) : (writeBack s h q f j).cbls = s.cbls :=
  (writeBack_coreFrame s h q f j).cbls

@[simp] theorem endJob_cbls (s : State) (h : Nat) (j : ScJob) : (endJob s h j).cbls = s.cbls := (endJob_awlFrame s h j).cbls

@[simp] theorem addJobs_cbls (s : State) (q n : Nat) : (addJobs s q n).cbls = s.cbls := by
  simp [addJobs]

@[simp] theorem execContribution_keepsCbls (source home : Fin 8) (s : State) : KeepsCbls s (execContribution source home s) := by
  unfold execContribution
  dsimp only
  split
  · simp
  · split
    · simp
    · split
      · simp
      · split
        · simp
        · split <;> simp

@[simp] theorem execEndMarker_keepsCbls (source home : Fin 8) (s : State) : KeepsCbls s (execEndMarker source home s) := by
  unfold execEndMarker
  dsimp only
  split
  · simp
  · split
    · simp
    · split
      · simp
      · split <;> simp

@[simp] theorem execTileResume_keepsCbls (source : Fin 8) (s : State) : KeepsCbls s (execTileResume source s) := by
  unfold execTileResume
  dsimp only
  split
  · simp
  · split <;> simp

@[simp] theorem execScatterWriteback_keepsCbls (home : Fin 8) (s : State) : KeepsCbls s (execScatterWriteback home s) := by
  unfold execScatterWriteback
  split
  · simp
  · split
    · simp
    · split <;> simp

/-! ### Link -/

@[simp] theorem emitFlit_cbls (s : State) (p ftype seq vc first : Nat) (payload : List Byte) :
    (emitFlit s p ftype seq vc first payload).cbls = s.cbls := by
  simp [emitFlit]

@[simp] theorem emitLctrl_cbls (s : State) (p ltype lanes : Nat) : (emitLctrl s p ltype lanes).cbls = s.cbls := by
  simp [emitLctrl]

@[simp] theorem feedChan_cbls (s : State) (p v : Nat) : (feedChan s p v).cbls = s.cbls := by
  unfold feedChan
  split
  · split <;> simp
  · split
    · split <;> simp
    · rfl

@[simp] theorem feedHb_cbls (s : State) (p : Nat) : (feedHb s p).cbls = s.cbls := by
  unfold feedHb
  dsimp only
  split <;> simp

@[simp] theorem feed_cbls (n : Nat) : ∀ (s : State) (p v : Nat), (feed n s p v).cbls = s.cbls := by
  induction n with
  | zero => intro s p v; rfl
  | succ n ih => intro s p v; simp [feed, ih]

@[simp] theorem sendNew_cbls (s : State) (p v : Nat) : (sendNew s p v).cbls = s.cbls := by
  simp [sendNew]

@[simp] theorem msgSlot_cbls (s : State) (p : Nat) : (msgSlot s p).cbls = s.cbls := by
  cases h : (s.port p).replay <;> cases h' : (s.port p).lctrl <;> simp [msgSlot, h, h']

@[simp] theorem execFlitSlotTransmit_keepsCbls (p : Fin 9) (s : State) : KeepsCbls s (execFlitSlotTransmit p s) := by
  unfold execFlitSlotTransmit
  dsimp only
  split
  · simp
  · split <;> simp

@[simp] theorem openGap_cbls (s : State) (p : Nat) : (openGap s p).cbls = s.cbls := by
  simp [openGap]

@[simp] theorem startReplay_cbls (s : State) (p : Nat) : (startReplay s p).cbls = s.cbls := by
  simp [startReplay]

@[simp] theorem takeHeader_cbls (s : State) (p hdr : Nat) : (takeHeader s p hdr).cbls = s.cbls := by
  simp [takeHeader]

@[simp] theorem lcArrives_cbls (s : State) (p : Nat) (f : Lctrl) : (lcArrives s p f).cbls = s.cbls := by
  simp [lcArrives]

@[simp] theorem takeMsg_cbls (s : State) (p hdr : Nat) (payload : List Byte) : (takeMsg s p hdr payload).cbls = s.cbls := by
  simp [takeMsg]

@[simp] theorem tagFailed_cbls (s : State) (p : Nat) (fl : List Byte) : (tagFailed s p fl).cbls = s.cbls := by
  simp [tagFailed]

@[simp] theorem takeGood_cbls (s : State) (p : Nat) (fl : List Byte) : (takeGood s p fl).cbls = s.cbls := by
  unfold takeGood
  split
  · simp
  · dsimp only
    split <;> simp

@[simp] theorem execFlitReceive_keepsCbls (p : Fin 9) (flit : List Byte) (s : State) :
    KeepsCbls s (execFlitReceive p flit s) := by
  unfold execFlitReceive
  dsimp only
  split
  · simp
  · split
    · simp
    · split
      · simp
      · split <;> simp

@[simp] theorem execNakResend_keepsCbls (p : Fin 9) (s : State) : KeepsCbls s (execNakResend p s) := by
  simp [execNakResend]

@[simp] theorem execReplayTimeout_keepsCbls (p : Fin 9) (s : State) : KeepsCbls s (execReplayTimeout p s) := by
  simp [execReplayTimeout]

@[simp] theorem execWltCtrlEnSet_keepsCbls (p : Fin 9) (s : State) : KeepsCbls s (execWltCtrlEnSet p s) := by
  simp [execWltCtrlEnSet]

@[simp] theorem execWltCtrlEnClear_keepsCbls (p : Fin 9) (s : State) : KeepsCbls s (execWltCtrlEnClear p s) := by
  simp [execWltCtrlEnClear]

@[simp] theorem execWltCtrlRelease_keepsCbls (p : Fin 8) (s : State) : KeepsCbls s (execWltCtrlRelease p s) := by
  simp [execWltCtrlRelease]

@[simp] theorem execWltCtrlRetrain_keepsCbls (p : Fin 9) (s : State) : KeepsCbls s (execWltCtrlRetrain p s) := by
  simp [execWltCtrlRetrain]

@[simp] theorem execDownRetryExpiry_keepsCbls (p : Fin 9) (s : State) : KeepsCbls s (execDownRetryExpiry p s) := by
  simp [execDownRetryExpiry]

@[simp] theorem execLaneLock_keepsCbls (p : Fin 9) (lane : LaneCws) (s : State) : KeepsCbls s (execLaneLock p lane s) := by
  simp [execLaneLock]

@[simp] theorem execTrainTimeout_keepsCbls (p : Fin 9) (s : State) : KeepsCbls s (execTrainTimeout p s) := by
  simp [execTrainTimeout]

@[simp] theorem execAlignTimeout_keepsCbls (p : Fin 9) (s : State) : KeepsCbls s (execAlignTimeout p s) := by
  simp [execAlignTimeout]

@[simp] theorem narrow_cbls (s : State) (p good ltype : Nat) : (narrow s p good ltype).cbls = s.cbls := by
  simp [narrow]

@[simp] theorem lanesTo_cbls (s : State) (p l : Nat) : (lanesTo s p l).cbls = s.cbls := by
  simp [lanesTo]

@[simp] theorem execLaneBad_keepsCbls (p : Fin 9) (lane : LaneCws) (s : State) : KeepsCbls s (execLaneBad p lane s) := by
  simp [execLaneBad]

theorem lcTake_cbls {s t : State} {p n : Nat} {f : Lctrl} (h : lcTake s p n f = some t) : t.cbls = s.cbls := by
  unfold lcTake at h
  split at h
  · split at h
    · obtain rfl := Option.some.inj h
      rfl
    · contradiction
  · contradiction

@[simp] theorem execLaneMap_keepsCbls (p : Fin 9) (f : Lctrl) (s : State) : KeepsCbls s (execLaneMap p f s) := by
  unfold execLaneMap
  split
  · simp
  · simp [lcTake_cbls ‹_›]

@[simp] theorem execLaneMapDone_keepsCbls (p : Fin 9) (f : Lctrl) (s : State) : KeepsCbls s (execLaneMapDone p f s) := by
  unfold execLaneMapDone
  split
  · simp
  · simp [lcTake_cbls ‹_›]

@[simp] theorem execLaneSwitch_keepsCbls (p : Fin 9) (s : State) : KeepsCbls s (execLaneSwitch p s) := by
  unfold execLaneSwitch
  dsimp only
  split <;> simp

@[simp] theorem execAlign_keepsCbls (p : Fin 9) (f : Lctrl) (s : State) : KeepsCbls s (execAlign p f s) := by
  unfold execAlign
  split
  · simp
  · simp [lcTake_cbls ‹_›]

@[simp] theorem execAlignDone_keepsCbls (p : Fin 9) (f : Lctrl) (s : State) : KeepsCbls s (execAlignDone p f s) := by
  unfold execAlignDone
  split
  · simp
  · simp [lcTake_cbls ‹_›]

@[simp] theorem takeRx_cbls (s : State) (p v : Nat) (m : Msg) : (takeRx s p v m).cbls = s.cbls := by
  unfold takeRx
  dsimp only
  split <;> simp

@[simp] theorem withRx_cbls {hello up fenced : State → State} (hh : ∀ s, (hello s).cbls = s.cbls)
    (hu : ∀ s, (up s).cbls = s.cbls) (hf : ∀ s, (fenced s).cbls = s.cbls) (s : State) (p v : Nat) (m : Msg) :
    (withRx s p v m hello up fenced).cbls = s.cbls := by
  cases h : (s.port p).state <;> simp [withRx, h, hh, hu, hf]

@[simp] theorem helloTake_cbls (s : State) (p : Nat) (m : Msg) : (helloTake s p m).cbls = s.cbls := by
  simp [helloTake]

@[simp] theorem execHello_keepsCbls (p : Fin 9) (m : Msg) (s : State) : KeepsCbls s (execHello p m s) := by
  simp [execHello]

@[simp] theorem execHelloResend_keepsCbls (p : Fin 9) (s : State) : KeepsCbls s (execHelloResend p s) := by
  simp [execHelloResend]

@[simp] theorem execHelloTimeout_keepsCbls (p : Fin 9) (s : State) : KeepsCbls s (execHelloTimeout p s) := by
  simp [execHelloTimeout]

@[simp] theorem execHeartbeat_keepsCbls (p : Fin 9) (m : Msg) (s : State) : KeepsCbls s (execHeartbeat p m s) := by
  simp [execHeartbeat]

@[simp] theorem execHeartbeatSend_keepsCbls (p : Fin 9) (s : State) : KeepsCbls s (execHeartbeatSend p s) := by
  simp [execHeartbeatSend]

@[simp] theorem execHeartbeatTimeout_keepsCbls (p : Fin 9) (s : State) : KeepsCbls s (execHeartbeatTimeout p s) := by
  simp [execHeartbeatTimeout]

@[simp] theorem execCreditStallFence_keepsCbls (p : Fin 9) (s : State) : KeepsCbls s (execCreditStallFence p s) := by
  simp [execCreditStallFence]

@[simp] theorem execQuotaRefill_keepsCbls (p : Fin 8) (s : State) : KeepsCbls s (execQuotaRefill p s) := by
  simp [execQuotaRefill]

@[simp] theorem execStrikeLeak_keepsCbls (s : State) : KeepsCbls s (execStrikeLeak s) := by
  simp [execStrikeLeak]

@[simp] theorem execMalformedMessage_keepsCbls (p : Fin 9) (m : Msg) (s : State) : KeepsCbls s (execMalformedMessage p m s) := by
  unfold execMalformedMessage
  split <;> simp

@[simp] theorem execLateRsp_keepsCbls (p : Fin 8) (m : Msg) (s : State) : KeepsCbls s (execLateRsp p m s) := by
  simp [execLateRsp]

@[simp] theorem execRequestSend_keepsCbls (p : Fin 8) (s : State) : KeepsCbls s (execRequestSend p s) := by
  unfold execRequestSend
  dsimp only
  split <;> simp

@[simp] theorem execRequestTimeout_keepsCbls (p : Fin 8) (txn : Nat) (s : State) : KeepsCbls s (execRequestTimeout p txn s) := by
  unfold execRequestTimeout
  split <;> simp

@[simp] theorem rspFor_cbls (s : State) (p : Nat) (m : Msg) (write : Bool) : (rspFor s p m write).cbls = s.cbls := by
  unfold rspFor
  split <;> simp

@[simp] theorem execReadRsp_keepsCbls (p : Fin 8) (m : Msg) (s : State) : KeepsCbls s (execReadRsp p m s) := by
  simp [execReadRsp]

@[simp] theorem execWriteAck_keepsCbls (p : Fin 8) (m : Msg) (s : State) : KeepsCbls s (execWriteAck p m s) := by
  simp [execWriteAck]

@[simp] theorem execTwnPeerNodeWrite_keepsCbls (ctrl : Bool) (w : Word) (s : State) :
    KeepsCbls s (execTwnPeerNodeWrite ctrl w s) := by
  simp [execTwnPeerNodeWrite]

/-! ### Admit -/

@[simp] theorem epcTo_cbls (s : State) (st : EState) : (epcTo s st).cbls = s.cbls := by
  simp [epcTo]

@[simp] theorem startClose_cbls (s : State) : (startClose s).cbls = s.cbls := by
  simp [startClose]

@[simp] theorem startOpen_cbls (s : State) : (startOpen s).cbls = s.cbls := by
  simp [startOpen]

@[simp] theorem trigger_cbls (s : State) (b : Nat) : (trigger s b).1.cbls = s.cbls := by
  cases h : s.epc.state <;> simp [trigger, h, apply_ite Prod.fst]

@[simp] theorem tackUpdate_cbls (s : State) (rank tack : Nat) (write : Bool) (value : Nat) :
    (tackUpdate s rank tack write value).cbls = s.cbls := by
  simp [tackUpdate]

@[simp] theorem egressTake_cbls (s : State) (p heads units : Nat) : (egressTake s p heads units).cbls = s.cbls := by
  simp [egressTake]

@[simp] theorem egressFree_cbls (s : State) (p heads units : Nat) : (egressFree s p heads units).cbls = s.cbls := by
  simp [egressFree]

@[simp] theorem answer_cbls (s : State) (p : Nat) (m : Msg) (type status units : Nat) (payload : List Byte) :
    (answer s p m type status units payload).cbls = s.cbls := by
  simp [answer]

@[simp] theorem reject_cbls (s : State) (p : Nat) (m : Msg) (r : ReqShape) (status : Nat) :
    (reject s p m r status).cbls = s.cbls := by
  simp [reject]

theorem takeToken_cbls {s t : State} {p n : Nat} (h : takeToken s p n = some t) : t.cbls = s.cbls := by
  unfold takeToken at h
  split at h
  · obtain rfl := Option.some.inj h
    rfl
  · dsimp only at h
    split at h
    · contradiction
    · obtain rfl := Option.some.inj h
      rfl

@[simp] theorem withRequest_cbls {k : State → State} (hk : ∀ s, (k s).cbls = s.cbls) (s : State) (p : Nat) (m : Msg)
    (r : ReqShape) : (withRequest s p m r k).cbls = s.cbls := by
  simp [withRequest, hk]

@[simp] theorem withRights_cbls {k : State → State} (hk : ∀ s, (k s).cbls = s.cbls) (s : State) (p : Nat) (m : Msg)
    (r : ReqShape) (w : Nat) : (withRights s p m r w k).cbls = s.cbls := by
  unfold withRights
  rw [cbls_ite]
  split
  · simp
  · split
    · simp
    · rw [hk, takeToken_cbls ‹_›]

/-! ### Chain -/

@[simp] theorem submitRsp_cbls (s : State) (q : Nat) (c : Chain) (status phase tag epoch : Nat) :
    (submitRsp s q c status phase tag epoch).cbls = s.cbls := by
  unfold submitRsp
  split <;> simp

@[simp] theorem retireAnswer_cbls (s : State) (q : Nat) (c : Chain) (status tag : Nat) :
    (retireAnswer s q c status tag).cbls = s.cbls := by
  simp [retireAnswer]

@[simp] theorem answerHead_cbls (s : State) (q : Nat) (c : Chain) : (answerHead s q c).cbls = s.cbls := by
  unfold answerHead
  split <;> simp

@[simp] theorem answerFifo_cbls (s : State) (q : Nat) : (answerFifo s q).cbls = s.cbls := by
  simp [answerFifo]

@[simp] theorem stopQueue_cbls (s : State) (q tag : Nat) : (stopQueue s q tag).cbls = s.cbls := by
  unfold stopQueue
  split <;> simp

@[simp] theorem queueFault_cbls (s : State) (q code tag detail : Nat) : (queueFault s q code tag detail).cbls = s.cbls := by
  unfold queueFault
  simp only [stopQueue_cbls]
  split <;> simp

@[simp] theorem cblCount_cbls (s : State) (q n : Nat) : (cblCount s q n).cbls = s.cbls := by
  simp [cblCount]

@[simp] theorem abandonQueue_cbls (s : State) (q : Nat) : (abandonQueue s q).cbls = s.cbls := by
  unfold abandonQueue
  dsimp only
  split <;> simp

/-! ### Memory -/

@[simp] theorem State.setHbmScrub_cbls (s : State) (h : Nat) (x : Scrub) : (State.setHbmScrub s h x).cbls = s.cbls := by
  simp [State.setHbmScrub]

@[simp] theorem State.setSramScrub_cbls (s : State) (u : Nat) (x : Scrub) : (State.setSramScrub s u x).cbls = s.cbls := by
  simp [State.setSramScrub]

@[simp] theorem scrubLine_cbls (s : State) (h l : Nat) : (scrubLine s h l).cbls = s.cbls := by
  unfold scrubLine
  split <;> simp

@[simp] theorem execHbmScrubStep_keepsCbls (h : Fin 4) (s : State) : KeepsCbls s (execHbmScrubStep h s) := by
  simp [execHbmScrubStep]

@[simp] theorem scrubWord_cbls (s : State) (u w : Nat) : (scrubWord s u w).cbls = s.cbls := by
  cases h : s.wordErr w <;> simp [scrubWord, h]

@[simp] theorem scrubSram_cbls (s : State) (u : Nat) : (scrubSram s u).cbls = s.cbls := by
  simp [scrubSram]

@[simp] theorem execCbufScrubStep_keepsCbls (u : Fin 80) (s : State) : KeepsCbls s (execCbufScrubStep u s) := by
  simp [execCbufScrubStep]

@[simp] theorem scrubsDue_cbls (s : State) : (scrubsDue s).cbls = s.cbls := by
  simp [scrubsDue]

@[simp] theorem scrubHold_cbls (s : State) : (scrubHold s).cbls = s.cbls := by
  simp [scrubHold]

@[simp] theorem execMemScrubWrite_keepsCbls (w : Word) (s : State) : KeepsCbls s (execMemScrubWrite w s) := by
  simp [execMemScrubWrite]

@[simp] theorem execHbmAccessComplete_keepsCbls (h : Fin 4) (n : Nat) (s : State) :
    KeepsCbls s (execHbmAccessComplete h n s) := by
  unfold execHbmAccessComplete
  split
  · simp
  · split
    · simp
    · split <;> simp

/-! ### Messages -/

@[simp] theorem readAll_cbls (s : State) {a : Agent} (ha : a.isCob = false) (pas : List Nat) : (readAll s a pas).2.2.cbls = s.cbls :=
  foldl_keeps_view (fun b : List Byte × Nat × State => b.2.2.cbls) (fun b pa => by simp [ha]) _ _

@[simp] theorem execRead_keepsCbls (p : Fin 8) (m : Msg) (s : State) : KeepsCbls s (execRead p m s) :=
  keepsCbls_next.2 (withRequest_cbls (fun s => withRights_cbls (fun s => by split <;> simp) s ..) s ..)

@[simp] theorem writeAll_cbls (s : State) (p t a : Nat) (pas : List Nat) (m : Msg) : (writeAll s p t a pas m).cbls = s.cbls := by
  refine foldl_cbls (fun s g => ?_) _ s
  split <;> simp

@[simp] theorem execWrite_keepsCbls (p : Fin 8) (m : Msg) (s : State) : KeepsCbls s (execWrite p m s) :=
  keepsCbls_next.2 (withRequest_cbls (fun s => withRights_cbls (fun s => by split <;> simp) s ..) s ..)

@[simp] theorem execTackSet_keepsCbls (p : Fin 8) (m : Msg) (s : State) : KeepsCbls s (execTackSet p m s) := by
  simp [execTackSet]

@[simp] theorem execEpochCtrl_keepsCbls (p : Fin 8) (m : Msg) (s : State) : KeepsCbls s (execEpochCtrl p m s) :=
  keepsCbls_next.2 (withRequest_cbls (fun s => by simp [apply_ite Prod.fst]) s ..)

@[simp] theorem withEv_cbls {k : State → State} (hk : ∀ s, (k s).cbls = s.cbls) (s : State) (p : Nat) (m : Msg) (bad : Bool) :
    (withEv s p m bad k).cbls = s.cbls := by
  simp [withEv, hk]

@[simp] theorem execEventBatch_keepsCbls (p : Fin 8) (m : Msg) (s : State) : KeepsCbls s (execEventBatch p m s) := by
  simp [execEventBatch]

@[simp] theorem strRd_cbls (s : State) (c : Nat) : (strRd s c).2.cbls = s.cbls := by
  unfold strRd
  split
  · rfl
  · have := tenRead_cbls rfl ‹_›
    split <;> simpa

@[simp] theorem strDrop_cbls (s : State) (c other n : Nat) : (strDrop s c other n).cbls = s.cbls := by
  simp [strDrop]

@[simp] theorem closeFrame_cbls (s : State) (c : Nat) (trunc : Bool) : (closeFrame s c trunc).cbls = s.cbls := by
  unfold closeFrame
  split <;> simp

@[simp] theorem openFrame_cbls (s : State) (c fseq : Nat) : (openFrame s c fseq).cbls = s.cbls := by
  simp [openFrame]

@[simp] theorem frameData_cbls (s : State) (c : Nat) (data : List Byte) : (frameData s c data).cbls = s.cbls := by
  unfold frameData
  split <;> simp

@[simp] theorem eventData_cbls (s : State) (c : Nat) (evs : List Nat) : (eventData s c evs).cbls = s.cbls := by
  unfold eventData
  dsimp only
  split <;> simp

@[simp] theorem stage_cbls (s : State) (c n : Nat) : (stage s c n).cbls = s.cbls := by
  simp [stage]

@[simp] theorem execStreamData_keepsCbls (p : Fin 8) (m : Msg) (s : State) : KeepsCbls s (execStreamData p m s) := by
  simp [execStreamData]

@[simp] theorem execFramePublish_keepsCbls (c : Fin 8) (s : State) : KeepsCbls s (execFramePublish c s) := by
  unfold execFramePublish
  dsimp only
  split <;> simp

/-! ### Twin -/

@[simp] theorem twinMsg_cbls {k : State → State} (hk : ∀ s, (k s).cbls = s.cbls) (s : State) (m : Msg) (bad : Bool) :
    (twinMsg s m bad k).cbls = s.cbls := by
  simp [twinMsg, hk]

@[simp] theorem withTwin_cbls {k : State → State} (hk : ∀ s, (k s).cbls = s.cbls) (s : State) (v : Nat) (m : Msg)
    (bad : Bool) : (withTwin s v m bad k).cbls = s.cbls := by
  simp [withTwin, hk]

@[simp] theorem withTwinWork_cbls {k : State → State} (hk : ∀ s, (k s).cbls = s.cbls) (s : State) (v : Nat) (m : Msg)
    (bad : Bool) : (withTwinWork s v m bad k).cbls = s.cbls := by
  simp [withTwinWork, hk]

@[simp] theorem sendTdown_cbls (s : State) (cause : Nat) : (sendTdown s cause).cbls = s.cbls := by
  simp [sendTdown]

@[simp] theorem rxAccept_cbls (s : State) (m : Msg) (r : JRec) : (rxAccept s m r).cbls = s.cbls := by
  unfold rxAccept
  split <;> simp

@[simp] theorem rxAppend_cbls (s : State) (m : Msg) (r : JRec) : (rxAppend s m r).cbls = s.cbls := by
  simp [rxAppend]

@[simp] theorem execJrnl_keepsCbls (m : Msg) (s : State) : KeepsCbls s (execJrnl m s) := by
  simp [execJrnl]

@[simp] theorem applyEnds_cbls (n : Nat) : ∀ s : State, (applyEnds n s).cbls = s.cbls := by
  induction n with
  | zero => intro s; rfl
  | succ n ih =>
    intro s
    cases h : s.twn.apply <;> simp [applyEnds, h, ih]

@[simp] theorem execCommit_keepsCbls (m : Msg) (s : State) : KeepsCbls s (execCommit m s) := by
  simp [execCommit]

@[simp] theorem commitFree_cbls (s : State) : (commitFree s).cbls = s.cbls := by
  simp [commitFree]

@[simp] theorem commitFailed_cbls (s : State) : (commitFailed s).cbls = s.cbls := by
  simp [commitFailed]

@[simp] theorem execCommitTimeout_keepsCbls (s : State) : KeepsCbls s (execCommitTimeout s) := by
  simp [execCommitTimeout]

@[simp] theorem execCommitAck_keepsCbls (m : Msg) (s : State) : KeepsCbls s (execCommitAck m s) := by
  unfold execCommitAck
  split
  · simp
  · exact keepsCbls_next.2 (withTwinWork_cbls (fun s => by split <;> simp) s ..)

@[simp] theorem formCommit_cbls (s : State) : (formCommit s).cbls = s.cbls := by
  simp [formCommit]

@[simp] theorem execTstate_keepsCbls (m : Msg) (s : State) : KeepsCbls s (execTstate m s) := by
  simp [execTstate]

@[simp] theorem execTdown_keepsCbls (m : Msg) (s : State) : KeepsCbls s (execTdown m s) := by
  simp [execTdown]

@[simp] theorem applyRec_cbls (s : State) (r : JRec) : (applyRec s r).cbls = s.cbls := by
  refine foldl_cbls (fun s x => ?_) _ s
  dsimp only
  split <;> simp

@[simp] theorem execReplicaApply_keepsCbls (s : State) : KeepsCbls s (execReplicaApply s) := by
  unfold execReplicaApply
  split
  · simp
  · split <;> simp

@[simp] theorem execSeedWalk_keepsCbls (s : State) : KeepsCbls s (execSeedWalk s) := by
  unfold execSeedWalk
  split
  · simp
  · split <;> simp

@[simp] theorem execTwnCmdAdopt_keepsCbls (s : State) : KeepsCbls s (execTwnCmdAdopt s) := by
  simp [execTwnCmdAdopt]

@[simp] theorem twinApply_cbls (s : State) (old : Nat) : (twinApply s old).cbls = s.cbls := by
  simp [twinApply]

/-! ### Epoch -/

@[simp] theorem execEpcCtrlBoundary_keepsCbls (run : Bool) (s : State) : KeepsCbls s (execEpcCtrlBoundary run s) := by
  simp [execEpcCtrlBoundary]

@[simp] theorem execPeriodExpiry_keepsCbls (s : State) : KeepsCbls s (execPeriodExpiry s) := by
  simp [execPeriodExpiry]

@[simp] theorem execScheduleTrigger_keepsCbls (s : State) : KeepsCbls s (execScheduleTrigger s) := by
  simp [execScheduleTrigger]

@[simp] theorem execEpcSchedSecWrite_keepsCbls (hi : Bool) (w : Word) (s : State) :
    KeepsCbls s (execEpcSchedSecWrite hi w s) := by
  simp [execEpcSchedSecWrite]

@[simp] theorem execEpcSchedNsWrite_keepsCbls (w : Word) (s : State) : KeepsCbls s (execEpcSchedNsWrite w s) := by
  simp [execEpcSchedNsWrite]

@[simp] theorem execDrainComplete_keepsCbls (s : State) : KeepsCbls s (execDrainComplete s) := by
  simp [execDrainComplete]

@[simp] theorem execFlushComplete_keepsCbls (s : State) : KeepsCbls s (execFlushComplete s) := by
  simp [execFlushComplete]

@[simp] theorem execCommitEnd_keepsCbls (s : State) : KeepsCbls s (execCommitEnd s) := by
  simp [execCommitEnd]

@[simp] theorem validateWindows_cbls (s old : State) : (validateWindows s old).cbls = s.cbls :=
    foldl_cbls (fun s e => by simp) _ s

@[simp] theorem validateTenants_cbls (s old : State) : (validateTenants s old).cbls = s.cbls := by
  simp [validateTenants]

@[simp] theorem validateQueues_cbls (s old : State) : (validateQueues s old).cbls = s.cbls := by
  simp [validateQueues]

@[simp] theorem validateStreams_cbls (s : State) : (validateStreams s).cbls = s.cbls := by
  simp [validateStreams]

@[simp] theorem validateLace_cbls (s : State) : (validateLace s).cbls = s.cbls := by
  simp [validateLace]

@[simp] theorem validateTrace_cbls (s : State) : (validateTrace s).cbls = s.cbls := by
  simp [validateTrace]

@[simp] theorem applyUnits_cbls (s : State) : (applyUnits s).cbls = s.cbls := by
  simp [applyUnits]

@[simp] theorem clearScratch_cbls (s old : State) : (clearScratch s old).cbls = s.cbls := by
  simp [clearScratch]

@[simp] theorem dropRecords_cbls (s old : State) : (dropRecords s old).cbls = s.cbls := by
  simp [dropRecords]

theorem closeChanged_cbls (s : State) : (closeChanged s).cbls = s.cbls :=
  foldl_cbls (fun s c => by simp) _ s

theorem takeForce_cbls (s : State) : (takeForce s).cbls = s.cbls :=
  foldl_cbls (fun s k => State.setRegF_cbls s k _) _ { s with tabF := s.tab }

@[simp] theorem grantMasks_cbls (s : State) : (grantMasks s).cbls = s.cbls :=
    foldl_keeps_view (fun b => State.cbls b.1) (fun b q => by dsimp only; split <;> simp) _ (s, 0)

@[simp] theorem nextStep_cbls (s : State) : (nextStep s).cbls = s.cbls := by
  simp [nextStep]

@[simp] theorem execOpening_keepsCbls (s : State) : KeepsCbls s (execOpening s) := by
  simp [execOpening]

@[simp] theorem advanceSchedule_cbls (s : State) : (advanceSchedule s).cbls = s.cbls := by
  show SameCbls s _
  unfold advanceSchedule
  extract_lets iv e i lim k n u
  have hu : SameCbls s u := State.bump_cbls ..
  have hepc : ∀ (t : State) e, SameCbls t { t with epc := e } := fun _ _ => rfl
  exact .ite (.refl s) (.ite (hepc s _) (hu.trans (hepc u _)))

@[simp] theorem ingest_cbls (s : State) (c : Nat) : (ingest s c).cbls = s.cbls := by
  unfold ingest
  dsimp only
  split
  · rfl
  · split
    · simp
    · split
      · simp
      · rw [tenWrite_cbls _ (strAgent_isCob _ _), foldl_cbls]
        · simp
        · intro s i
          split
          · simp
          · simp [tenRead_cbls rfl ‹_›]

@[simp] theorem openEpoch_cbls (s : State) (late : Bool) : (openEpoch s late).cbls = s.cbls := by
  simp [openEpoch]

@[simp] theorem execEpochOpen_keepsCbls (s : State) : KeepsCbls s (execEpochOpen s) := by
  simp [execEpochOpen]

@[simp] theorem execScheduleHoldRelease_keepsCbls (s : State) : KeepsCbls s (execScheduleHoldRelease s) := by
  simp [execScheduleHoldRelease]

/-! ### Clock -/

@[simp] theorem clkWritten_cbls (old s : State) : (clkWritten old s).cbls = s.cbls := by
  obtain ⟨h, -⟩ := clkWritten_movesClock old s
  rw [h]

@[simp] theorem noteOffset_cbls (s : State) (r : Nat) (offset : BitVec 16) : (noteOffset s r offset).cbls = s.cbls := by
  simp [noteOffset]

@[simp] theorem execRefCheckFail_keepsCbls (r : Fin 3) (cause : Nat) (offset : BitVec 16) (s : State) :
    KeepsCbls s (execRefCheckFail r cause offset s) := by
  simp [execRefCheckFail]

@[simp] theorem execRefQualify_keepsCbls (r : Fin 3) (offset : BitVec 16) (s : State) :
    KeepsCbls s (execRefQualify r offset s) := by
  simp [execRefQualify]

@[simp] theorem execRevertHoldoffExpiry_keepsCbls (s : State) : KeepsCbls s (execRevertHoldoffExpiry s) := by
  unfold execRevertHoldoffExpiry
  split
  · simp
  · split <;> simp

@[simp] theorem execRefSwitchEnd_keepsCbls (s : State) : KeepsCbls s (execRefSwitchEnd s) := by
  unfold execRefSwitchEnd
  split <;> simp

@[simp] theorem execClkCclkMWrite_keepsCbls (w : Word) (s : State) : KeepsCbls s (execClkCclkMWrite w s) := by
  unfold execClkCclkMWrite
  dsimp only
  split
  · simp
  · split
    · simp
    · split <;> simp

@[simp] theorem execFreqChangeEnd_keepsCbls (s : State) : KeepsCbls s (execFreqChangeEnd s) := by
  unfold execFreqChangeEnd
  split <;> simp

@[simp] theorem execTodIncrHiWrite_keepsCbls (w : Word) (s : State) : KeepsCbls s (execTodIncrHiWrite w s) := by
  simp [execTodIncrHiWrite]

@[simp] theorem execTodIncrLoWrite_keepsCbls (w : Word) (s : State) : KeepsCbls s (execTodIncrLoWrite w s) := by
  simp [execTodIncrLoWrite]

@[simp] theorem todArm_cbls (s : State) (m : Nat) : (todArm s m).cbls = s.cbls := by
  simp [todArm]

@[simp] theorem execTodApplyNone_keepsCbls (s : State) : KeepsCbls s (execTodApplyNone s) := by
  simp [execTodApplyNone]

@[simp] theorem execTodApplyNow_keepsCbls (s : State) : KeepsCbls s (execTodApplyNow s) := by
  simp [execTodApplyNow]

@[simp] theorem execTodApplyAtNextSecond_keepsCbls (s : State) : KeepsCbls s (execTodApplyAtNextSecond s) := by
  simp [execTodApplyAtNextSecond]

@[simp] theorem execTodApplyAtNextPps_keepsCbls (s : State) : KeepsCbls s (execTodApplyAtNextPps s) := by
  simp [execTodApplyAtNextPps]

@[simp] theorem execTodCancel_keepsCbls (s : State) : KeepsCbls s (execTodCancel s) := by
  simp [execTodCancel]

@[simp] theorem todSet_cbls (s : State) : (todSet s).cbls = s.cbls := by
  simp [todSet]

@[simp] theorem todStep_cbls (s : State) : (todStep s).cbls = s.cbls := by
  simp [todStep]

@[simp] theorem ppsRise_cbls (s : State) : (ppsRise s).cbls = s.cbls := by
  cases h : s.tod.riseAt <;> simp [ppsRise, h]

@[simp] theorem ppsEvent_cbls (s : State) : (ppsEvent s).cbls = s.cbls := by
  simp [ppsEvent]

@[simp] theorem todAdvance_cbls (s : State) : (todAdvance s).cbls = s.cbls := by
  simp [todAdvance]

@[simp] theorem execPpsOutFall_keepsCbls (s : State) : KeepsCbls s (execPpsOutFall s) := by
  simp [execPpsOutFall]

@[simp] theorem execPpsEdge_keepsCbls (high : Nat) (s : State) : KeepsCbls s (execPpsEdge high s) := by
  simp [execPpsEdge]

/-! ### Fetch -/

@[simp] theorem fifoAdd_cbls (s : State) (q : Nat) (c : Chain) : (fifoAdd s q c).cbls = s.cbls := by
  simp [fifoAdd]

@[simp] theorem submitRefuse_cbls (s : State) (p q : Nat) (c : Chain) (status epoch : Nat) :
    (submitRefuse s p q c status epoch).cbls = s.cbls := by
  simp [submitRefuse]

@[simp] theorem submitCheck_cbls (s : State) (p : Nat) (m : Msg) : (submitCheck s p m).cbls = s.cbls := by
  unfold submitCheck
  extract_lets q t c now
  split
  · simp
  · split
    · simp
    · split
      · simp
      · split
        · simp
        · simp [takeToken_cbls ‹_›]

@[simp] theorem execSubmit_keepsCbls (p : Fin 8) (m : Msg) (s : State) : KeepsCbls s (execSubmit p m s) := by
  simp [execSubmit]

@[simp] theorem recTouch_cbls (s : State) (t i : Nat) : (recTouch s t i).cbls = s.cbls := by
  unfold recTouch
  split
  · rfl
  · split <;> simp

@[simp] theorem readRecord_cbls (s : State) (q i tag chain : Nat) : (readRecord s q i tag chain).2.2.2.cbls = s.cbls := by
  unfold readRecord
  dsimp only
  split <;> simp

@[simp] theorem cacheRec_cbls (s : State) (t i pa : Nat) (r : LastRec) : (cacheRec s t i pa r).cbls = s.cbls := by
  simp [cacheRec]

@[simp] theorem setFetch_cbls (s : State) (q i : Nat) (f : Fetch) : (setFetch s q i f).cbls = s.cbls := by
  simp [setFetch]

@[simp] theorem recsTouch_cbls (s : State) (q : Nat) (w : List Nat) : (recsTouch s q w).cbls = s.cbls := by
  simp [recsTouch]

@[simp] theorem raiseBad_cbls (s : State) (q : Nat) : (raiseBad s q).cbls = s.cbls := by
  unfold raiseBad
  split <;> simp

@[simp] theorem execChainHeadTake_keepsCbls (q : Fin 64) (s : State) : KeepsCbls s (execChainHeadTake q s) := by
  unfold execChainHeadTake
  dsimp only
  split
  · simp
  · split
    · simp
    · split
      · simp
      · split <;> simp

@[simp] theorem dcacheTouch_cbls (s : State) (l : Nat) : (dcacheTouch s l).cbls = s.cbls := by
  simp [dcacheTouch]

@[simp] theorem dcacheClean_cbls (s : State) (l : Nat) : (dcacheClean s l).cbls = s.cbls := by
  simp [dcacheClean]

@[simp] theorem dcacheDrop_cbls (s : State) (l : Nat) : (dcacheDrop s l).cbls = s.cbls := by
  simp [dcacheDrop]

@[simp] theorem dcacheRead_cbls (s : State) (l : Nat) : (dcacheRead s l).2.cbls = s.cbls := by
  unfold dcacheRead
  split
  · rfl
  · dsimp only
    split <;> simp

theorem dcacheRead_cbls_of_eq {s t : State} {l : Nat} {o : Option (List Byte)} (h : dcacheRead s l = (o, t)) : t.cbls = s.cbls := by
  simpa [h] using dcacheRead_cbls s l

@[simp] theorem dcacheFill_cbls (s : State) (a : Agent) (l : Nat) : (dcacheFill s a l).cbls = s.cbls := by
  simp [dcacheFill]

@[simp] theorem execDescriptorFetch_keepsCbls (q : Fin 64) (s : State) : KeepsCbls s (execDescriptorFetch q s) := by
  unfold execDescriptorFetch
  dsimp only
  split
  · split
    · simp
    · split
      · simp
      · split <;> simp [dcacheRead_cbls_of_eq ‹_›]
  · simp

@[simp] theorem execDescriptorReturn_keepsCbls (q : Fin 64) (s : State) : KeepsCbls s (execDescriptorReturn q s) := by
  unfold execDescriptorReturn
  dsimp only
  split
  · simp
  · split
    · simp
    · split
      · simp
      · split
        · simp
        · split <;> simp

@[simp] theorem execLastRecordReturn_keepsCbls (q : Fin 64) (operand : Fin 5) (s : State) :
    KeepsCbls s (execLastRecordReturn q operand s) := by
  unfold execLastRecordReturn
  dsimp only
  split
  · simp
  · split <;> simp

/-! ### Issue -/

@[simp] theorem startIssue_keepsCbls {s : State} {k : Front → State} (hk : ∀ fr, (k fr).cbls = s.cbls) (op q : Nat) :
    KeepsCbls s (startIssue op q s k) := by
  unfold startIssue
  split
  · simp
  · rw [keepsCbls_ite]
    refine ⟨fun _ => by simp, fun _ => ?_⟩
    split <;> simp [hk]

@[simp] theorem grant_cbls (s : State) (q : Nat) : (grant s q).cbls = s.cbls := by
  simp [grant]

@[simp] theorem noteIssue_cbls (s : State) (q : Nat) : (noteIssue s q).cbls = s.cbls := by
  simp [noteIssue]

@[simp] theorem issueIt_cbls (s : State) (q : Nat) (fr : Front) (mk : Flight → Flight) : (issueIt s q fr mk).cbls = s.cbls := by
  simp [issueIt]

@[simp] theorem lastTakes_cbls (s : State) (q : Nat) : (lastTakes s q).cbls = s.cbls := by
  simp [lastTakes]

@[simp] theorem endChain_cbls (s : State) (q n : Nat) : (endChain s q n).cbls = s.cbls := by
  simp [endChain]

@[simp] theorem goTo_cbls (s : State) (q a tag : Nat) : (goTo s q a tag).cbls = s.cbls := by
  simp [goTo]

@[simp] theorem goLast_cbls (s : State) (q n tag : Nat) : (goLast s q n tag).cbls = s.cbls := by
  unfold goLast goWhere
  split <;> simp

@[simp] theorem goOn_cbls (s : State) (q : Nat) (fr : Front) : (goOn s q fr).cbls = s.cbls := by
  simp [goOn]

@[simp] theorem goNext_cbls (s : State) (q n : Nat) (w : List Nat) : (goNext s q n w).cbls = s.cbls := by
  simp [goNext]

@[simp] theorem execLoop_keepsCbls (q : Fin 64) (s : State) : KeepsCbls s (execLoop q s) := by
  simp [execLoop]

@[simp] theorem execBranch_keepsCbls (q : Fin 64) (s : State) : KeepsCbls s (execBranch q s) := by
  simp [execBranch]

@[simp] theorem execWait_keepsCbls (q : Fin 64) (s : State) : KeepsCbls s (execWait q s) := by
  simp [execWait]

@[simp] theorem tackConsume_cbls (s : State) (w : Waiting) : (tackConsume s w).cbls = s.cbls := by
  simp [tackConsume]

@[simp] theorem execWaitSatisfied_keepsCbls (q : Fin 64) (s : State) : KeepsCbls s (execWaitSatisfied q s) := by
  unfold execWaitSatisfied
  split
  · simp
  · split
    · simp
    · split <;> simp

@[simp] theorem execWaitTimeout_keepsCbls (q : Fin 64) (s : State) : KeepsCbls s (execWaitTimeout q s) := by
  unfold execWaitTimeout
  split
  · simp
  · split
    · simp
    · split <;> simp

@[simp] theorem startSet_keepsCbls {s : State} {k : Front → State} (hk : ∀ fr, (k fr).cbls = s.cbls) (kind q : Nat) :
    KeepsCbls s (startSet kind q s k) := by
  simp [startSet, hk]

@[simp] theorem execTackAdd_keepsCbls (q : Fin 64) (s : State) : KeepsCbls s (execTackAdd q s) := by
  simp [execTackAdd]

@[simp] theorem execTackWrite_keepsCbls (q : Fin 64) (s : State) : KeepsCbls s (execTackWrite q s) := by
  simp [execTackWrite]

@[simp] theorem execCntWrite_keepsCbls (q : Fin 64) (s : State) : KeepsCbls s (execCntWrite q s) := by
  simp [execCntWrite]

@[simp] theorem execCntAdd_keepsCbls (q : Fin 64) (s : State) : KeepsCbls s (execCntAdd q s) := by
  simp [execCntAdd]

@[simp] theorem srWrite_cbls (s : State) (due rank q r v : Nat) : (srWrite s due rank q r v).cbls = s.cbls := by
  simp [srWrite]

@[simp] theorem execSrWrite_keepsCbls (q : Fin 64) (s : State) : KeepsCbls s (execSrWrite q s) := by
  simp [execSrWrite]

@[simp] theorem execCmpConfig_keepsCbls (q : Fin 64) (s : State) : KeepsCbls s (execCmpConfig q s) := by
  simp [execCmpConfig]

@[simp] theorem execEpochEnd_keepsCbls (q : Fin 64) (s : State) : KeepsCbls s (execEpochEnd q s) := by
  simp [execEpochEnd]

/-! ### Data -/

@[simp] theorem issueData_keepsCbls (op : Nat) (q : Nat) (s : State) : KeepsCbls s (issueData op q s) := by
  simp [issueData]

@[simp] theorem srLoadRun_cbls (s : State) (q : Nat) (f : Flight) : (srLoadRun s q f).cbls = s.cbls := by
  rw [srLoadRun_eq]
  simp [(srLoaded_tileFrame s q f).cbls]

@[simp] theorem srStoreRun_cbls (s : State) (q : Nat) (f : Flight) : (srStoreRun s q f).cbls = s.cbls := by
  rw [srStoreRun_eq]
  simp [(srStored_tileFrame s q f).cbls]

@[simp] theorem srWork_cbls {run : State → Nat → Flight → State} (hrun : ∀ s q f, (run s q f).cbls = s.cbls)
    (op q : Nat) (s : State) : (srWork op q run s).cbls = s.cbls := by
  cases h : srOpen s op q <;> simp [srWork, h, hrun]

@[simp] theorem issueScalar_keepsCbls {run : State → Nat → Flight → State} (hrun : ∀ s q f, (run s q f).cbls = s.cbls)
    (op q : Nat) (s : State) : KeepsCbls s (issueScalar op run q s) := by
  cases h : srOpen s op q <;> simp [issueScalar, h, hrun]

/-! ### Retire -/

@[simp] theorem execTileDeal_keepsCbls (q : Fin 64) (s : State) : KeepsCbls s (execTileDeal q s) := by
  unfold execTileDeal
  split
  · simp
  · split <;> simp

@[simp] theorem notify_cbls (s : State) (q : Nat) (f : Flight) : (notify s q f).cbls = s.cbls := by
  simp [notify]

@[simp] theorem deliverOut_cbls (s : State) (q : Nat) (f : Flight) : (deliverOut s q f).cbls = s.cbls := by
  unfold deliverOut
  dsimp only
  split <;> simp

@[simp] theorem endAnswer_cbls (s : State) (q : Nat) (f : Flight) : (endAnswer s q f).cbls = s.cbls := by
  unfold endAnswer
  split
  · rfl
  · split <;> simp

@[simp] theorem execDescriptorRetire_keepsCbls (q : Fin 64) (s : State) : KeepsCbls s (execDescriptorRetire q s) := by
  unfold execDescriptorRetire
  split <;> simp

/-! ### Cobbler -/

/-! ### Regs -/

@[simp] theorem latchAt_cbls (s : State) (a : Nat) : (latchAt s a).cbls = s.cbls := by
  simp [latchAt]

@[simp] theorem rcReduce_cbls (s : State) (key a v : Nat) : (rcReduce s key a v).cbls = s.cbls := by
  simp [rcReduce]

@[simp] theorem addrRefused_cbls (s : State) : (addrRefused s).cbls = s.cbls := by
  simp [addrRefused]

@[simp] theorem readWord1_cbls (s : State) (addr : Nat) : (readWord1 s addr).cbls = s.cbls := by
  simp [readWord1]

@[simp] theorem execRcRead_keepsCbls (addr : Nat) (s : State) : KeepsCbls s (execRcRead addr s) := by
  simp [execRcRead]

@[simp] theorem execLatchedGroupRead_keepsCbls (addr : Nat) (s : State) : KeepsCbls s (execLatchedGroupRead addr s) := by
  simp [execLatchedGroupRead]

@[simp] theorem execGlbNodeWrite_keepsCbls (w : Word) (s : State) : KeepsCbls s (execGlbNodeWrite w s) := by
  simp [execGlbNodeWrite]

@[simp] theorem execFltPop_keepsCbls (s : State) : KeepsCbls s (execFltPop s) := by
  unfold execFltPop
  split
  · simp
  · split <;> simp

@[simp] theorem tabCmd_cbls (s : State) (wmask : BitVec 8) : (tabCmd s wmask).cbls = s.cbls := by
  simp [tabCmd]

@[simp] theorem tabStart_cbls (s : State) (write : Bool) (wmask : BitVec 8) : (tabStart s write wmask).cbls = s.cbls := by
  simp [tabStart]

@[simp] theorem execTableRead_keepsCbls (wmask : BitVec 8) (s : State) : KeepsCbls s (execTableRead wmask s) := by
  simp [execTableRead]

@[simp] theorem execTableWrite_keepsCbls (wmask : BitVec 8) (s : State) : KeepsCbls s (execTableWrite wmask s) := by
  simp [execTableWrite]

@[simp] theorem execTableCmdNone_keepsCbls (wmask : BitVec 8) (_op3 : Bool) (s : State) :
    KeepsCbls s (execTableCmdNone wmask _op3 s) := by
  simp [execTableCmdNone]

@[simp] theorem tabRc_cbls (s : State) (sel i : Nat) : (tabRc s sel i).cbls = s.cbls := by
  unfold tabRc
  split <;> simp

@[simp] theorem tabLoad_cbls (s : State) (sel i : Nat) : (tabLoad s sel i).cbls = s.cbls := by
  unfold tabLoad
  extract_lets ws
  rw [tabRc_cbls, foldl_cbls fun s w => by simp]

@[simp] theorem tabPerform_cbls (s : State) (a : TabAccess) : (tabPerform s a).cbls = s.cbls := by
  simp [tabPerform]

@[simp] theorem keyWrite_cbls (s : State) (i w v : Nat) : (keyWrite s i w v).cbls = s.cbls := by
  simp [keyWrite]

@[simp] theorem tabPut_cbls (s : State) (sel i w v : Nat) : (tabPut s sel i w v).cbls = s.cbls := by
  simp [tabPut]

@[simp] theorem tabStore_cbls (s : State) (a : TabAccess) : (tabStore s a).cbls = s.cbls := by
  simp [tabStore]

@[simp] theorem tabTick_cbls (s : State) : (tabTick s).cbls = s.cbls := by
  cases h : s.msp.tabAt <;> simp [tabTick, h]

@[simp] theorem after_cbls {s : State} {o : Out} (h : KeepsCbls s o) : (after s o).cbls = s.cbls := by
  unfold after
  split
  · exact keepsCbls_next.mp h
  · rfl

@[simp] theorem plainWrite_cbls (s : State) (a w : Nat) : (plainWrite s a w).cbls = s.cbls := by
  simp [plainWrite]

@[simp] theorem ppsoFollow_cbls (s : State) : (ppsoFollow s).cbls = s.cbls := by
  simp [ppsoFollow]

@[simp] theorem linkCtrl_cbls (s : State) (p : Fin 9) (w : Nat) : (linkCtrl s p w).cbls = s.cbls := by
  unfold linkCtrl
  extract_lets u
  have h : u.cbls = s.cbls := after_cbls (by split <;> simp)
  split
  · exact (after_cbls (execWltCtrlRetrain_keepsCbls p u)).trans h
  · exact h

@[simp] theorem todCtrl_cbls (s : State) (w : Nat) : (todCtrl s w).cbls = s.cbls := by
  unfold todCtrl
  extract_lets u
  have h : u.cbls = s.cbls := by simp [u]
  split
  · exact (after_cbls (execTodApplyNone_keepsCbls u)).trans h
  · exact (after_cbls (execTodApplyNow_keepsCbls u)).trans h
  · exact (after_cbls (execTodApplyAtNextSecond_keepsCbls u)).trans h
  · exact (after_cbls (execTodApplyAtNextPps_keepsCbls u)).trans h

@[simp] theorem regCommit_cbls (s : State) (a : Nat) (w : Word) : (regCommit s a w).cbls = s.cbls := by
  unfold regCommit
  split
  case h_15 =>
    extract_lets n p u
    have h : u.cbls = s.cbls := linkCtrl_cbls ..
    split
    · exact (after_cbls (execWltCtrlRelease_keepsCbls p u)).trans h
    · exact h
  case h_22 =>
    extract_lets n m
    split <;> simp
  all_goals simp

@[simp] theorem execRegisterWrite_keepsCbls (addr : Nat) (w : Word) (s : State) : KeepsCbls s (execRegisterWrite addr w s) := by
  simp [execRegisterWrite]

/-! ### Msp -/

@[simp] theorem frameEnds_cbls (s : State) (o : Nat) : (frameEnds s o).cbls = s.cbls := by
  simp [frameEnds]

@[simp] theorem frameErr_cbls (s : State) : (frameErr s).cbls = s.cbls := by
  simp [frameErr]

@[simp] theorem wrDiscard_cbls (s : State) : (wrDiscard s).cbls = s.cbls := by
  simp [wrDiscard]

@[simp] theorem countWord_cbls (s : State) : (countWord s).cbls = s.cbls := by
  simp [countWord]

@[simp] theorem writeWords_cbls (k : Nat) : ∀ (s : State) (a : Nat) (bs : List Byte) (n crc : Nat),
    (writeWords k s a bs n crc).cbls = s.cbls := by
  induction k with
  | zero => intro s a bs n crc; rfl
  | succ k ih => intro s a bs n crc; simp [writeWords, ih]

@[simp] theorem writeFrame_cbls (s : State) (bs : List Byte) (n : Nat) : (writeFrame s bs n).cbls = s.cbls := by
  simp [writeFrame]

@[simp] theorem fetchWord_cbls (s : State) (a : Nat) : (fetchWord s a).2.cbls = s.cbls := by
  simp [fetchWord, apply_ite Prod.snd]

@[simp] theorem readWords_cbls (k : Nat) : ∀ (s : State) (a n crc : Nat) (bad : Bool),
    (readWords k s a n crc bad).2.cbls = s.cbls := by
  induction k with
  | zero => intro s a n crc bad; rfl
  | succ k ih => intro s a n crc bad; cases bad <;> simp [readWords, ih, apply_ite Prod.snd]

@[simp] theorem readFrame_cbls (s : State) (bs : List Byte) (n : Nat) : (readFrame s bs n).cbls = s.cbls := by
  simp [readFrame]

@[simp] theorem statusFrame_cbls (s : State) (bs : List Byte) (n : Nat) : (statusFrame s bs n).cbls = s.cbls := by
  simp [statusFrame]

@[simp] theorem mspFrame_cbls (s : State) (bs : List Byte) (n : Nat) : (mspFrame s bs n).cbls = s.cbls := by
  unfold mspFrame
  split
  · simp
  · split
    · simp
    · split <;> simp

@[simp] theorem execMspWrite_keepsCbls (frame : List Byte) (extraBits : Nat) (s : State) :
    KeepsCbls s (execMspWrite frame extraBits s) := by
  simp [execMspWrite]

@[simp] theorem execMspRead_keepsCbls (frame : List Byte) (clocks : Nat) (s : State) :
    KeepsCbls s (execMspRead frame clocks s) := by
  simp [execMspRead]

@[simp] theorem execMspStatus_keepsCbls (frame : List Byte) (clocks : Nat) (s : State) :
    KeepsCbls s (execMspStatus frame clocks s) := by
  simp [execMspStatus]

/-! ### Fault -/

@[simp] theorem execFaultRingCopy_keepsCbls (s : State) : KeepsCbls s (execFaultRingCopy s) := by
  unfold execFaultRingCopy
  split <;> simp

@[simp] theorem execTraceRecordWrite_keepsCbls (s : State) : KeepsCbls s (execTraceRecordWrite s) := by
  unfold execTraceRecordWrite
  dsimp only
  split
  · simp
  · split
    · simp
    · split <;> simp

@[simp] theorem dropBatches_cbls (s : State) : (dropBatches s).cbls = s.cbls := by
  simp [dropBatches]

@[simp] theorem contain_cbls (s : State) (unit : Nat) : (contain s unit).cbls = s.cbls := by
  simp [contain]

@[simp] theorem execContainment_keepsCbls (unit : Fin 105) (s : State) : KeepsCbls s (execContainment unit s) := by
  simp [execContainment]

/-! ### Power -/

@[simp] theorem release_cbls (s : State) (straps : Nat) : (release s straps).cbls = s.cbls := by
  simp [release]

@[simp] theorem execPorstRelease_keepsCbls (straps : BitVec 4) (s : State) : KeepsCbls s (execPorstRelease straps s) := by
  simp [execPorstRelease]

@[simp] theorem execSupplyReturn_keepsCbls (s : State) : KeepsCbls s (execSupplyReturn s) := by
  simp [execSupplyReturn]

@[simp] theorem execPllLock_keepsCbls (s : State) : KeepsCbls s (execPllLock s) := by
  simp [execPllLock]

@[simp] theorem bistResult_cbls (s : State) (failed : List Nat) : (bistResult s failed).cbls = s.cbls := by
  simp [bistResult]

@[simp] theorem execBistComplete_keepsCbls (failed : List Nat) (s : State) : KeepsCbls s (execBistComplete failed s) := by
  unfold execBistComplete
  split <;> simp

@[simp] theorem execHbmTrainingComplete_keepsCbls (h : Fin 4) (ok : Bool) (s : State) :
    KeepsCbls s (execHbmTrainingComplete h ok s) := by
  simp [execHbmTrainingComplete]

@[simp] theorem execZeroFillComplete_keepsCbls (h : Fin 4) (s : State) : KeepsCbls s (execZeroFillComplete h s) := by
  simp [execZeroFillComplete]

@[simp] theorem portsOff_cbls (s : State) : (portsOff s).cbls = s.cbls := by
  simp [portsOff]

@[simp] theorem scrubStart_cbls (s : State) : (scrubStart s).cbls = s.cbls := by
  simp [scrubStart]

@[simp] theorem devReady_cbls (s : State) : (devReady s).cbls = s.cbls := by
  unfold devReady
  dsimp only
  split <;> simp

@[simp] theorem coldReady_cbls (s : State) : (coldReady s).cbls = s.cbls := by
  simp [coldReady]

@[simp] theorem execWarmrstAssert_keepsCbls (s : State) : KeepsCbls s (execWarmrstAssert s) := by
  unfold execWarmrstAssert
  split <;> simp

@[simp] theorem execWarmrstRelease_keepsCbls (s : State) : KeepsCbls s (execWarmrstRelease s) := by
  unfold execWarmrstRelease
  split <;> simp

@[simp] theorem execWarmSequenceEnd_keepsCbls (failed : List Nat) (s : State) : KeepsCbls s (execWarmSequenceEnd failed s) := by
  unfold execWarmSequenceEnd
  split <;> simp

@[simp] theorem execJtagAccess_keepsCbls (instr : Fin 4) (shift : List Bool) (s : State) :
    KeepsCbls s (execJtagAccess instr shift s) := by
  unfold execJtagAccess
  split
  · simp
  · split <;> simp

/-! ### Tick -/

@[simp] theorem srApply_cbls (s : State) (w : SrWr) : (srApply s w).cbls = s.cbls := by
  simp [srApply]

@[simp] theorem srApplyDue_cbls (s : State) : (srApplyDue s).cbls = s.cbls := by
  simp [srApplyDue]

@[simp] theorem tackApply_cbls (s : State) (u : TackUpd) : (tackApply s u).cbls = s.cbls := by
  simp [tackApply]

@[simp] theorem tackApplyDue_cbls (s : State) : (tackApplyDue s).cbls = s.cbls := by
  simp [tackApplyDue]

@[simp] theorem fxApply_cbls (s : State) (f : Fx) : (fxApply s f).cbls = s.cbls := by
  cases f <;> simp [fxApply]

@[simp] theorem ccBegins_cbls (s : State) : (ccBegins s).cbls = s.cbls := by
  simp [ccBegins]

@[simp] theorem waitFollow_cbls (s : State) : (waitFollow s).cbls = s.cbls := by
  simp [waitFollow]

@[simp] theorem commitFollow_cbls (s : State) : (commitFollow s).cbls = s.cbls := by
  simp [commitFollow]

end Sys2Proof.Machine
end

section
/-! PROOFS. Every Cobbler keeps sixteen 32-bit registers and an aligned PC (R186, R187, R190). -/

namespace Sys2Proof.Machine

/-! ### The records kept -/

/-- Sixteen 32-bit registers and a PC that is a multiple of 4. -/
def cblFit (c : CblSt) : Bool := c.regs.length == 16 && c.regs.all (fun r => decide (r < 2 ^ 32)) && c.pc % 4 == 0

theorem cblFit_iff {c : CblSt} : cblFit c = true ↔ c.regs.length = 16 ∧ (∀ r ∈ c.regs, r < 2 ^ 32) ∧ c.pc % 4 = 0 := by
  simp [cblFit, and_assoc]

/-- What a step has to keep of the Cobblers, it keeps. -/
def KeepsFit (s t : State) : Prop := cblOk s = true → cblOk t = true

/-- Every state a command answers keeps it. -/
def AnswersFit (s : State) (o : Out) : Prop := ∀ t, o = .next t → KeepsFit s t

theorem cblOk_fit {s : State} (h : cblOk s = true) (k : Nat) : cblFit (s.cbl k) = true := by
  rcases mget_mem (fun _ => ({} : CblSt)) s.cbls k with hmem | hdefault
  · exact List.all_eq_true.1 h _ hmem
  · rw [State.cbl, hdefault]
    rfl

theorem mem_merase {α : Type} {m : List (Nat × α)} {k : Nat} {e : Nat × α} (h : e ∈ merase m k) : e ∈ m := by
  induction m with
  | nil => exact h
  | cons x m ih =>
    rw [merase] at h
    split at h
    · exact List.mem_cons_of_mem x (ih h)
    · exact (List.mem_cons.1 h).elim (fun he => he ▸ List.mem_cons_self) fun hm => List.mem_cons_of_mem x (ih hm)

theorem mem_minsert {α : Type} {m : List (Nat × α)} {k : Nat} {v : α} {e : Nat × α} (h : e ∈ minsert m k v) : e = (k, v) ∨ e ∈ m := by
  induction m with
  | nil => exact .inl (List.mem_singleton.1 h)
  | cons x m ih =>
    rw [minsert] at h
    split at h
    · exact List.mem_cons.1 h
    · rcases List.mem_cons.1 h with rfl | hm
      · exact .inr List.mem_cons_self
      · exact (ih hm).imp_right (List.mem_cons_of_mem x)

/-- What is listed after a write was listed before or is what was written. -/
theorem mem_mset {α : Type} [DecidableEq α] {d : Nat → α} {m : List (Nat × α)} {k : Nat} {v : α} {e : Nat × α}
    (h : e ∈ mset d m k v) : e = (k, v) ∨ e ∈ m := by
  unfold mset at h
  split at h
  · exact .inr (mem_merase h)
  · exact (mem_minsert h).imp_right mem_merase

namespace KeepsFit

theorem refl (s : State) : KeepsFit s s := id

theorem trans {s t u : State} (h : KeepsFit s t) (k : KeepsFit t u) : KeepsFit s u := k ∘ h

theorem ite {s t u : State} {c : Prop} [Decidable c] (ht : KeepsFit s t) (hu : KeepsFit s u) : KeepsFit s (if c then t else u) := by
  split <;> assumption

theorem of_cbls {s t : State} (h : t.cbls = s.cbls) : KeepsFit s t := by
  unfold KeepsFit cblOk
  rw [h]
  exact id

/-- What every step of a fold keeps, its end keeps. -/
theorem foldl {α : Type} {f : State → α → State} (hf : ∀ s x, KeepsFit s (f s x)) : ∀ (l : List α) (s : State), KeepsFit s (l.foldl f s)
  | [], s => refl s
  | x :: l, s => (hf s x).trans (foldl hf l (f s x))

/-- The same for a fold that carries more than the state. -/
theorem foldl_by {α β : Type} {f : β → α → β} {st : β → State} (hf : ∀ b x, KeepsFit (st b) (st (f b x))) :
    ∀ (l : List α) (b : β), KeepsFit (st b) (st (l.foldl f b))
  | [], b => refl (st b)
  | x :: l, b => (hf b x).trans (foldl_by hf l (f b x))

/-- A record is replaced by one that is as fit. -/
theorem setCbl {s : State} {k : Nat} {c : CblSt} (hc : cblFit (s.cbl k) = true → cblFit c = true) : KeepsFit s (s.setCbl k c) := by
  intro h
  refine List.all_eq_true.2 fun e he => ?_
  have he' : e ∈ mset (fun _ => ({} : CblSt)) s.cbls k c := he
  rcases mem_mset he' with rfl | hm
  · exact hc (cblOk_fit h k)
  · exact List.all_eq_true.1 h e hm

theorem modCbl {s : State} {k : Nat} {f : CblSt → CblSt} (hf : cblFit (s.cbl k) = true → cblFit (f (s.cbl k)) = true) :
    KeepsFit s (s.modCbl k f) := setCbl hf

end KeepsFit

theorem answersFit_next {s t : State} (h : KeepsFit s t) : AnswersFit s (.next t) := fun _ ht => Host.Outcome.next.inj ht ▸ h

theorem answersFit_ite {s : State} {c : Prop} [Decidable c] {o p : Out} (ho : AnswersFit s o) (hp : AnswersFit s p) :
    AnswersFit s (if c then o else p) := by
  split <;> assumption

@[simp] theorem KeepsCbls.answersFit {s : State} {o : Out} (h : KeepsCbls s o) : AnswersFit s o := fun t ht => .of_cbls (h t ht)

/-! ### What a program's record notes -/

/-- Cobbler records of which that of Cobbler `x.1` notes the fault codes `x.2`. -/
def noteWrote (m : List (Nat × CblSt)) (x : Nat × List Nat) : List (Nat × CblSt) :=
  mset (fun _ => {}) m x.1 { mget (fun _ => {}) m x.1 with wrote := x.2 }

/-- Between `s` and `t` nothing of the Cobblers has changed but which fault codes their programs have written: what the access of a
requester does to them (R239, R397). -/
def CobNoted (s t : State) : Prop := ∃ l : List (Nat × List Nat), t.cbls = l.foldl noteWrote s.cbls

namespace CobNoted

theorem of_cbls {s t : State} (h : t.cbls = s.cbls) : CobNoted s t := ⟨[], h⟩

theorem refl (s : State) : CobNoted s s := of_cbls rfl

theorem trans {s t u : State} (h : CobNoted s t) (k : CobNoted t u) : CobNoted s u := by
  obtain ⟨l, h⟩ := h
  obtain ⟨m, k⟩ := k
  exact ⟨l ++ m, by rw [k, h, List.foldl_append]⟩

theorem ite {s t u : State} {c : Prop} [Decidable c] (ht : CobNoted s t) (hu : CobNoted s u) : CobNoted s (if c then t else u) := by
  split <;> assumption

theorem noted (s : State) (k : Nat) (codes : List Nat) : CobNoted s (s.setCbl k { s.cbl k with wrote := codes }) := ⟨[(k, codes)], rfl⟩

/-- What every step of a fold leaves of the Cobblers, its end leaves. -/
theorem foldl {α : Type} {f : State → α → State} (hf : ∀ s x, CobNoted s (f s x)) : ∀ (l : List α) (s : State), CobNoted s (l.foldl f s)
  | [], s => refl s
  | x :: l, s => (hf s x).trans (foldl hf l (f s x))

/-- The same for a fold that carries more than the state. -/
theorem foldl_by {α β : Type} {f : β → α → β} {st : β → State} (hf : ∀ b x, CobNoted (st b) (st (f b x))) :
    ∀ (l : List α) (b : β), CobNoted (st b) (st (l.foldl f b))
  | [], b => refl (st b)
  | x :: l, b => (hf b x).trans (foldl_by hf l (f b x))

theorem keepsFit {s t : State} (h : CobNoted s t) : KeepsFit s t := by
  obtain ⟨l, h⟩ := h
  have hkeeps : ∀ (l : List (Nat × List Nat)) (u : State), KeepsFit u { u with cbls := l.foldl noteWrote u.cbls } := by
    intro l
    induction l with
    | nil => exact fun u => .refl u
    | cons x l ih =>
      intro u
      have hone : KeepsFit u (u.setCbl x.1 { u.cbl x.1 with wrote := x.2 }) := .setCbl id
      exact hone.trans (ih _)
  exact (hkeeps l s).trans (.of_cbls h)

end CobNoted

/-! ### Accesses of a requester -/

/-- R239: the record of a Cobbler's program is noted in its Cobbler. -/
theorem agentOnce_cobNoted (s : State) (a : Agent) (code d : Nat) : CobNoted s (agentOnce s a code d) := by
  cases ha : a.isCob with
  | false => exact .of_cbls (agentOnce_cbls s ha code d)
  | true =>
    unfold agentOnce
    split
    · exact .of_cbls (flightOnce_cbls ..)
    · extract_lets c s1 s2
      have h1 : CobNoted s s1 := .noted s _ _
      have h2 : CobNoted s1 s2 := .of_cbls (recordFault_cbls s1 _)
      refine .ite (.refl s) (h1.trans (h2.trans ?_))
      split
      · exact .refl s2
      · exact .of_cbls (by simp)
    all_goals
      rename_i h
      rw [Agent.isCob, h] at ha
      cases ha

theorem readLine_cobNoted (s : State) (a : Agent) (l : Nat) : CobNoted s (readLine s a l).2.2 := by
  unfold readLine
  extract_lets st ag c s1 s2
  have h1 : CobNoted s s1 := .of_cbls (by simp [s1])
  have hrewrite : ∀ u e, CobNoted u (rewrite u a l e) := fun u e => .ite (.refl u) (.of_cbls rfl)
  split
  · exact agentOnce_cobNoted s ag _ _
  · split
    · exact .refl s
    · exact .trans (.of_cbls (State.bump_cbls ..)) (hrewrite _ _)
    · exact h1.trans ((agentOnce_cobNoted s1 ag _ _).trans (hrewrite _ _))
    · exact .of_cbls (State.bump_cbls ..)

theorem readPhys_cobNoted (s : State) (a : Agent) (pa n : Nat) : CobNoted s (readPhys s a pa n).2.2 := by
  refine CobNoted.foldl_by (β := List Byte × Bool × State) (st := fun b => b.2.2) (fun b i => ?_) _ ([], false, s)
  exact readLine_cobNoted b.2.2 a _

theorem placeLine_cbls (s : State) (p : CellWr) (c : Cell) : (placeLine s p c).cbls = s.cbls := rfl

theorem writeLine_cobNoted (s : State) (a : Agent) (l : Nat) (new : List (Option Byte)) (poison : Bool) (mask : List Byte) :
    CobNoted s (writeLine s a l new poison mask) := by
  unfold writeLine
  extract_lets st ag c p s1 s2 s3
  have h2 : CobNoted s s2 := .of_cbls rfl
  have h3 : CobNoted s2 s3 := by
    refine .ite (.refl s2) ?_
    split
    · exact .refl s2
    · exact .of_cbls (State.bump_cbls ..)
    · exact .trans (.of_cbls (by simp)) (agentOnce_cobNoted _ ag _ _)
    · exact .trans (.of_cbls (by simp)) (agentOnce_cobNoted _ ag _ _)
  clear_value s3 s2 p
  refine .ite (agentOnce_cobNoted s ag _ _) (h2.trans (h3.trans (.of_cbls ?_)))
  simp [placeLine_cbls]

theorem parityCheck_cobNoted (s : State) (a : Agent) (w : Nat) : CobNoted s (parityCheck s a w).1 := by
  unfold parityCheck
  split
  · extract_lets p ag s1 s2
    have h1 : CobNoted s s1 := .of_cbls (by simp [s1])
    have h2 : CobNoted s1 s2 := by
      unfold s2
      split
      · exact .refl s1
      · exact agentOnce_cobNoted s1 ag _ _
    exact h1.trans (h2.trans (.of_cbls (StoreFrame.cbls (core := fun _ => ()) (poisonGroup_storeFrame s2 _))))
  · exact .refl s

theorem touch_cbls (s : State) (w : Nat) : (touch s w).cbls = s.cbls := StoreFrame.cbls (core := fun _ => ()) (touch_storeFrame s w)

theorem readWord_cobNoted (s : State) (a : Agent) (w : Nat) : CobNoted s (readWord s a w).2.2 := by
  unfold readWord
  extract_lets p ag s1 k c s2
  have h1 : CobNoted s s1 := .of_cbls (touch_cbls s w)
  have h2 : CobNoted s1 s2 := .of_cbls (by simp [s2])
  have hk : CobNoted s1 k.1 := parityCheck_cobNoted s1 a w
  clear_value k s2 c
  split
  · exact agentOnce_cobNoted s ag _ _
  · split
    · exact h1.trans hk
    · split
      · exact h1
      · split
        · exact h1
        · exact h1.trans (.of_cbls (State.bump_cbls ..))
        · refine h1.trans (h2.trans ?_)
          dsimp only
          split
          · exact .refl s2
          · exact agentOnce_cobNoted s2 ag _ _
        · exact h1.trans (.of_cbls (State.bump_cbls ..))

theorem readSram_cobNoted (s : State) (a : Agent) (addr n : Nat) : CobNoted s (readSram s a addr n).2.2 := by
  refine CobNoted.foldl_by (β := List Byte × Bool × State) (st := fun b => b.2.2) (fun b i => ?_) _ ([], false, s)
  exact readWord_cobNoted b.2.2 a _

theorem placeWord_cbls (s : State) (p : CellWr) (c : Cell) : (placeWord s p c).cbls = s.cbls := rfl

theorem writeWord_cobNoted (s : State) (a : Agent) (w : Nat) (new : List (Option Byte)) (poison : Bool) (mask : List Byte) :
    CobNoted s (writeWord s a w new poison mask) := by
  unfold writeWord
  extract_lets pl ag r p s1 k s2 c s3
  have h1 : CobNoted s s1 := .of_cbls (touch_cbls s w)
  have h2 : CobNoted s1 s2 := parityCheck_cobNoted s1 a w
  have hcount : ∀ (c : Prop) [Decidable c] (u : State), CobNoted u (if c then u.bump 0x04B0 1 else u) := fun c _ u =>
    .ite (.of_cbls (State.bump_cbls ..)) (.refl u)
  have hput : ∀ (u : State) c, CobNoted u (placeWord u p c) := fun u c => .of_cbls (placeWord_cbls u p c)
  have h3 : CobNoted s2 s3 := by
    refine .ite (.trans (.of_cbls (State.bump_cbls ..)) (agentOnce_cobNoted _ ag _ _)) (.ite (.refl s2) ?_)
    split
    · exact .refl s2
    · exact .of_cbls (State.bump_cbls ..)
    · exact .trans (.of_cbls (by simp)) (agentOnce_cobNoted _ ag _ _)
    · exact .trans (.of_cbls (by simp)) (agentOnce_cobNoted _ ag _ _)
  clear_value s3 s2 p
  refine .ite (agentOnce_cobNoted s ag _ _) (h1.trans (.ite ((hcount _ s1).trans (hput _ _)) (h2.trans (h3.trans ((hcount _ s3).trans (hput _ _))))))

theorem writeSram_cobNoted (s : State) (a : Agent) (addr : Nat) (new : List (Option Byte)) (poison : Bool) :
    CobNoted s (writeSram s a addr new poison) :=
  .foldl (f := fun u (x : Nat × List (Option Byte)) => writeWord u a x.1 x.2 poison) (fun u x => writeWord_cobNoted u a x.1 x.2 poison []) _ s

theorem tenWrite_cobNoted (s : State) (a : Agent) (t addr : Nat) (new : List (Option Byte)) (poison : Bool) :
    CobNoted s (tenWrite s a t addr new poison).1 := by
  have hreq : ∀ w ls, CobNoted s (reqWrite s a t w ls).1 := fun w ls => by
    unfold reqWrite
    extract_lets first addr prot s1 s2
    have h1 : CobNoted s s1 := .ite (.of_cbls rfl) (.refl s)
    have h2 : CobNoted s1 s2 := .foldl (f := fun u (x : LineWr) => writeLine u a x.line x.new x.poison x.mask)
      (fun u x => writeLine_cobNoted u a x.line x.new x.poison x.mask) ls s1
    clear_value s2
    split
    · exact .trans (.of_cbls (State.modTen_cbls ..)) (agentOnce_cobNoted _ a _ _)
    · exact h1.trans (h2.trans (.ite (.of_cbls (jrnlLines_cbls ..)) (.refl s2)))
  unfold tenWrite
  split
  · exact .refl s
  · split
    · exact .refl s
    · split
      · exact .refl s
      · exact hreq _ _

theorem tenRead_cobNoted {s : State} {a : Agent} {t addr n : Nat} {r : List Byte × Bool × State} (h : tenRead s a t addr n = some r) :
    CobNoted s r.2.2 := by
  obtain ⟨pa, -, rfl⟩ := Option.map_eq_some_iff.mp h
  exact readPhys_cobNoted s a pa n

/-! ### The end of a program, and abandonment -/

theorem cblEnd_keepsFit (s : State) (k : Nat) : KeepsFit s (cblEnd s k) := by
  unfold cblEnd
  extract_lets c s1
  have h1 : KeepsFit s s1 := .setCbl id
  exact .ite (.refl s) (.ite (h1.trans (.of_cbls (cblCount_cbls s1 _ _))) h1)

@[simp] theorem cblRecord_cbls (s : State) (k code level detail : Nat) : (cblRecord s k code level detail).cbls = s.cbls :=
  (cblRecord_engineFrame s k code level detail).cbls

theorem cblFaultAt_keepsFit (s : State) (k code pc addr : Nat) : KeepsFit s (cblFaultAt s k code pc addr) :=
  .trans (.of_cbls (cblRecord_cbls ..)) (cblEnd_keepsFit _ k)

theorem cblFault_keepsFit (s : State) (k code addr : Nat) : KeepsFit s (cblFault s k code addr) := cblFaultAt_keepsFit s k code _ addr

theorem abandonTenant_keepsFit (s : State) (t : Nat) : KeepsFit s (abandonTenant s t) := by
  unfold abandonTenant
  extract_lets s1 s2 s3
  have h2 : KeepsFit s s2 := .of_cbls (by simp [s2, s1])
  have h3 : KeepsFit s2 s3 := .foldl cblEnd_keepsFit _ s2
  exact h2.trans (h3.trans (.of_cbls (evAbandon_cbls s3 t)))

theorem deadlineRecords_cbls (s : State) (t level : Nat) : (deadlineRecords s t level).cbls = s.cbls := by
  simp [deadlineRecords]

theorem deadlinePasses_keepsFit (s : State) (level : Nat) : KeepsFit s (deadlinePasses s level) := by
  have habandon : KeepsFit s (deadlineAbandon s level) := by
    refine .foldl (fun u t => .ite (.refl u) (.ite (.of_cbls (evAbandon_cbls u t)) ?_)) _ s
    extract_lets v e
    have hv : KeepsFit u v := .trans (.of_cbls (deadlineRecords_cbls u t level)) (abandonTenant_keepsFit _ t)
    clear_value v e
    exact hv.trans (.of_cbls rfl)
  unfold deadlinePasses
  extract_lets old s1
  exact .ite habandon (.trans habandon (.of_cbls (State.setBit_cbls ..)))

@[simp] theorem execDeadlineExpiry_answersFit (s : State) : AnswersFit s (execDeadlineExpiry s) := by
  unfold execDeadlineExpiry
  extract_lets _ s1 _
  have h1 : KeepsFit s s1 := .of_cbls rfl
  have hcause : ∀ e, KeepsFit s1 (deadlinePasses { s1 with epc := e } 3) := fun e =>
    KeepsFit.trans (t := { s1 with epc := e }) (.of_cbls rfl) (deadlinePasses_keepsFit _ 3)
  have htrigger : KeepsFit s (trigger s1 5).1 := h1.trans (.of_cbls (trigger_cbls s1 5))
  clear_value s1
  refine answersFit_ite (answersFit_next (.refl s)) ?_
  split
  · exact answersFit_next (htrigger.trans (deadlinePasses_keepsFit _ 4))
  · refine answersFit_ite (answersFit_next (htrigger.trans (deadlinePasses_keepsFit _ 4))) (answersFit_ite (answersFit_next h1) ?_)
    exact answersFit_next (h1.trans (hcause _))
  · exact answersFit_next h1

theorem sampleKnot_keepsFit (s : State) (t : Nat) : KeepsFit s (sampleKnot s t) := by
  have hdeclare : KeepsFit s (declareKnot s t) := by
    unfold declareKnot
    extract_lets held cbls s1 s2
    have h1 : KeepsFit s s1 := .foldl (fun u x => .of_cbls (by dsimp only; split <;> simp)) held s
    have h2 : KeepsFit s1 s2 := .foldl (fun u k => .of_cbls (cblRecord_cbls ..)) cbls s1
    exact h1.trans (h2.trans (.trans (.of_cbls (State.setBit_cbls ..)) (abandonTenant_keepsFit _ t)))
  unfold sampleKnot
  exact .ite (.refl s) (.ite (.of_cbls (State.modTen_cbls ..)) (.ite hdeclare (.of_cbls (State.modTen_cbls ..))))

@[simp] theorem execKnotSample_answersFit (s : State) : AnswersFit s (execKnotSample s) :=
  answersFit_ite (answersFit_next (.refl s))
    (answersFit_next (.trans (.of_cbls (State.setCc_cbls ..)) (.foldl sampleKnot_keepsFit _ _)))

/-! ### Boundaries and resets -/

@[simp] theorem execClear_answersFit (s : State) : AnswersFit s (execClear s) := by
  refine answersFit_ite (answersFit_next (.refl s)) (answersFit_next fun _ => ?_)
  show (s.cbls.map fun e => (e.1, clearCbl e.2)).all (fun e => cblFit e.2) = true
  rw [List.all_map]
  exact List.all_eq_true.2 fun _ _ => rfl

theorem applyHolders_keepsFit (s : State) : KeepsFit s (applyHolders s) :=
  .foldl (fun u _ => .ite (.refl u) (.trans (.of_cbls (clearValid_cbls ..)) (.modCbl id))) _ s

@[simp] theorem execApplyStaged_answersFit (s : State) : AnswersFit s (execApplyStaged s) := by
  have hsettle : ∀ u old, KeepsFit u (settleForce u old) := fun u old => by
    unfold settleForce
    exact .trans (.of_cbls (by simp)) (applyHolders_keepsFit _)
  have happlied : ∀ old, KeepsFit old (appliedFrom old) := fun old =>
    .trans (.of_cbls (takeForce_cbls old)) (.trans (hsettle _ old) (.of_cbls (by simp [appliedFrom])))
  have happly : KeepsFit s (appliedFrom (closeChanged s)) := .trans (.of_cbls (closeChanged_cbls s)) (happlied _)
  unfold appliedFrom closeChanged takeForce settleForce at happly
  exact answersFit_ite (answersFit_next (.refl s)) (answersFit_next happly)

/-- In reset no Cobbler's record differs from what an unlisted one reads as. -/
theorem KeepsFit.of_nil {s t : State} (h : t.cbls = []) : KeepsFit s t := fun _ => by
  rw [cblOk, h]
  rfl

@[simp] theorem execWarmResetPoint_answersFit (s : State) : AnswersFit s (execWarmResetPoint s) := by
  have hwarm : (warmState s).cbls = [] := by simp [warmState]
  exact answersFit_ite (answersFit_next (.of_nil hwarm)) (answersFit_next (.refl s))

/-! ### Registers and the PC -/

/-- R186, R189: a register takes a value modulo 2^32. -/
theorem cSet_keepsFit (s : State) (k i v : Nat) : KeepsFit s (cSet s k i v) := by
  refine .ite (.refl s) (.modCbl fun h => ?_)
  obtain ⟨hlen, hregs, hpc⟩ := cblFit_iff.1 h
  refine cblFit_iff.2 ⟨by simpa using hlen, fun r hr => ?_, hpc⟩
  rcases List.mem_or_eq_of_mem_set hr with hmem | rfl
  · exact hregs r hmem
  · exact Nat.mod_lt _ (by decide)

theorem cBusy_keepsFit (s : State) (k i at_ : Nat) : KeepsFit s (cBusy s k i at_) := .modCbl id

/-- R192: the program goes on at an aligned PC. -/
theorem cGo_keepsFit (s : State) (k : Nat) {pc : Nat} (wait : Nat) (hpc : cblOk s = true → pc % 4 = 0) : KeepsFit s (cGo s k pc wait) := by
  intro hok
  have hset : KeepsFit s (s.setCbl k { s.cbl k with pc := pc, issueAt := s.now + wait }) := .setCbl fun h => by
    obtain ⟨hlen, hregs, -⟩ := cblFit_iff.1 h
    exact cblFit_iff.2 ⟨hlen, hregs, hpc hok⟩
  refine KeepsFit.trans hset ?_ hok
  exact .ite (cblFault_keepsFit _ k _ _) (.ite (.refl _) (.modCbl id))

theorem cNextIn_keepsFit (s : State) (k wait : Nat) : KeepsFit s (cNextIn s k wait) :=
  cGo_keepsFit s k wait fun h => by
    have hpc := (cblFit_iff.1 (cblOk_fit h k)).2.2
    omega

theorem cNext_keepsFit (s : State) (k : Nat) : KeepsFit s (cNext s k) := cNextIn_keepsFit s k 1

theorem cJump_keepsFit (s : State) (k target : Nat) : KeepsFit s (cJump s k target) := by
  unfold cJump
  split
  · exact cblFault_keepsFit s k _ _
  · exact cGo_keepsFit s k 2 fun _ => not_not.1 ‹_›

/-! ### The issue of an instruction -/

theorem cTouch_keepsFit (s : State) (k : Nat) : KeepsFit s (cTouch s k) := by
  have hcount : ∀ f : CblSt → CblSt, (∀ c, cblFit (f c) = cblFit c) → KeepsFit s ((s.bump 0x04B8 1).modCbl k f) := fun f hf =>
    .trans (.of_cbls (State.bump_cbls ..)) (.modCbl fun h => (hf _).trans h)
  unfold cTouch
  extract_lets c
  refine .ite (.refl s) ?_
  split
  · exact .refl s
  · split
    · exact .refl s
    · exact hcount _ fun _ => rfl
    · exact hcount _ fun _ => rfl

theorem cIssue_keepsFit (s : State) (k w : Nat) : KeepsFit s (cIssue s k w) := by
  unfold cIssue
  extract_lets c nx s0 s1 s2 s3
  have h0 : KeepsFit s s0 := .modCbl id
  have h1 : KeepsFit s s1 := .ite (.refl s) (.ite h0 (h0.trans (.of_cbls (cblCount_cbls s0 _ _))))
  have h2 : KeepsFit s1 s2 := by
    unfold s2
    split
    · exact cBusy_keepsFit s1 k _ _
    · exact .refl s1
  have h3 : KeepsFit s2 s3 := .ite (.modCbl id) (.refl s2)
  exact h1.trans (h2.trans (h3.trans (.ite (.modCbl id) (.refl s3))))

@[simp] theorem cStep_answersFit {body : State → Nat → State} (hbody : ∀ s w, KeepsFit s (body s w)) (op k : Nat) (s : State) :
    AnswersFit s (cStep op k s body) := by
  unfold cStep
  split
  · exact answersFit_next (cTouch_keepsFit s k)
  · refine answersFit_ite (answersFit_next (.refl s)) (answersFit_ite (answersFit_next (cblFault_keepsFit s k _ _))
      (answersFit_ite (answersFit_next (.refl s)) (answersFit_next ?_)))
    exact (cTouch_keepsFit s k).trans ((cIssue_keepsFit _ k _).trans (hbody _ _))

/-! ### The instructions -/

/-- The result of an instruction is written and the program goes on to the next one. -/
theorem cSetNext_keepsFit (s : State) (k i v : Nat) : KeepsFit s (cNext (cSet s k i v) k) :=
  (cSet_keepsFit s k i v).trans (cNext_keepsFit _ k)

@[simp] theorem cAluR_answersFit (op k : Nat) (s : State) (f : Nat → Nat → Nat) : AnswersFit s (cAluR op k s f) :=
  cStep_answersFit (fun u _ => cSetNext_keepsFit u k _ _) op k s

@[simp] theorem cAluI_answersFit (op k : Nat) (s : State) (f : Nat → Nat → Nat) : AnswersFit s (cAluI op k s f) :=
  cStep_answersFit (fun u _ => cSetNext_keepsFit u k _ _) op k s

@[simp] theorem execCblLui_answersFit (k : Fin 16) (s : State) : AnswersFit s (execCblLui k s) :=
  cStep_answersFit (fun u _ => cSetNext_keepsFit u k _ _) _ k s

@[simp] theorem cBranch_answersFit (op k : Nat) (s : State) (f : Nat → Nat → Bool) : AnswersFit s (cBranch op k s f) :=
  cStep_answersFit (fun u _ => .ite (cJump_keepsFit u k _) (cNext_keepsFit u k)) op k s

@[simp] theorem execCblJal_answersFit (k : Fin 16) (s : State) : AnswersFit s (execCblJal k s) :=
  cStep_answersFit (fun u _ => (cSet_keepsFit u k _ _).trans (cJump_keepsFit _ k _)) _ k s

@[simp] theorem execCblJalr_answersFit (k : Fin 16) (s : State) : AnswersFit s (execCblJalr k s) :=
  cStep_answersFit (fun u _ => (cSet_keepsFit u k _ _).trans (cJump_keepsFit _ k _)) _ k s

theorem cHalted_keepsFit (before s : State) (k : Nat) : KeepsFit s (cHalted before s k) := .ite (cblEnd_keepsFit s k) (.refl s)

theorem cThenIn_keepsFit (before s : State) (k wait : Nat) : KeepsFit s (cThenIn before s k wait) :=
  (cHalted_keepsFit before s k).trans (.ite (cNextIn_keepsFit _ k wait) (.refl _))

@[simp] theorem cLoad_answersFit (op n : Nat) (sgn : Bool) (k : Nat) (s : State) : AnswersFit s (cLoad op n sgn k s) := by
  refine cStep_answersFit (fun u w => ?_) op k s
  extract_lets a r v
  split
  · exact cblFault_keepsFit u k _ _
  · have hr : KeepsFit u r.2.2 := (readSram_cobNoted u _ _ _).keepsFit
    exact hr.trans (.ite (cblFault_keepsFit _ k _ _) (cSetNext_keepsFit _ k _ _))

@[simp] theorem cStore_answersFit (op n : Nat) (k : Nat) (s : State) : AnswersFit s (cStore op n k s) := by
  refine cStep_answersFit (fun u w => ?_) op k s
  dsimp only
  split
  · exact cblFault_keepsFit u k _ _
  · exact (writeSram_cobNoted u _ _ _ _).keepsFit.trans (cThenIn_keepsFit u _ k 1)

@[simp] theorem execCblLwc_answersFit (k : Fin 16) (s : State) : AnswersFit s (execCblLwc k s) := by
  refine cStep_answersFit (fun u w => ?_) _ k s
  extract_lets a
  split
  · exact cblFault_keepsFit u k _ _
  · extract_lets r
    have hr : KeepsFit u r.2.2 := (readSram_cobNoted u _ _ _).keepsFit
    refine hr.trans (.ite (cblFault_keepsFit _ k _ _) ?_)
    exact (cSet_keepsFit _ k _ _).trans ((cBusy_keepsFit _ k _ _).trans (cNext_keepsFit _ k))

@[simp] theorem execCblSwc_answersFit (k : Fin 16) (s : State) : AnswersFit s (execCblSwc k s) := by
  refine cStep_answersFit (fun u w => ?_) _ k s
  dsimp only
  split
  · exact cblFault_keepsFit u k _ _
  · exact (writeSram_cobNoted u _ _ _ _).keepsFit.trans (cThenIn_keepsFit u _ k 1)

theorem copyWords_keepsFit (s : State) (k src dst n : Nat) : KeepsFit s (copyWords s k src dst n).2 := by
  refine KeepsFit.foldl_by (β := Option Nat × State) (st := Prod.snd) (fun b i => ?_) _ (none, s)
  split
  · exact .refl b.2
  · extract_lets r
    have hr : KeepsFit b.2 r.2.2 := (readSram_cobNoted b.2 _ _ _).keepsFit
    split
    · exact hr
    · exact hr.trans (writeSram_cobNoted _ _ _ _ _).keepsFit

@[simp] theorem cCopy_answersFit (op : Nat) (get : Bool) (k : Nat) (s : State) : AnswersFit s (cCopy op get k s) := by
  refine cStep_answersFit (fun u w => ?_) op k s
  extract_lets n a l
  split
  · exact cblFault_keepsFit u k _ _
  · split
    · exact cblFault_keepsFit u k _ _
    · extract_lets r
      have hr : KeepsFit u r.2 := by
        unfold r
        split <;> exact copyWords_keepsFit u k _ _ _
      clear_value r
      split
      · exact hr.trans (cblFault_keepsFit _ k _ _)
      · exact hr.trans (cThenIn_keepsFit u _ k _)

theorem readHbmParts_cobNoted (s : State) (k id t a n : Nat) : CobNoted s (readHbmParts s k id t a n).2.2 := by
  refine CobNoted.foldl_by (β := List Byte × Option Nat × State) (st := fun b => b.2.2) (fun b c => ?_) _ ([], none, s)
  dsimp only
  split
  · exact .refl b.2.2
  · exact tenRead_cobNoted ‹_›

theorem cAddOp_keepsFit (s : State) (k : Nat) (o : CblOp) : KeepsFit s (cAddOp s k o) := .modCbl id

@[simp] theorem cRead_answersFit (op : Nat) (wide : Bool) (k : Nat) (s : State) : AnswersFit s (cRead op wide k s) := by
  refine cStep_answersFit (fun u w => ?_) op k s
  extract_lets n l
  split
  · exact cblFault_keepsFit u k _ _
  · split
    · exact cblFault_keepsFit u k _ _
    · exact (readHbmParts_cobNoted u k _ _ _ _).keepsFit.trans ((cAddOp_keepsFit _ k _).trans (cNext_keepsFit _ k))

@[simp] theorem cWrite_answersFit (op : Nat) (wide : Bool) (k : Nat) (s : State) : AnswersFit s (cWrite op wide k s) := by
  refine cStep_answersFit (fun u w => ?_) op k s
  extract_lets n l id d
  split
  · exact cblFault_keepsFit u k _ _
  · split
    · exact cblFault_keepsFit u k _ _
    · have hd : KeepsFit u d.2.2 := by
        unfold d
        split
        · exact (readSram_cobNoted u _ _ _).keepsFit
        · exact .refl u
      clear_value d
      refine hd.trans (.ite (cblFault_keepsFit _ k _ _) ?_)
      extract_lets s1
      have h1 : KeepsFit d.2.2 s1 := cAddOp_keepsFit _ k _
      exact h1.trans <| (tenWrite_cobNoted _ _ _ _ _ _).keepsFit.trans (cThenIn_keepsFit u _ k _)

theorem cComplete_keepsFit (s : State) (k : Nat) (o : CblOp) : KeepsFit s (cComplete s k o) := by
  unfold cComplete
  extract_lets s0 n s1
  have h0 : KeepsFit s s0 := .modCbl id
  have h1 : KeepsFit s0 s1 := .ite (.refl s0) (writeSram_cobNoted s0 _ _ _ _).keepsFit
  refine h0.trans (.ite (.refl s0) (.ite (.ite (cblFaultAt_keepsFit s0 k _ _ _) (cSet_keepsFit s0 k _ _)) (h1.trans ?_)))
  exact .ite (cblFaultAt_keepsFit s1 k _ _ _) (cHalted_keepsFit s0 s1 k)

@[simp] theorem execCblHbmComplete_answersFit (k : Fin 16) (n : Nat) (s : State) : AnswersFit s (execCblHbmComplete k n s) := by
  unfold execCblHbmComplete
  split
  · exact answersFit_next (.refl s)
  · exact answersFit_ite (answersFit_next (.refl s)) (answersFit_next (cComplete_keepsFit s k _))

@[simp] theorem execCblFence_answersFit (k : Fin 16) (s : State) : AnswersFit s (execCblFence k s) :=
  cStep_answersFit (fun u _ => cNext_keepsFit u k) _ k s

/-- A tack of another tenant halts the program (R198). -/
theorem tackRefused_keepsFit (s : State) (k t : Nat) : KeepsFit s (cblEnd (cblRecord s k 0x05 1 t) k) :=
  .trans (.of_cbls (cblRecord_cbls ..)) (cblEnd_keepsFit _ k)

@[simp] theorem cTset_answersFit (b k : Nat) (s : State) : AnswersFit s (cTset b k s) := by
  unfold cTset
  split
  · refine answersFit_ite (answersFit_next (.refl s)) (cStep_answersFit (fun u w => .ite (tackRefused_keepsFit u k _) ?_) _ k s)
    exact .trans (.of_cbls (tackUpdate_cbls ..)) (cNext_keepsFit _ k)
  · exact answersFit_next (.refl s)

@[simp] theorem execCblTwait_answersFit (k : Fin 16) (s : State) : AnswersFit s (execCblTwait k s) :=
  cStep_answersFit (fun u _ => .ite (tackRefused_keepsFit u k _) (.modCbl id)) _ k s

theorem cLeave_keepsFit (s : State) (k v : Nat) : KeepsFit s (cLeave s k v) := by
  unfold cLeave
  extract_lets r
  have hleft : KeepsFit s (s.modCbl k fun c => { c with twait := none }) := .modCbl id
  exact hleft.trans <| (cSet_keepsFit _ k r v).trans ((cBusy_keepsFit _ k r _).trans (cNext_keepsFit _ k))

@[simp] theorem execCblTwaitSatisfied_answersFit (k : Fin 16) (s : State) : AnswersFit s (execCblTwaitSatisfied k s) := by
  unfold execCblTwaitSatisfied
  split
  · exact answersFit_next (.refl s)
  · exact answersFit_ite (answersFit_next (.trans (.of_cbls (tackConsume_cbls s _)) (cLeave_keepsFit _ k 1))) (answersFit_next (.refl s))

@[simp] theorem execCblTwaitTimeout_answersFit (k : Fin 16) (s : State) : AnswersFit s (execCblTwaitTimeout k s) := by
  unfold execCblTwaitTimeout
  split
  · exact answersFit_next (.refl s)
  · exact answersFit_ite (answersFit_next (cLeave_keepsFit s k 0)) (answersFit_next (.refl s))

/-- What is left to a later cc (R199, R200). -/
theorem cLaterNext_keepsFit (s : State) (k : Nat) (l : CblLate) : KeepsFit s (cNext (cLater s k l) k) :=
  KeepsFit.trans (.modCbl (f := fun c => { c with late := c.late ++ [l] }) id) (cNext_keepsFit _ k)

@[simp] theorem execCblSrrd_answersFit (k : Fin 16) (s : State) : AnswersFit s (execCblSrrd k s) :=
  cStep_answersFit (fun u _ => .ite (cblFault_keepsFit u k _ _) (cLaterNext_keepsFit u k _)) _ k s

@[simp] theorem execCblSrwr_answersFit (k : Fin 16) (s : State) : AnswersFit s (execCblSrwr k s) :=
  cStep_answersFit (fun u _ => .ite (cblFault_keepsFit u k _ _) (.trans (.of_cbls (srWrite_cbls ..)) (cNext_keepsFit _ k))) _ k s

@[simp] theorem execCblSubmit_answersFit (k : Fin 16) (s : State) : AnswersFit s (execCblSubmit k s) :=
  cStep_answersFit (fun u _ => .ite (cblFault_keepsFit u k _ _) (cLaterNext_keepsFit u k _)) _ k s

@[simp] theorem execCblHalt_answersFit (k : Fin 16) (s : State) : AnswersFit s (execCblHalt k s) :=
  cStep_answersFit (fun u _ => cblEnd_keepsFit u k) _ k s

@[simp] theorem execCblLineFill_answersFit (k : Fin 16) (s : State) : AnswersFit s (execCblLineFill k s) := by
  unfold execCblLineFill
  extract_lets c
  split
  · exact answersFit_next (.refl s)
  · extract_lets r lines again
    have hr : KeepsFit s r.2.2 := by
      unfold r
      split
      · exact .refl s
      · split
        · exact .of_cbls (dcacheRead_cbls_of_eq ‹_›)
        · extract_lets x
          have hread : KeepsFit s x.2.2 := .trans (.of_cbls (dcacheRead_cbls_of_eq ‹_›)) (readPhys_cobNoted _ _ _ _).keepsFit
          exact hread.trans (.ite (.refl _) (.of_cbls (dcacheFill_cbls ..)))
    clear_value r
    refine answersFit_ite (answersFit_next (.refl s)) (answersFit_ite (answersFit_next ?_) (answersFit_next ?_))
    · exact hr.trans (cblFault_keepsFit _ k _ _)
    · exact hr.trans (.modCbl id)

@[simp] theorem execCblIllegal_answersFit (k : Fin 16) (s : State) : AnswersFit s (execCblIllegal k s) := by
  unfold execCblIllegal
  split
  · exact answersFit_next (cTouch_keepsFit s k)
  · exact answersFit_ite (answersFit_next (.refl s)) (answersFit_next ((cTouch_keepsFit s k).trans (cblFault_keepsFit _ k _ _)))

/-! ### The launch -/

/-- R186, R201: a launched program starts at PC 0 with its two parameters in c1 and c2. -/
theorem launchOne_keepsFit (s : State) (q n : Nat) (w ps : List Nat) (k : Nat) : KeepsFit s (launchOne s q n w ps k) := by
  refine .ite (.of_cbls (by simp)) (.modCbl fun _ => cblFit_iff.2 ⟨by simp, fun r hr => ?_, rfl⟩)
  rcases List.mem_or_eq_of_mem_set hr with hmem | rfl
  · rcases List.mem_or_eq_of_mem_set hmem with hzero | rfl
    · rw [List.eq_of_mem_replicate hzero]
      decide
    · exact bits_lt _ 31 0
  · exact bits_lt _ 63 32

theorem startIssue_answersFit {s : State} {k : Front → State} (hk : ∀ fr, KeepsFit s (k fr)) (op q : Nat) :
    AnswersFit s (startIssue op q s k) := by
  unfold startIssue
  split
  · exact answersFit_next (.refl s)
  · refine answersFit_ite (answersFit_next (.refl s)) ?_
    split
    · exact answersFit_next (.of_cbls (by simp))
    · exact answersFit_next (hk _)

@[simp] theorem execCobbler_answersFit (q : Fin 64) (s : State) : AnswersFit s (execCobbler q s) := by
  refine startIssue_answersFit (fun fr => ?_) _ q
  extract_lets mask ks s1 n len s2
  have h1 : KeepsFit s s1 := .of_cbls (issueIt_cbls ..)
  have h2 : KeepsFit s1 s2 := .ite (.of_cbls (by simp)) (.foldl (fun u k => launchOne_keepsFit u q n fr.w fr.ps k) ks s1)
  exact h1.trans (h2.trans (.of_cbls (goOn_cbls ..)))

/-! ### One cc -/

theorem cblLate_keepsFit (s : State) (k : Nat) (l : CblLate) : KeepsFit s (cblLate s k l) :=
  .ite (.trans (.ite (.of_cbls (fifoAdd_cbls ..)) (.refl s)) (cSet_keepsFit _ k _ _)) (cSet_keepsFit s k _ _)

theorem lateStep_keepsFit (s : State) (k : Nat) : KeepsFit s (lateStep s k) := by
  unfold lateStep
  extract_lets due
  exact .ite (.refl s) (KeepsFit.trans (.modCbl (f := fun c => { c with late := c.late.filter fun l => !decide (l.due ≤ s.now) }) id)
    (.foldl (fun u l => cblLate_keepsFit u k l) due _))

theorem cblLateDue_keepsFit (s : State) : KeepsFit s (cblLateDue s) := .ite (.refl s) (.foldl lateStep_keepsFit _ s)

theorem fenceHalt_keepsFit (s : State) : KeepsFit s (fenceHalt s) :=
  .ite (.refl s) (.foldl (fun u k => .ite (cblFault_keepsFit u k _ _) (.refl u)) _ s)

theorem tick_keepsFit (s : State) : KeepsFit s (tick s) := by
  have hends : KeepsFit s (srApplyDue (ccBegins (ccEnds s))) := .of_cbls (by simp [ccEnds])
  have hwindow : ∀ u, KeepsFit u (commitFollow (ccFollows (tabTick (tackApplyDue u)))) := fun u => .of_cbls (by simp [ccFollows])
  have hfence : ∀ u, KeepsFit u (fenceHalt (waitFollow u)) := fun u => .trans (.of_cbls (waitFollow_cbls u)) (fenceHalt_keepsFit _)
  have hsettles : ∀ u, KeepsFit u (ccSettles u) := fun u => .ite ((hfence u).trans (.of_cbls (coldReady_cbls _))) (hfence u)
  rw [tick_eq]
  exact hends.trans ((cblLateDue_keepsFit _).trans ((hwindow _).trans (hsettles _)))

/-! ### One step -/

@[simp] theorem execPorstAssert_answersFit (s : State) : AnswersFit s (execPorstAssert s) := answersFit_next (.of_nil rfl)

@[simp] theorem execSupplyFault_answersFit (s : State) : AnswersFit s (execSupplyFault s) := answersFit_next (.of_nil rfl)

@[simp] theorem execTodRollover_answersFit (s : State) : AnswersFit s (execTodRollover s) :=
  answersFit_next (.ite (tick_keepsFit s) (.refl s))

/-- No command breaks the form of a Cobbler's registers and PC: each operation by its own lemma, the ones that are one line of a
family (named here) by the family's. -/
theorem exec_answersFit (i : Instr) (s : State) : AnswersFit s (exec i s) := by
  unfold exec
  split
  all_goals simp [execSrLoad, execSrStore, execAdd, execSub, execMul, execDiv, execMax, execMin, execFma, execOpAnd, execOpOr,
    execOpXor, execShl, execShr, execPadd, execPmul, execSelect, execClamp, execAbs, execNeg, execOpNot, execRelu, execLrelu, execFloor,
    execCeil, execRint, execSign, execExp, execExp2, execLog, execLog2, execRecip, execRsqrt, execSqrt, execTanh, execSigmoid, execGelu,
    execSilu, execErf, execSin, execCos, execSoftplus, execCmp, execRsum, execRcsum, execRmax, execRmin, execRargmax, execRargmin,
    execRlse, execRsumsq, execRcount, execScansum, execScanmax, execCompact, execTopk, execLnorm, execRmsnorm, execSoftmax, execGnorm,
    execConvert, execQuantMx, execFinish, execFill, execIota, execCopy, execPermute, execGather, execScatter, execEvEmit, execEvCount,
    execCblAdd, execCblSub, execCblAnd, execCblOr, execCblXor, execCblSll, execCblSrl, execCblSra, execCblSlt, execCblSltu, execCblMin,
    execCblMax, execCblMul, execCblMulh, execCblDiv, execCblDivu, execCblRem, execCblRemu, execCblAddi, execCblAndi, execCblOri,
    execCblXori, execCblSlli, execCblSrli, execCblSrai, execCblSlti, execCblLb, execCblLbu, execCblLh, execCblLhu, execCblLw, execCblSb,
    execCblSh, execCblSw, execCblCget, execCblCput, execCblLwh, execCblSwh, execCblHget, execCblHput, execCblBeq, execCblBne,
    execCblBlt, execCblBge, execCblBltu, execCblBgeu, execCblTsetAdd, execCblTsetWrite]

/-- Settles O59: no operation leaves a record of a Cobbler that is not fit. -/
theorem stepKeepsCobblerRegisters : Obligations.StepKeepsCobblerRegisters := by
  unfold Obligations.StepKeepsCobblerRegisters
  intro s t hok h
  unfold step at h
  split at h
  next hp =>
    obtain rfl := Host.Outcome.next.inj h
    exact tick_keepsFit s hok
  next c cs hp => exact exec_answersFit c { s with pending := cs } t h hok

end Sys2Proof.Machine
end

section
/-! PROOFS. Arithmetic, branches and jumps of a Cobbler's program (R186, R189, R190, R192). -/

namespace Sys2Proof.Machine

/-! ### Numbers and words -/

theorem toSigned_eq_toInt {w : Nat} (hw : 0 < w) (n : Nat) : toSigned w n = (BitVec.ofNat w n).toInt := by
  rw [BitVec.toInt_eq_toNat_cond, BitVec.toNat_ofNat, toSigned]
  have hpow : 2 ^ w = 2 * 2 ^ (w - 1) := by rw [← Nat.pow_succ', Nat.succ_eq_add_one, Nat.sub_add_cancel hw]
  refine if_congr ?_ rfl rfl
  generalize n % 2 ^ w = m
  omega

theorem ofSigned_eq_toNat (w : Nat) (i : Int) : ofSigned w i = (BitVec.ofInt w i).toNat := (BitVec.toNat_ofInt i).symm

theorem ofNat_ofSigned (i : Int) : BitVec.ofNat 32 (ofSigned 32 i) = BitVec.ofInt 32 i := by
  rw [ofSigned_eq_toNat, BitVec.ofNat_toNat, BitVec.setWidth_eq]

theorem sx_toNat (x : BitVec 32) : sx x.toNat = x.toInt := by
  rw [sx, toSigned_eq_toInt (by decide), BitVec.ofNat_toNat, BitVec.setWidth_eq]

theorem ofNat_bits_low (n hi : Nat) : BitVec.ofNat (hi + 1) (bits n hi 0) = BitVec.ofNat (hi + 1) n := by
  refine BitVec.eq_of_toNat_eq ?_
  simp [bits]

theorem cImm_eq (w : Nat) : cImm w = (BitVec.ofNat 18 w).toInt := by
  rw [cImm, toSigned_eq_toInt (by decide), ofNat_bits_low w 17]

theorem cImm22_eq (w : Nat) : cImm22 w = (BitVec.ofNat 22 w).toInt := by
  rw [cImm22, toSigned_eq_toInt (by decide), ofNat_bits_low w 21]

/-- The low five bits of an immediate are its shift count. -/
theorem bits_shift (w : Nat) : bits w 4 0 = w % 32 := rfl

theorem ofInt_toNat_add (x : BitVec 32) (i : Int) : BitVec.ofInt 32 (x.toNat + i) = x + BitVec.ofInt 32 i := by
  rw [BitVec.ofInt_add, BitVec.ofInt_natCast, BitVec.ofNat_toNat, BitVec.setWidth_eq]

theorem ofNat_sub (x y : BitVec 32) : BitVec.ofNat 32 (ofSigned 32 ((x.toNat : Int) - y.toNat)) = x - y := by
  rw [ofNat_ofSigned]
  refine BitVec.eq_of_toNat_eq ?_
  rw [BitVec.toNat_ofInt, BitVec.toNat_sub]
  omega

theorem ofNat_shiftLeft (x : BitVec 32) (n : Nat) : BitVec.ofNat 32 (x.toNat <<< n) = x <<< n := by
  refine BitVec.eq_of_toNat_eq ?_
  rw [BitVec.toNat_ofNat, BitVec.toNat_shiftLeft]

theorem ofNat_shiftRight (x : BitVec 32) (n : Nat) : BitVec.ofNat 32 (x.toNat >>> n) = x >>> n := by
  refine BitVec.eq_of_toNat_eq ?_
  rw [BitVec.toNat_ofNat, BitVec.toNat_ushiftRight, Nat.mod_eq_of_lt]
  exact (Nat.shiftRight_le _ _).trans_lt x.isLt

theorem ofNat_sraW (x : BitVec 32) (n : Nat) : BitVec.ofNat 32 (sraW x.toNat n) = x.sshiftRight (n % 32) := by
  rw [sraW, ofNat_ofSigned, sx_toNat, BitVec.sshiftRight_eq, Int.shiftRight_eq_div_pow, Int.fdiv_eq_ediv_of_nonneg _ (by positivity)]

theorem ofNat_sraW_imm (x : BitVec 32) (w : Nat) : BitVec.ofNat 32 (sraW x.toNat (bits w 4 0)) = x.sshiftRight (w % 32) := by
  rw [ofNat_sraW, bits_shift, Nat.mod_mod]

/-- The word 1 or 0 of a comparison. -/
theorem ofNat_flag (b : Bool) (p : Prop) [Decidable p] (h : p ↔ b = true) : BitVec.ofNat 32 (if p then 1 else 0) = if b then 1 else 0 := by
  rw [if_congr h rfl rfl]
  cases b <;> rfl

theorem sx_lt_iff (x y : BitVec 32) : sx x.toNat < sx y.toNat ↔ x.slt y = true := by
  rw [sx_toNat, sx_toNat, BitVec.slt_iff_toInt_lt]

theorem toNat_lt_iff (x y : BitVec 32) : x.toNat < y.toNat ↔ x.ult y = true := (decide_eq_true_iff).symm

theorem toNat_beq (x y : BitVec 32) : (x.toNat == y.toNat) = (x == y) := by
  rw [Bool.eq_iff_iff, beq_iff_eq, beq_iff_eq, BitVec.toNat_inj]

theorem toNat_ble (x y : BitVec 32) : decide (y.toNat ≤ x.toNat) = !x.ult y := by
  rw [BitVec.ult, ← decide_not, decide_eq_decide, not_lt]

theorem ofNat_toNat_32 (x : BitVec 32) : BitVec.ofNat 32 x.toNat = x := by
  rw [BitVec.ofNat_toNat, BitVec.setWidth_eq]

/-- The lesser or the greater of two words. -/
theorem ofNat_pick (b : Bool) (p : Prop) [Decidable p] (h : p ↔ b = true) (x y : BitVec 32) :
    BitVec.ofNat 32 (if p then x.toNat else y.toNat) = if b then x else y := by
  rw [if_congr h rfl rfl]
  cases b <;> exact ofNat_toNat_32 _

theorem ofNat_mulh (x y : BitVec 32) : BitVec.ofNat 32 (ofSigned 32 (Int.fdiv (sx x.toNat * sx y.toNat) (2 ^ 32 : Nat))) =
    (x.signExtend 64 * y.signExtend 64).extractLsb' 32 32 := by
  rw [ofNat_ofSigned, sx_toNat, sx_toNat, Int.fdiv_eq_ediv_of_nonneg _ (by positivity)]
  refine BitVec.eq_of_toNat_eq ?_
  rw [BitVec.signExtend, BitVec.signExtend, ← BitVec.ofInt_mul, BitVec.extractLsb'_toNat, BitVec.toNat_ofInt, BitVec.toNat_ofInt]
  generalize x.toInt * y.toInt = i
  rw [Nat.shiftRight_eq_div_pow]
  omega

theorem toNat_eq_zero (y : BitVec 32) : y.toNat = 0 ↔ y = 0 := BitVec.toNat_inj (y := 0)

theorem ofNat_divS (x y : BitVec 32) : BitVec.ofNat 32 (divS x.toNat y.toNat) = if y = 0 then 0xFFFFFFFF#32 else x.sdiv y := by
  rw [divS, if_congr (toNat_eq_zero y) rfl rfl]
  split
  · rfl
  · rw [ofNat_ofSigned, sx_toNat, sx_toNat, ← BitVec.toInt_inj, BitVec.toInt_ofInt, BitVec.toInt_sdiv]

theorem ofNat_divU (x y : BitVec 32) : BitVec.ofNat 32 (divU x.toNat y.toNat) = if y = 0 then 0xFFFFFFFF#32 else x / y := by
  rw [divU, if_congr (toNat_eq_zero y) rfl rfl]
  split
  · rfl
  · rw [← BitVec.toNat_udiv, ofNat_toNat_32]

theorem ofNat_remS (x y : BitVec 32) : BitVec.ofNat 32 (remS x.toNat y.toNat) = if y = 0 then x else x.srem y := by
  rw [remS, if_congr (toNat_eq_zero y) rfl rfl]
  split
  · exact ofNat_toNat_32 x
  · rw [ofNat_ofSigned, sx_toNat, sx_toNat, ← BitVec.toInt_srem, BitVec.ofInt_toInt]

theorem ofNat_remU (x y : BitVec 32) : BitVec.ofNat 32 (remU x.toNat y.toNat) = if y = 0 then x else x % y := by
  rw [remU, if_congr (toNat_eq_zero y) rfl rfl]
  split
  · exact ofNat_toNat_32 x
  · rw [← BitVec.toNat_umod, ofNat_toNat_32]

end Sys2Proof.Machine
end

section
/-! PROOFS. Each register operation, branch and jump of Table 09.3 (R189, R190). -/

namespace Sys2Proof.Machine

/-! ### The effect of an instruction that writes a register and goes on -/

/-- A command answers a state in which Cobbler `k` has written `v` to `rd` and stands at `pc`. -/
def CblGives (s : State) (o : Out) (k rd : Nat) (v : BitVec 32) (pc : Nat) : Prop :=
  ∃ t, o = .next t ∧ cblWrote s t k rd v ∧ cblStep s t k pc

/-- R192: a program of which an instruction has changed only its own record goes on at `pc`. -/
theorem cGo_steps {s v : State} {k pc : Nat} (wait : Nat) (hrunning : (s.cbl k).running = true) (hframe : IssueFrame s v)
    (hothers : ∀ j, j ≠ k → v.cbl j = s.cbl j) (hlen : (v.cbl k).len = (s.cbl k).len)
    (hruns : (v.cbl k).running = (s.cbl k).running) (hclean : cblPath s k pc = true → ProgramFrame s v) :
    cblStep s (cGo v k pc wait) k pc := by
  obtain ⟨hgo, hmoved, hpc, -⟩ := cGo_moves v k pc wait
  have hwork : WorkFrame s (cGo v k pc wait) := hframe.workFrame.trans hgo
  refine ⟨hpc, fun j hj => (hmoved.2 j hj).trans (hothers j hj), hwork.mem, hwork.tacks, hwork.tackUpd, hwork.srPend, fun hpath => ?_⟩
  have himage : pc < 128 * (v.cbl k).len := by
    rw [hlen]
    exact of_decide_eq_true (Bool.and_eq_true_iff.1 hpath).1
  obtain ⟨hgoes, hstill⟩ := cGo_in_image v k wait himage
  have hall : ProgramFrame s (cGo v k pc wait) := (hclean hpath).trans hgoes
  refine ⟨hstill.trans (hruns.trans hrunning), ?_⟩
  unfold ProgramFrame at hall
  rw [hall]

theorem cSet_others (s : State) {k j : Nat} (rd v : Nat) (hj : j ≠ k) : (cSet s k rd v).cbl j = s.cbl j := by
  unfold cSet
  split
  · rfl
  · rw [State.modCbl_cbl, if_neg (Ne.symm hj)]

theorem cReadied_regs_length {s : State} (hok : cblOk s = true) (k w : Nat) : ((cReadied s k w).cbl k).regs.length = 16 := by
  rw [(cReadied_cbl s k w).1.moved.regs, cblOk_regs hok]

/-- The state in which the instruction `w` has issued and written a register. -/
def cWritten (s : State) (k w rd v : Nat) : State := cSet (cReadied s k w) k rd v

theorem cWritten_cbl (s : State) (k w rd v : Nat) :
    (cWritten s k w rd v).cbl k = { (cReadied s k w).cbl k with regs := ((cWritten s k w rd v).cbl k).regs } := cSet_cbl _ k rd v

theorem cWritten_pc (s : State) (k w rd v : Nat) : ((cWritten s k w rd v).cbl k).pc = (s.cbl k).pc := by
  rw [cWritten_cbl, cReadied_pc]

theorem cWritten_frame (s : State) (k w rd v : Nat) : IssueFrame s (cWritten s k w rd v) :=
  (cReadied_frame s k w).trans (cSet_programFrame _ k rd v).issueFrame

theorem cWritten_others (s : State) {k j : Nat} (w rd v : Nat) (hj : j ≠ k) : (cWritten s k w rd v).cbl j = s.cbl j :=
  (cSet_others _ rd v hj).trans ((cReadied_cbl s k w).2 j hj)

/-- R186: registers that hold a write's value modulo 2^32, and otherwise what they held. -/
theorem cWritten_wrote {s t : State} {k : Nat} (hok : cblOk s = true) (w rd v : Nat)
    (ht : (t.cbl k).regs = ((cWritten s k w rd v).cbl k).regs) : cblWrote s t k rd (BitVec.ofNat 32 v) := fun i hi => by
  rw [cReg_congr ht, cWritten, cSet_reg (cReadied_regs_length hok k w) rd v hi, cReadied_reg, BitVec.toNat_ofNat]

/-- R190, R192: the register is written and the program goes on at `pc`. -/
theorem cWritten_goes {s : State} {k op w : Nat} (hok : cblOk s = true) (h : cblReady s k op w = true) (rd v pc wait : Nat) :
    cblWrote s (cGo (cWritten s k w rd v) k pc wait) k rd (BitVec.ofNat 32 v) ∧ cblStep s (cGo (cWritten s k w rd v) k pc wait) k pc := by
  have hissued : CblIssued (s.cbl k) ((cReadied s k w).cbl k) := (cReadied_cbl s k w).1
  have hset := cWritten_cbl s k w rd v
  refine ⟨cWritten_wrote hok w rd v (cGo_moves _ k pc wait).2.1.1.regs, ?_⟩
  refine cGo_steps wait (cWord_running (cblReady_word h)) (cWritten_frame s k w rd v) (fun j hj => cWritten_others s w rd v hj)
    (by rw [hset, hissued]) (by rw [hset, hissued]) fun hpath => ?_
  exact (cReadied_clean w hpath).trans (cSet_programFrame _ k rd v)

/-- A result written and the next instruction in order. -/
theorem cWritten_next {s : State} {k op w : Nat} (hok : cblOk s = true) (h : cblReady s k op w = true) (rd v : Nat) :
    CblGives s (.next (cNext (cWritten s k w rd v) k)) k rd (BitVec.ofNat 32 v) (nextPc s k) := by
  refine ⟨_, rfl, ?_⟩
  rw [cNext_eq, nextPc, cWritten_pc]
  exact cWritten_goes hok h rd v _ 1

/-- R186: the word a register holds. -/
def cVal (s : State) (k i : Nat) : BitVec 32 := BitVec.ofNat 32 (cReg s k i)

theorem cVal_toNat {s : State} (hok : cblOk s = true) (k i : Nat) : (cVal s k i).toNat = cReg s k i := by
  refine (BitVec.toNat_ofNat _ _).trans (Nat.mod_eq_of_lt ?_)
  unfold cReg
  split
  · decide
  · by_cases hi : i < (s.cbl k).regs.length
    · rw [List.getD_eq_getElem _ _ hi]
      exact (cblFit_iff.1 (cblOk_fit hok k)).2.1 _ (List.getElem_mem hi)
    · rw [List.getD_eq_default _ _ (Nat.not_lt.1 hi)]
      decide

/-! ### Operations -/

theorem ofNat_add (x y : BitVec 32) : BitVec.ofNat 32 (x.toNat + y.toNat) = x + y := by
  rw [BitVec.ofNat_add, ofNat_toNat_32, ofNat_toNat_32]

theorem ofNat_mul (x y : BitVec 32) : BitVec.ofNat 32 (x.toNat * y.toNat) = x * y := by
  rw [BitVec.ofNat_mul, ofNat_toNat_32, ofNat_toNat_32]

theorem ofNat_and (x y : BitVec 32) : BitVec.ofNat 32 (x.toNat &&& y.toNat) = x &&& y := by
  rw [BitVec.ofNat_and, ofNat_toNat_32, ofNat_toNat_32]

theorem ofNat_or (x y : BitVec 32) : BitVec.ofNat 32 (x.toNat ||| y.toNat) = x ||| y := by
  rw [BitVec.ofNat_or, ofNat_toNat_32, ofNat_toNat_32]

theorem ofNat_xor (x y : BitVec 32) : BitVec.ofNat 32 (x.toNat ^^^ y.toNat) = x ^^^ y := by
  rw [BitVec.ofNat_xor, ofNat_toNat_32, ofNat_toNat_32]

/-- A format R operation computes `g` of two registers. -/
theorem cAluR_gives {s : State} {op k w : Nat} {f : Nat → Nat → Nat} (g : BitVec 32 → BitVec 32 → BitVec 32)
    (hok : cblOk s = true) (h : cblReady s k op w = true) (hg : ∀ x y : BitVec 32, BitVec.ofNat 32 (f x.toNat y.toNat) = g x y) :
    CblGives s (cAluR op k s f) k (cRd w) (g (cVal s k (cRs1 w)) (cVal s k (cRs2 w))) (nextPc s k) := by
  rw [cAluR, cStep_ready h, cReadied_reg, cReadied_reg, ← hg, cVal_toNat hok, cVal_toNat hok]
  exact cWritten_next hok h _ _

/-- A format I operation computes `g` of a register and the word. -/
theorem cAluI_gives {s : State} {op k w : Nat} {f : Nat → Nat → Nat} (g : BitVec 32 → BitVec 32)
    (hok : cblOk s = true) (h : cblReady s k op w = true) (hg : ∀ x : BitVec 32, BitVec.ofNat 32 (f x.toNat w) = g x) :
    CblGives s (cAluI op k s f) k (cRd w) (g (cVal s k (cRs1 w))) (nextPc s k) := by
  rw [cAluI, cStep_ready h, cReadied_reg, ← hg, cVal_toNat hok]
  exact cWritten_next hok h _ _

/-- The sign-extended and the zero-extended immediate as a word. -/
def immS (w : Nat) : BitVec 32 := (BitVec.ofNat 18 w).signExtend 32
def immU (w : Nat) : BitVec 32 := (BitVec.ofNat 18 w).setWidth 32

theorem ofInt_cImm (w : Nat) : BitVec.ofInt 32 (cImm w) = immS w := by rw [cImm_eq, immS, BitVec.signExtend]

theorem toInt_immS (w : Nat) : (immS w).toInt = cImm w := by rw [cImm_eq, immS, BitVec.toInt_signExtend_of_le (by decide)]

theorem ofNat_cImmU (w : Nat) : BitVec.ofNat 32 (cImmU w) = immU w := by
  refine BitVec.eq_of_toNat_eq ?_
  rw [immU, ← ofNat_bits_low w 17, cImmU, BitVec.toNat_setWidth, BitVec.toNat_ofNat, BitVec.toNat_ofNat,
    Nat.mod_eq_of_lt (bits_lt w 17 0)]

theorem ofNat_addImm (x : BitVec 32) (w : Nat) : BitVec.ofNat 32 (ofSigned 32 (x.toNat + cImm w)) = x + immS w := by
  rw [ofNat_ofSigned, ofInt_toNat_add, ofInt_cImm]

theorem ofNat_andImm (x : BitVec 32) (w : Nat) : BitVec.ofNat 32 (x.toNat &&& cImmU w) = x &&& immU w := by
  rw [BitVec.ofNat_and, ofNat_toNat_32, ofNat_cImmU]

theorem ofNat_orImm (x : BitVec 32) (w : Nat) : BitVec.ofNat 32 (x.toNat ||| cImmU w) = x ||| immU w := by
  rw [BitVec.ofNat_or, ofNat_toNat_32, ofNat_cImmU]

theorem ofNat_xorImm (x : BitVec 32) (w : Nat) : BitVec.ofNat 32 (x.toNat ^^^ cImmU w) = x ^^^ immU w := by
  rw [BitVec.ofNat_xor, ofNat_toNat_32, ofNat_cImmU]

theorem sx_lt_cImm_iff (x : BitVec 32) (w : Nat) : sx x.toNat < cImm w ↔ x.slt (immS w) = true := by
  rw [sx_toNat, BitVec.slt_iff_toInt_lt, toInt_immS]

/-- LUI (R189). -/
theorem execCblLui_gives {s : State} {k : Fin 16} {w : Nat} (hok : cblOk s = true) (h : cblReady s k 0x1C w = true) :
    CblGives s (execCblLui k s) k (cRd w) ((BitVec.ofNat 22 w).signExtend 32 <<< 10) (nextPc s k) := by
  have hval : BitVec.ofNat 32 (ofSigned 32 (cImm22 w * 1024)) = (BitVec.ofNat 22 w).signExtend 32 <<< 10 := by
    rw [ofNat_ofSigned, cImm22_eq, BitVec.ofInt_mul, BitVec.signExtend, BitVec.shiftLeft_eq_mul_twoPow]
    rfl
  rw [execCblLui, cStep_ready h, ← hval]
  exact cWritten_next hok h _ _

/-! ### Branches and jumps -/

/-- The word of a PC that has gone on by 4 times an immediate. -/
theorem ofSigned_pc (pc : Nat) (i : Int) : ofSigned 32 (pc + 4 * i) = (BitVec.ofNat 32 pc + 4#32 * BitVec.ofInt 32 i).toNat := by
  rw [ofSigned_eq_toNat, BitVec.ofInt_add, BitVec.ofInt_mul, BitVec.ofInt_natCast]
  rfl

/-- From an aligned PC such a target is aligned. -/
theorem ofSigned_pc_aligned {pc : Nat} (h : pc % 4 = 0) (i : Int) : ofSigned 32 (pc + 4 * i) % 4 = 0 := by
  rw [ofSigned]
  omega

theorem cJump_aligned (s : State) (k : Nat) {target : Nat} (h : target % 4 = 0) : cJump s k target = cGo s k target 2 :=
  if_neg (not_not.2 h)

/-- No register reads another value after a write to c0. -/
theorem cblWrote_none {s t : State} {k : Nat} {v : BitVec 32} (h : cblWrote s t k 0 v) :
    ∀ i, i < 16 → cReg t k i = cReg s k i := fun i hi =>
  (h i hi).trans (if_neg fun hc => hc.2 hc.1)

/-- A command answers a state in which Cobbler `k` stands at the target of its branch `w` or at the next instruction, with the same
registers. -/
def BranchGoes (s : State) (o : Out) (k w : Nat) (taken : Bool) : Prop :=
  ∃ t, o = .next t ∧ (∀ i, i < 16 → cReg t k i = cReg s k i) ∧
    cblStep s t k (if taken then BitVec.ofNat 32 (s.cbl k).pc + 4#32 * immS w else BitVec.ofNat 32 (s.cbl k).pc + 4#32).toNat

/-- A branch goes on at its target or at the next instruction, and writes nothing. -/
theorem cBranch_goes {s : State} {op k w : Nat} {f : Nat → Nat → Bool} (g : BitVec 32 → BitVec 32 → Bool)
    (hok : cblOk s = true) (h : cblReady s k op w = true) (hg : ∀ x y : BitVec 32, f x.toNat y.toNat = g x y) :
    BranchGoes s (cBranch op k s f) k w (g (cVal s k (cRd w)) (cVal s k (cRs1 w))) := by
  have hpc : (s.cbl k).pc % 4 = 0 := (cblFit_iff.1 (cblOk_fit hok k)).2.2
  have hgo : ∀ pc wait, (∀ i, i < 16 → cReg (cGo (cReadied s k w) k pc wait) k i = cReg s k i) ∧
      cblStep s (cGo (cReadied s k w) k pc wait) k pc := fun pc wait => by
    obtain ⟨hwrote, hstep⟩ := cWritten_goes hok h 0 0 pc wait
    exact ⟨cblWrote_none hwrote, hstep⟩
  rw [cBranch, cStep_ready h, cReadied_reg, cReadied_reg, cReadied_pc, BranchGoes, ← hg, cVal_toNat hok, cVal_toNat hok]
  refine ⟨_, rfl, ?_⟩
  cases f (cReg s k (cRd w)) (cReg s k (cRs1 w)) with
  | true =>
    rw [if_pos rfl, if_pos rfl, cJump_aligned _ k (ofSigned_pc_aligned hpc _), ofSigned_pc, ofInt_cImm]
    exact hgo _ 2
  | false =>
    have hnext : (BitVec.ofNat 32 (s.cbl k).pc + 4#32).toNat = nextPc s k := by
      rw [← BitVec.ofNat_add, BitVec.toNat_ofNat, nextPc]
    rw [if_neg Bool.false_ne_true, if_neg Bool.false_ne_true, hnext, cNext_eq, nextPc, cReadied_pc]
    exact hgo _ 1

/-- JAL (R189, R190). -/
theorem execCblJal_goes {s : State} {k : Fin 16} {w : Nat} (hok : cblOk s = true) (h : cblReady s k 0x37 w = true) :
    CblGives s (execCblJal k s) k (cRd w) (BitVec.ofNat 32 (s.cbl k).pc + 4#32)
      (BitVec.ofNat 32 (s.cbl k).pc + 4#32 * (BitVec.ofNat 22 w).signExtend 32).toNat := by
  have hpc : (s.cbl k).pc % 4 = 0 := (cblFit_iff.1 (cblOk_fit hok k)).2.2
  rw [execCblJal, cStep_ready h, cReadied_pc]
  refine ⟨_, rfl, ?_⟩
  rw [cJump_aligned _ k (ofSigned_pc_aligned hpc _), ofSigned_pc, cImm22_eq, ← BitVec.signExtend, ← BitVec.ofNat_add]
  exact cWritten_goes hok h _ _ _ 2

/-- JALR to an aligned target (R189, R190). -/
theorem execCblJalr_goes {s : State} {k : Fin 16} {w : Nat} (hok : cblOk s = true) (h : cblReady s k 0x38 w = true) :
    ∃ t, execCblJalr k s = .next t ∧ cblWrote s t k (cRd w) (BitVec.ofNat 32 (s.cbl k).pc + 4#32) ∧
      ((cVal s k (cRs1 w) + immS w).toNat % 4 = 0 → cblStep s t k (cVal s k (cRs1 w) + immS w).toNat) ∧
      ((cVal s k (cRs1 w) + immS w).toNat % 4 ≠ 0 →
        (t.cbl k).running = false ∧ t.mem = s.mem ∧ ∃ e, e ∈ t.flt.due ∧ e.2.code = 0x31 ∧ e.2.unit = 64 + k.val) := by
  have htarget : ofSigned 32 (cReg s k (cRs1 w) + cImm w) = (cVal s k (cRs1 w) + immS w).toNat := by
    rw [ofSigned_eq_toNat, ← cVal_toNat hok, ofInt_toNat_add, ofInt_cImm]
  rw [execCblJalr, cStep_ready h, cReadied_reg, htarget, cReadied_pc, ← BitVec.ofNat_add]
  generalize (cVal s k (cRs1 w) + immS w).toNat = target
  refine ⟨_, rfl, ?_⟩
  by_cases halign : target % 4 = 0
  · rw [cJump_aligned _ k halign]
    obtain ⟨hwrote, hstep⟩ := cWritten_goes hok h (cRd w) ((s.cbl k).pc + 4) target 2
    exact ⟨hwrote, fun _ => hstep, fun hne => absurd halign hne⟩
  · rw [cJump, if_pos halign]
    obtain ⟨hend, hmoved, hidle, -, -, hdue⟩ := cblFault_ends (cWritten s k w (cRd w) ((s.cbl k).pc + 4)) k 0x31 _ _ rfl
    refine ⟨cWritten_wrote hok w _ _ hmoved.1.regs, fun h0 => absurd h0 halign, fun _ => ⟨hidle, ?_, _, hdue, rfl, rfl⟩⟩
    exact ((cWritten_frame s k w _ _).workFrame.trans hend).mem

/-- Settles O35: each operation by what it computes of its words. -/
theorem cobblerArithmeticAndJumps : Obligations.CobblerArithmeticAndJumps := by
  unfold Obligations.CobblerArithmeticAndJumps
  refine ⟨fun s k w hok => ?_, fun s k w hok => ?_⟩
  · exact ⟨fun h => (cAluR_gives _ hok h ofNat_add : CblGives s (execCblAdd k s) _ _ _ _),
      fun h => (cAluR_gives _ hok h ofNat_sub : CblGives s (execCblSub k s) _ _ _ _),
      fun h => (cAluR_gives _ hok h ofNat_and : CblGives s (execCblAnd k s) _ _ _ _),
      fun h => (cAluR_gives _ hok h ofNat_or : CblGives s (execCblOr k s) _ _ _ _),
      fun h => (cAluR_gives _ hok h ofNat_xor : CblGives s (execCblXor k s) _ _ _ _),
      fun h => (cAluR_gives _ hok h (fun x y => ofNat_shiftLeft x (y.toNat % 32)) : CblGives s (execCblSll k s) _ _ _ _),
      fun h => (cAluR_gives _ hok h (fun x y => ofNat_shiftRight x (y.toNat % 32)) : CblGives s (execCblSrl k s) _ _ _ _),
      fun h => (cAluR_gives _ hok h (fun x y => ofNat_sraW x y.toNat) : CblGives s (execCblSra k s) _ _ _ _),
      fun h => (cAluR_gives _ hok h (fun x y => ofNat_flag _ _ (sx_lt_iff x y)) : CblGives s (execCblSlt k s) _ _ _ _),
      fun h => (cAluR_gives _ hok h (fun x y => ofNat_flag _ _ (toNat_lt_iff x y)) : CblGives s (execCblSltu k s) _ _ _ _),
      fun h => (cAluR_gives _ hok h (fun x y => ofNat_pick _ _ (sx_lt_iff x y) x y) : CblGives s (execCblMin k s) _ _ _ _),
      fun h => (cAluR_gives _ hok h (fun x y => ofNat_pick _ _ (sx_lt_iff x y) y x) : CblGives s (execCblMax k s) _ _ _ _),
      fun h => (cAluR_gives _ hok h ofNat_mul : CblGives s (execCblMul k s) _ _ _ _),
      fun h => (cAluR_gives _ hok h ofNat_mulh : CblGives s (execCblMulh k s) _ _ _ _),
      fun h => (cAluR_gives _ hok h ofNat_divS : CblGives s (execCblDiv k s) _ _ _ _),
      fun h => (cAluR_gives _ hok h ofNat_divU : CblGives s (execCblDivu k s) _ _ _ _),
      fun h => (cAluR_gives _ hok h ofNat_remS : CblGives s (execCblRem k s) _ _ _ _),
      fun h => (cAluR_gives _ hok h ofNat_remU : CblGives s (execCblRemu k s) _ _ _ _),
      fun h => (cAluI_gives _ hok h (fun x => ofNat_addImm x w) : CblGives s (execCblAddi k s) _ _ _ _),
      fun h => (cAluI_gives _ hok h (fun x => ofNat_andImm x w) : CblGives s (execCblAndi k s) _ _ _ _),
      fun h => (cAluI_gives _ hok h (fun x => ofNat_orImm x w) : CblGives s (execCblOri k s) _ _ _ _),
      fun h => (cAluI_gives _ hok h (fun x => ofNat_xorImm x w) : CblGives s (execCblXori k s) _ _ _ _),
      fun h => (cAluI_gives _ hok h (fun x => ofNat_shiftLeft x (bits w 4 0)) : CblGives s (execCblSlli k s) _ _ _ _),
      fun h => (cAluI_gives _ hok h (fun x => ofNat_shiftRight x (bits w 4 0)) : CblGives s (execCblSrli k s) _ _ _ _),
      fun h => (cAluI_gives _ hok h (fun x => ofNat_sraW_imm x w) : CblGives s (execCblSrai k s) _ _ _ _),
      fun h => (cAluI_gives _ hok h (fun x => ofNat_flag _ _ (sx_lt_cImm_iff x w)) : CblGives s (execCblSlti k s) _ _ _ _),
      execCblLui_gives hok⟩
  · intro x y pc imm goes
    have hlt : ∀ x y : BitVec 32, decide (sx x.toNat < sx y.toNat) = x.slt y := fun x y =>
      Bool.eq_iff_iff.2 (by rw [decide_eq_true_iff, sx_lt_iff])
    have hge : ∀ x y : BitVec 32, decide (sx y.toNat ≤ sx x.toNat) = !x.slt y := fun x y => by
      rw [← hlt, ← decide_not, decide_eq_decide, not_lt]
    exact ⟨fun h => (cBranch_goes _ hok h fun x y => toNat_beq x y : BranchGoes s (execCblBeq k s) k w _),
      fun h => (cBranch_goes _ hok h fun x y => congrArg not (toNat_beq x y) : BranchGoes s (execCblBne k s) k w _),
      fun h => (cBranch_goes _ hok h hlt : BranchGoes s (execCblBlt k s) k w _),
      fun h => (cBranch_goes _ hok h hge : BranchGoes s (execCblBge k s) k w _),
      fun h => (cBranch_goes _ hok h fun _ _ => rfl : BranchGoes s (execCblBltu k s) k w _),
      fun h => (cBranch_goes _ hok h fun _ _ => toNat_ble _ _ : BranchGoes s (execCblBgeu k s) k w _),
      execCblJal_goes hok, execCblJalr_goes hok⟩

end Sys2Proof.Machine
end

section
/-! PROOFS. The launch of a Cobbler's program, its illegal words and the lines of its image (R186 to R188, R192, R201, R202). -/

namespace Sys2Proof.Machine

/-! ### The launch -/

/-- Between `s` and `t` only what reports, answers and the issue of a descriptor touch has changed, queue records and Cobblers: what
a COBBLER descriptor does. -/
def LaunchFrame (s t : State) : Prop :=
  t = { s with regs := t.regs, flt := t.flt, trc := t.trc, tens := t.tens, queues := t.queues, ports := t.ports, cbls := t.cbls
               freeCtr := t.freeCtr, cc := t.cc, issue := t.issue, lastTen := t.lastTen }

theorem LaunchFrame.trans {s t u : State} (h : LaunchFrame s t) (k : LaunchFrame t u) : LaunchFrame s u := by
  unfold LaunchFrame at h k
  rw [h] at k
  exact k

theorem EngineFrame.launchFrame {s t : State} (h : EngineFrame s t) : LaunchFrame s t := by
  unfold EngineFrame at h
  rw [h]
  rfl

theorem LaunchFrame.mem {s t : State} (h : LaunchFrame s t) : t.mem = s.mem := by rw [h]
theorem LaunchFrame.tacks {s t : State} (h : LaunchFrame s t) : t.tacks = s.tacks := by rw [h]
theorem LaunchFrame.isOn {s t : State} (h : LaunchFrame s t) (u : Nat) : t.isOn u = s.isOn u := by rw [h]; rfl

/-- R186, R201: the registers a program starts with. -/
def launchRegs (ps : List Nat) : List Nat :=
  (List.replicate 16 0).set 1 (bits (ps.getD 2 0) 31 0) |>.set 2 (bits (ps.getD 2 0) 63 32)

/-- All but c1 and c2 start as 0. -/
theorem launchRegs_zero (ps : List Nat) {i : Nat} (hi : 3 ≤ i) : (launchRegs ps).getD i 0 = 0 := by
  have hzero : (List.replicate 16 0).getD i 0 = 0 := by
    rw [List.getD_eq_getElem?_getD, List.getElem?_replicate]
    split <;> rfl
  rw [launchRegs, List.getD_eq_getElem?_getD, List.getElem?_set_ne (by omega), List.getElem?_set_ne (by omega),
    ← List.getD_eq_getElem?_getD, hzero]

/-- R186, R201: a Cobbler's record as the COBBLER descriptor `w` of queue `q` starts its program. -/
def Launched (q : Nat) (w ps : List Nat) (c : CblSt) : Prop :=
  c.running = true ∧ c.pc = 0 ∧ c.twait = none ∧ c.regs = launchRegs ps ∧ c.queue = q ∧ c.tag = tagOf w

theorem cblCount_engineFrame (s : State) (q n : Nat) : EngineFrame s (cblCount s q n) := rfl

/-- A Cobbler that is ON is launched; no other record changes. -/
theorem launchOne_launches (s : State) (q n : Nat) (w ps : List Nat) (k : Nat) :
    LaunchFrame s (launchOne s q n w ps k) ∧ (s.isOn (64 + k) = true → Launched q w ps ((launchOne s q n w ps k).cbl k)) ∧
      ∀ j, j ≠ k → (launchOne s q n w ps k).cbl j = s.cbl j := by
  unfold launchOne
  split
  · rename_i hoff
    have hframe : EngineFrame s (cblCount (flightFault s q n 0x36 (64 + k) 1 0) q n) :=
      (flightFault_engineFrame s q n 0x36 (64 + k) 1 0).trans (cblCount_engineFrame _ q n)
    refine ⟨hframe.launchFrame, fun hon => absurd hoff (by simp [hon]), fun j _ => ?_⟩
    rw [State.cbl, hframe.cbls]
    rfl
  · refine ⟨rfl, fun _ => ?_, fun j hj => ?_⟩
    · rw [State.modCbl_cbl, if_pos rfl]
      exact ⟨rfl, rfl, rfl, rfl, rfl, rfl⟩
    · rw [State.modCbl_cbl, if_neg (Ne.symm hj)]

/-- The named Cobblers are launched one by one; a Cobbler not named keeps its record. -/
theorem foldl_launchOne (q n : Nat) (w ps : List Nat) : ∀ (l : List Nat) (s : State),
    LaunchFrame s (l.foldl (fun s k => launchOne s q n w ps k) s) ∧
      (∀ k, s.isOn (64 + k) = true → k ∈ l ∨ Launched q w ps (s.cbl k) →
        Launched q w ps ((l.foldl (fun s k => launchOne s q n w ps k) s).cbl k)) ∧
      ∀ j, j ∉ l → (l.foldl (fun s k => launchOne s q n w ps k) s).cbl j = s.cbl j := by
  intro l
  induction l with
  | nil => exact fun s => ⟨rfl, fun k _ h => h.resolve_left (by simp), fun _ _ => rfl⟩
  | cons x l ih =>
    intro s
    obtain ⟨hframe, hself, hothers⟩ := launchOne_launches s q n w ps x
    obtain ⟨hframes, hlaunched, hkept⟩ := ih (launchOne s q n w ps x)
    refine ⟨hframe.trans hframes, fun k hon h => hlaunched k (by rwa [hframe.isOn]) ?_, fun j hj => ?_⟩
    · by_cases hk : k = x
      · subst hk
        exact .inr (hself hon)
      · rw [hothers k hk]
        exact h.imp_left fun hm => (List.mem_cons.1 hm).resolve_left hk
    · obtain ⟨hx, hl⟩ := not_or.1 (mt List.mem_cons.2 hj)
      exact (hkept j hl).trans (hothers j hx)

/-- A grant leaves the records of the tenants. -/
theorem grant_tens (s : State) (q : Nat) : (grant s q).tens = s.tens := by
  unfold grant
  extract_lets t load s1
  have hload : (load s).tens = s.tens := foldl_keeps_view State.tens (fun u r => State.setQ_tens u r _) _ s
  show s1.tens = s.tens
  unfold s1
  split
  · exact hload
  · rfl

/-- An issue leaves them too. -/
theorem issueIt_tens (s : State) (q : Nat) (fr : Front) (mk : Flight → Flight) : (issueIt s q fr mk).tens = s.tens := by
  unfold issueIt
  extract_lets x timed e fl s1 s2 s3
  have h2 : s2.tens = s.tens := by
    unfold s2
    split
    · rfl
    · exact grant_tens s1 q
  split
  · rw [traceTen_traceFrame s3]
    exact h2
  · exact h2

/-- Where a tenant address lies, no issue changes. -/
theorem issueIt_xlate (s : State) (q : Nat) (fr : Front) (mk : Flight → Flight) (t a n : Nat) :
    xlate (issueIt s q fr mk) t a n = xlate s t a n := by
  have htens := issueIt_tens s q fr mk
  rw [(issueIt_issues s q fr mk).1, htens]
  rfl

/-- R186, R201: a COBBLER descriptor whose image lies in a window launches the Cobblers it names. -/
theorem execCobbler_launches {s : State} {q : Fin 64} {fr : Front} (hfront : frontOf s q = some fr) (hop : dOpcode fr.w = 0x06)
    (hbad : issueBad s q fr = none)
    (himage : (xlate s (s.qTen q) (bits (fr.ps.getD 0 0) 39 0) (128 * bits (fr.ps.getD 1 0) 25 16)).isSome = true) :
    ∃ t, exec (.cobbler q) s = .next t ∧ LaunchFrame s t ∧
      (∀ k, k < 16 → bit (bits (fr.ps.getD 1 0) 15 0) k = true → s.isOn (64 + k) = true → Launched q fr.w fr.ps (t.cbl k)) ∧
      ∀ j, bit (bits (fr.ps.getD 1 0) 15 0) j = false → t.cbl j = s.cbl j := by
  refine ⟨_, startIssue_due hfront hop hbad _, ?_⟩
  extract_lets mask ks s1 n len s2
  have h1 : EngineFrame s s1 := (issueIt_issues s q fr _).1
  have hcbl : ∀ j, s1.cbl j = s.cbl j := fun j => by
    rw [State.cbl, h1.cbls]
    rfl
  have hten : s1.qTen q = s.qTen q := by
    rw [h1]
    rfl
  have h2 : s2 = ks.foldl (fun s k => launchOne s q n fr.w fr.ps k) s1 := by
    refine if_neg ?_
    rw [issueIt_xlate, hten, Option.isNone_iff_eq_none, ← Option.not_isSome_iff_eq_none, not_not]
    exact himage
  obtain ⟨hframe, hlaunched, hkept⟩ := foldl_launchOne q n fr.w fr.ps ks s1
  rw [← h2] at hframe hlaunched hkept
  have h3 : EngineFrame s2 (goOn s2 q fr) := goOn_engineFrame s2 q fr
  have hcbl3 : ∀ j, (goOn s2 q fr).cbl j = s2.cbl j := fun j => by
    rw [State.cbl, h3.cbls]
    rfl
  refine ⟨h1.launchFrame.trans (hframe.trans h3.launchFrame), fun k hk hbit hon => ?_, fun j hbit => ?_⟩
  · rw [hcbl3]
    refine hlaunched k ?_ (.inl (List.mem_filter.2 ⟨List.mem_range.2 hk, hbit⟩))
    rw [h1.launchFrame.isOn, hon]
  · rw [hcbl3, hkept j fun hm => ?_, hcbl]
    rw [(List.mem_filter.1 hm).2] at hbit
    exact Bool.noConfusion hbit

/-! ### Illegal words -/

/-- R187, R188, R202: a word that is no legal instruction halts the program. -/
theorem exec_cblIllegal {s : State} {k : Fin 16} {w : Nat} (hword : cWord s k = some w) (hlegal : cLegal w = false)
    (hon : 2 ≤ s.eff (64 + k)) (hdue : (s.cbl k).issueAt ≤ s.now) :
    exec (.cblIllegal k) s = .next (cblFault (cTouch s k) k 0x30 0) := by
  have hwaits : ¬ (cLegal w || decide (s.now < (s.cbl k).issueAt)) = true := by simp [hlegal, hdue]
  show execCblIllegal k s = _
  rw [execCblIllegal, hword]
  dsimp only
  rw [if_neg hwaits, if_neg (by omega)]

/-! ### The lines of the image -/

theorem bytesAt_append (m : List (Nat × Byte)) (a n k : Nat) : bytesAt m a n ++ bytesAt m (a + n) k = bytesAt m a (n + k) := by
  simp [bytesAt, List.range_add, Nat.add_assoc]

theorem lineRaw_pair (s : State) {pa : Nat} (halign : pa % 128 = 0) :
    s.lineRaw (pa / 64) ++ s.lineRaw (pa / 64 + 1) = bytesAt s.mem.hbm pa 128 := by
  have hfirst : pa / 64 * 64 = pa := by omega
  have hsecond : (pa / 64 + 1) * 64 = pa + 64 := by omega
  rw [State.lineRaw, State.lineRaw, hfirst, hsecond, bytesAt_append]

/-- R192: the bytes a line fill reads, and the state after. -/
def lineRead (s : State) (k : Nat) (l : CblLine) : List Byte × Bool × State :=
  let c := s.cbl k
  match xlate s c.tenant (c.prog + 128 * l.no) 128 with
  | none => (List.replicate 128 0, true, s)
  | some pa =>
    match dcacheRead s (pa / 128) with
    | (some bs, s) => (bs, false, s)
    | (none, s) =>
      let x := readPhys s (cAgent k 0) pa 128
      (x.1, x.2.1, if x.2.1 then x.2.2 else dcacheFill x.2.2 (cAgent k 0) (pa / 128))

theorem dcacheRead_miss {s : State} {l : Nat} (h : dcacheHolds s l = false) : dcacheRead s l = (none, s) := by
  rw [dcacheRead, h]
  rfl

/-- R57: a line the DCACHE holds without error is read there as HBM has it. -/
theorem dcacheRead_hit {s : State} {pa : Nat} (h : dcacheHolds s (pa / 128) = true) (hclean : dcacheErr s (pa / 128) = .clean)
    (halign : pa % 128 = 0) (hquiet : hbmQuiet s pa 128) :
    ∃ d, dcacheRead s (pa / 128) = (some (bytesAt s.mem.hbm pa 128), { s with mem := { s.mem with dcache := d } }) := by
  have hfirst : 2 * (pa / 128) = pa / 64 := by omega
  have hseen := lineSeen_unwritten 0 (hquiet (pa / 64) (by omega) (by omega)).2.2
  have hseen2 := lineSeen_unwritten 0 (hquiet (pa / 64 + 1) (by omega) (by omega)).2.2
  unfold dcacheRead
  rw [h, hclean, hfirst, hseen, hseen2, lineRaw_pair s halign, if_neg (by decide)]
  dsimp only
  split
  · exact ⟨_, rfl⟩
  · exact ⟨s.mem.dcache, rfl⟩

/-- R57, R58: nothing written in this cc, a miss fills the DCACHE. -/
theorem dcacheFill_quiet {s : State} {pa : Nat} (halign : pa % 128 = 0) (hquiet : hbmQuiet s pa 128) (a : Agent) :
    dcacheFill s a (pa / 128) = dcacheClean (dcacheTouch s (pa / 128)) (pa / 128) := by
  have hfirst : 2 * (pa / 128) = pa / 64 := by omega
  have hbehind := ccBehind_unwritten (hbmRank a) (hquiet (pa / 64) (by omega) (by omega)).2.2
  have hbehind2 := ccBehind_unwritten (hbmRank a) (hquiet (pa / 64 + 1) (by omega) (by omega)).2.2
  rw [dcacheFill, hfirst, hbehind, hbehind2]
  rfl

/-- The caches with other lines and errors. -/
def State.setDcache (s : State) (d : List Nat) (m : List (Nat × Err)) : State := { s with mem := { s.mem with dcache := d, dcErr := m } }

/-- R57, R192: what a line fill reads without error, from HBM or the DCACHE, is the line's bytes. -/
theorem lineRead_quiet {s : State} {k pa : Nat} {l : CblLine} (hpa : xlate s (s.cbl k).tenant ((s.cbl k).prog + 128 * l.no) 128 = some pa)
    (halign : pa % 128 = 0) (herr : dcacheHolds s (pa / 128) = false ∨ dcacheErr s (pa / 128) = .clean) (hquiet : hbmQuiet s pa 128) :
    ∃ d m, lineRead s k l = (bytesAt s.mem.hbm pa 128, false, s.setDcache d m) ∧
      (dcacheHolds s (pa / 128) = false → d.contains (pa / 128) = true) := by
  unfold lineRead
  extract_lets c
  rw [hpa]
  dsimp only
  cases hholds : dcacheHolds s (pa / 128) with
  | false =>
    rw [dcacheRead_miss hholds]
    dsimp only
    rw [hquiet.readPhys_pair halign, lineRaw_pair s halign]
    dsimp only
    rw [if_neg Bool.false_ne_true, dcacheFill_quiet halign hquiet]
    exact ⟨_, _, rfl, fun _ => List.contains_iff_mem.2 List.mem_cons_self⟩
  | true =>
    have hclean : dcacheErr s (pa / 128) = .clean := herr.resolve_left (by rw [hholds]; decide)
    obtain ⟨d, hread⟩ := dcacheRead_hit hholds hclean halign hquiet
    rw [hread]
    exact ⟨d, s.mem.dcErr, rfl, nofun⟩

/-- R192: the record of a program whose line `l` has arrived with its bytes: the line is held, beside the one the fetch came from, and
a line the PC stands in that is neither held nor asked for is asked for. -/
def lineGained (s : State) (k : Nat) (l : CblLine) (bs : List Byte) (y : CblSt) : CblSt :=
  let c := s.cbl k
  let lines := (c.lines.filter fun y => y != l && (y.bytes.isNone || y.no == l.src)) ++ [{ l with bytes := some bs }]
  let again : List CblLine :=
    if lines.any fun y => y.no == c.pc / 128 then [] else [{ no := c.pc / 128, src := l.no, at_ := s.now }]
  { y with lines := lines ++ again, issueAt := if l.no = c.pc / 128 then max y.issueAt (s.now + 1) else y.issueAt }

/-- R192: a line asked for 12 cc ago arrives with what is read of it, or the program halts. -/
theorem exec_cblLineFill {s : State} {k : Fin 16} {l : CblLine} (hfind : (s.cbl k).lines.find? (fun l => l.bytes.isNone) = some l)
    (hruns : s.runs = true) (hrunning : (s.cbl k).running = true) (hdue : l.at_ + 12 ≤ s.now) :
    exec (.cblLineFill k) s = if (lineRead s k l).2.1 then .next (cblFault (lineRead s k l).2.2 k 0x34 (128 * l.no))
      else .next ((lineRead s k l).2.2.modCbl k (lineGained s k l (lineRead s k l).1)) := by
  have hgo : ¬ (!s.runs || !(s.cbl k).running || decide (s.now < l.at_ + 12)) = true := by simp [hruns, hrunning, hdue]
  show execCblLineFill k s = _
  rw [execCblLineFill]
  simp only [hfind]
  rw [if_neg hgo]
  rfl

/-- Settles O34: a launch, an illegal word and a line fill. -/
theorem cobblersLaunchAndFetch : Obligations.CobblersLaunchAndFetch := by
  unfold Obligations.CobblersLaunchAndFetch
  refine ⟨fun s q fr k hfront hop hbad hk hbit hon himage => ?_, fun s k => ⟨fun w hword hlegal hforce hdue => ?_, ?_⟩⟩
  · obtain ⟨t, ht, hframe, hlaunched, hkept⟩ := execCobbler_launches hfront hop hbad himage
    have hmask : bit (bits (fr.ps.getD 1 0) 15 0) k = true := by
      rw [bit, bits, Nat.shiftRight_zero, Nat.testBit_mod_two_pow, decide_eq_true hk]
      exact hbit
    obtain ⟨hrunning, hpc, htwait, hregs, hqueue, htag⟩ := hlaunched k hk hmask hon
    refine ⟨t, ht, hrunning, hpc, htwait, ?_, ?_, fun i hi => ?_, hqueue, htag, hkept, hframe.tacks, hframe.mem⟩
    · rw [hregs]
      rfl
    · rw [hregs]
      rfl
    · rw [hregs, launchRegs_zero _ hi]
  · obtain ⟨hframe, hissued⟩ := cTouch_issues s k
    obtain ⟨hfaulted, -⟩ := cblFault_faulted hframe.workFrame hissued.1 0x30 0
    obtain ⟨hends, -⟩ := cblFault_ends (cTouch s k) k 0x30 _ _ rfl
    have hwork : WorkFrame s (cblFault (cTouch s k) k 0x30 0) := hframe.workFrame.trans hends
    exact ⟨_, exec_cblIllegal hword hlegal hforce hdue, hfaulted, hwork.mem, hwork.tacks⟩
  · intro l pa hfind hruns hrunning hdue hpa halign herr hquiet
    obtain ⟨d, m, hread, hfilled⟩ := lineRead_quiet hpa halign herr hquiet
    have ht := exec_cblLineFill hfind hruns hrunning hdue
    rw [hread] at ht
    refine ⟨_, { l with bytes := some (bytesAt s.mem.hbm pa 128) }, ht, ?_, rfl, rfl, rfl, hfilled, rfl, ?_⟩
    all_goals rw [State.modCbl_cbl, if_pos rfl]
    · simp [lineGained]
    · exact ⟨rfl, rfl, hrunning⟩

end Sys2Proof.Machine
end

section
/-! PROOFS. What a Cobbler's CBUF address is refused for (R194), where a queue is listed twice. -/

namespace Sys2Proof.Machine

open Sys2Proof.Tests

/-- Cobbler 0 at an LWC of its first CBUF byte, the first instruction of a program of tenant 1, in a state that lists the timed queue 0
of tenant 0 twice: as the queue reads, which holds no mask, and behind that with VC 0 granted. No step lists a queue twice, but
nothing in the statement excludes it. -/
def queueTwice : State :=
  { cobbler (ci 0x28 3 1 0) 0 0 0 with
    tens := [(0, { valid := true }), (1, { valid := true })]
    queues := [(0, { valid := true }), (0, { valid := true, granted := some 1 })]
    twn := { run := 3 }
    tabF := [(tabKey 1 1 1, 1), (tabKey 5 0 0, 0x60)]
    cbls := [(0, { running := true, len := 1, tenant := 1, lines := [{ bytes := some (leBytes 4 (ci 0x28 3 1 0)) }] })] }

/-- A command answers a state in which the program of Cobbler 0 runs on. -/
def runsOn (o : Out) : Bool := match o with
  | .next t => (t.cbl 0).running
  | _ => false

/-- The address is refused, for the mask of the entry behind. -/
theorem queueTwice_refuses : cbufPlace queueTwice 0 0 0 4 = .error 0x32 := by rfl

/-- The issue writes queue 0's record, which leaves the first entry alone: the address is served and the program runs on. -/
theorem queueTwice_runsOn : runsOn (exec (.cblLwc 0) queueTwice) = true := by decide

/-- Refutes O36: its clause for a refused CBUF address asks for a fault where `cbufPlace` refuses before the issue; at a program's first
instruction the issue writes the descriptor's queue, and in `queueTwice` the refusal goes with it. -/
theorem not_cobblerLocalAndCbufAccess : ¬ Obligations.CobblerLocalAndCbufAccess := by
  unfold Obligations.CobblerLocalAndCbufAccess
  intro h
  obtain ⟨-, hrefused, -⟩ := h.2 queueTwice 0 (ci 0x28 3 1 0) (by decide)
  obtain ⟨t, ht, hidle, -⟩ := (hrefused 0x32 queueTwice_refuses).1 (by decide)
  have hruns := queueTwice_runsOn
  rw [ht] at hruns
  exact absurd (hidle.symm.trans hruns) Bool.false_ne_true

end Sys2Proof.Machine
end

section
/-! PROOFS. Bytes stored and read through consecutive cells: the words of CBUF and local memory, the lines of HBM. -/

namespace Sys2Proof.Machine

/-! ### Bytes laid at an address -/

/-- The byte that a write of `new` at address `a` gives address `b`, if it gives one. -/
def laid (a : Nat) (new : List (Option Byte)) (b : Nat) : Option Byte := if a ≤ b then new.getD (b - a) none else none

theorem laid_outside {a b : Nat} {new : List (Option Byte)} (h : b < a ∨ a + new.length ≤ b) : laid a new b = none := by
  unfold laid
  split
  · exact List.getD_eq_default _ _ (by omega)
  · rfl

theorem laid_allBytes (a : Nat) {bs : List Byte} {i : Nat} (h : i < bs.length) : laid a (allBytes bs) (a + i) = some (bs.getD i 0) := by
  rw [laid, if_pos (Nat.le_add_right a i), Nat.add_sub_cancel_left, allBytes]
  simp [h]

/-- The bytes of cell `w` of a write cut at cells of `W` bytes. -/
def cellPart (W a : Nat) (new : List (Option Byte)) (w : Nat) : List (Option Byte) := (List.range W).map fun j => laid a new (w * W + j)

theorem cut_eq (W a : Nat) (new : List (Option Byte)) :
    cut W a new = (List.range ((a % W + new.length + W - 1) / W)).map fun i => (a / W + i, cellPart W a new (a / W + i)) := by
  refine List.map_congr_left fun i _ => ?_
  refine congrArg (Prod.mk _) (List.map_congr_left fun j _ => ?_)
  dsimp only
  unfold laid
  split
  · rw [if_neg (by omega)]
  · rw [if_pos (by omega)]

theorem cellPart_length (W a : Nat) (new : List (Option Byte)) (w : Nat) : (cellPart W a new w).length = W := by
  rw [cellPart, List.length_map, List.length_range]

theorem cellPart_getD {W : Nat} (hW : 0 < W) (a : Nat) (new : List (Option Byte)) (b : Nat) :
    (cellPart W a new (b / W)).getD (b % W) none = laid a new b := by
  have hlt : b % W < (cellPart W a new (b / W)).length := by
    rw [cellPart_length]
    exact Nat.mod_lt b hW
  rw [List.getD_eq_getElem _ _ hlt]
  simp only [cellPart, List.getElem_map, List.getElem_range]
  rw [Nat.mul_comm, Nat.div_add_mod]

/-! ### The cells a range meets -/

/-- A range of `n` bytes at `a` meets as many cells as `cut` says. -/
theorem cells_met {W : Nat} (hW : 0 < W) {a n i : Nat} : i < (a % W + n + W - 1) / W ↔ (a / W + i) * W < a + n := by
  have ha : a / W * W + a % W = a := Nat.div_add_mod' a W
  have hlt : a % W < W := Nat.mod_lt a hW
  rw [← Nat.succ_le_iff, Nat.le_div_iff_mul_le hW, Nat.succ_mul, Nat.add_mul]
  generalize a / W * W = p at ha ⊢
  generalize i * W = q
  omega

/-! ### Stores -/

/-- Between `s` and `t` cell `w` of what `view` sees has taken `new` where it is given; no other byte has changed, and cells without
error stay so. -/
structure CellStored (W : Nat) (view : State → Nat → Byte) (quiet : State → Nat → Prop) (s t : State) (w : Nat)
    (new : List (Option Byte)) : Prop where
  bytes : ∀ b, view t b = if b / W = w then (new.getD (b % W) none).getD (view s b) else view s b
  others : ∀ x, x ≠ w → quiet s x → quiet t x

/-- Bytes stored cell by cell, each cell without error, are stored. -/
theorem foldl_cut {W : Nat} (hW : 0 < W) {view : State → Nat → Byte} {quiet : State → Nat → Prop} {R : State → State → Prop}
    {f : State → Nat × List (Option Byte) → State} (hrefl : ∀ s, R s s) (htrans : ∀ {s t u}, R s t → R t u → R s u)
    (hf : ∀ s w new, new.length = W → quiet s w → R s (f s (w, new)) ∧ CellStored W view quiet s (f s (w, new)) w new)
    (s : State) (a : Nat) (new : List (Option Byte)) (hquiet : ∀ w, a / W ≤ w → w * W < a + new.length → quiet s w) :
    R s ((cut W a new).foldl f s) ∧ ∀ b, view ((cut W a new).foldl f s) b = (laid a new b).getD (view s b) := by
  have hpart : ∀ m, m ≤ (a % W + new.length + W - 1) / W →
      ∀ t, t = ((List.range m).map fun i => (a / W + i, cellPart W a new (a / W + i))).foldl f s → R s t ∧
        (∀ b, view t b = if a / W ≤ b / W ∧ b / W < a / W + m then (laid a new b).getD (view s b) else view s b) ∧
        ∀ w, a / W + m ≤ w → quiet s w → quiet t w := by
    intro m
    induction m with
    | zero =>
      intro _ t ht
      rw [show t = s from ht]
      exact ⟨hrefl s, fun b => (if_neg (by omega)).symm, fun _ _ => id⟩
    | succ m ih =>
      intro hm t ht
      obtain ⟨hframe, hbytes, hstill⟩ := ih (Nat.le_of_succ_le hm) _ rfl
      rw [List.range_succ, List.map_append, List.foldl_append] at ht
      generalize ((List.range m).map fun i => (a / W + i, cellPart W a new (a / W + i))).foldl f s = u at ht hframe hbytes hstill
      obtain rfl : t = f u (a / W + m, cellPart W a new (a / W + m)) := ht
      have hcell : quiet u (a / W + m) :=
        hstill _ (Nat.le_refl _) (hquiet _ (Nat.le_add_right _ _) ((cells_met hW).1 hm))
      obtain ⟨hstep, hstored⟩ := hf u _ _ (cellPart_length W a new _) hcell
      refine ⟨htrans hframe hstep, fun b => ?_, fun w hw hq => hstored.others w (by omega) (hstill w (by omega) hq)⟩
      rw [hstored.bytes, hbytes]
      by_cases hb : b / W = a / W + m
      · rw [if_pos hb, if_neg (by omega), if_pos (by omega), ← hb, cellPart_getD hW]
      · rw [if_neg hb]
        exact if_congr (by omega) rfl rfl
  obtain ⟨hframe, hbytes, -⟩ := hpart _ (Nat.le_refl _) _ rfl
  rw [← cut_eq] at hframe hbytes
  refine ⟨hframe, fun b => ?_⟩
  rw [hbytes]
  split
  · rfl
  · rename_i hout
    have hnone : laid a new b = none := by
      by_contra hsome
      have hin : a ≤ b ∧ b < a + new.length := by
        by_contra hnot
        exact hsome (laid_outside (by omega))
      have hlo : a / W ≤ b / W := Nat.div_le_div_right hin.1
      refine hout ⟨hlo, ?_⟩
      have hmet : b / W - a / W < (a % W + new.length + W - 1) / W := (cells_met hW).2 (by
        rw [Nat.add_sub_cancel' hlo]
        exact (Nat.div_mul_le_self b W).trans_lt hin.2)
      omega
    rw [hnone]
    rfl

/-! ### Reads -/

/-- The `n` bytes at `a` of what `view` sees. -/
def viewed (view : Nat → Byte) (a n : Nat) : List Byte := (List.range n).map fun i => view (a + i)

theorem viewed_append (view : Nat → Byte) (a n k : Nat) : viewed view a n ++ viewed view (a + n) k = viewed view a (n + k) := by
  simp [viewed, List.range_add, Nat.add_assoc]

theorem viewed_slice (view : Nat → Byte) {a d n m : Nat} (h : d + n ≤ m) : ((viewed view a m).drop d).take n = viewed view (a + d) n := by
  refine List.ext_getElem (by simp [viewed]; omega) fun i _ _ => ?_
  simp [viewed, Nat.add_assoc]

/-- Bytes read cell by cell, each cell without error, are those seen. -/
theorem foldl_cells {W : Nat} {view : State → Nat → Byte} {quiet : State → Nat → Prop} {R : State → State → Prop}
    {read : State → Nat → List Byte × Bool × State} (hrefl : ∀ s, R s s) (htrans : ∀ {s t u}, R s t → R t u → R s u)
    (hkeeps : ∀ {s t}, R s t → view t = view s ∧ ∀ w, quiet s w → quiet t w)
    (hread : ∀ s w, quiet s w → ∃ t, read s w = (viewed (view s) (w * W) W, false, t) ∧ R s t) (s : State) (first : Nat) :
    ∀ m, (∀ i, i < m → quiet s (first + i)) → ∃ t,
      (List.range m).foldl (fun (acc : List Byte × Bool × State) i =>
        (acc.1 ++ (read acc.2.2 (first + i)).1, acc.2.1 || (read acc.2.2 (first + i)).2.1, (read acc.2.2 (first + i)).2.2))
        ([], false, s) = (viewed (view s) (first * W) (m * W), false, t) ∧ R s t := by
  intro m
  induction m with
  | zero => exact fun _ => ⟨s, by simp [viewed], hrefl s⟩
  | succ m ih =>
    intro hquiet
    obtain ⟨t, hfold, hframe⟩ := ih fun i hi => hquiet i (by omega)
    obtain ⟨hview, hstill⟩ := hkeeps hframe
    obtain ⟨u, hcell, hstep⟩ := hread t (first + m) (hstill _ (hquiet m (by omega)))
    refine ⟨u, ?_, htrans hframe hstep⟩
    rw [List.range_succ, List.foldl_append, hfold]
    dsimp only [List.foldl_cons, List.foldl_nil]
    rw [hcell, hview, Nat.add_mul, viewed_append, Nat.succ_mul]
    rfl

end Sys2Proof.Machine
end

section
/-! PROOFS. Accesses of CBUF, local memory and HBM without error, where nothing has written in the cc (R231 to R233, R239 to R242). -/

namespace Sys2Proof.Machine

/-! ### The cell a write leaves -/

/-- A write behind which no other of its cell stands in its cc. -/
theorem ccPlace_alone (p : CellWr) (c : Cell) : ∀ {ws : List CellWr}, (∀ x, x ∈ ws → x.cell ≠ p.cell) →
    ccPlace p c ws = (ws ++ [p.found c], p.on c)
  | [], _ => rfl
  | x :: xs, h => by
    rw [ccPlace, if_neg fun hx => h x List.mem_cons_self hx.1, ccPlace_alone p c fun y hy => h y (List.mem_cons_of_mem x hy)]
    rfl

theorem overlay_getD {old : List Byte} {new : List (Option Byte)} (hlen : new.length = old.length) {i : Nat} (hi : i < old.length) :
    (overlay old new).getD i 0 = (new.getD i none).getD (old.getD i 0) := by
  have hn : i < new.length := hlen ▸ hi
  simp [overlay, hi, hn]

theorem overlay_full {old : List Byte} {new : List (Option Byte)} (hlen : new.length = old.length) (hfull : isFull new = true) {i : Nat}
    (hi : i < old.length) (x : Byte) : (overlay old new).getD i 0 = (new.getD i none).getD x := by
  have hn : i < new.length := hlen ▸ hi
  obtain ⟨b, hb⟩ := Option.isSome_iff_exists.1 (List.all_eq_true.1 hfull _ (List.getElem_mem hn))
  rw [overlay_getD hlen hi, List.getD_eq_getElem _ _ hn, hb]
  rfl

/-- R233, R240: a write without poison of a cell without error leaves no error, the bytes it gives, and the others as they are read. -/
theorem CellWr.on_clean {p : CellWr} {c : Cell} (hmask : p.mask = []) (hpoison : p.poison = false) (hlen : p.new.length = c.bytes.length)
    (hclean : c.valid = true → c.err = .clean) :
    (p.on c).err = .clean ∧ (p.on c).valid = true ∧ (p.on c).bytes.length = c.bytes.length ∧
      ∀ i, i < c.bytes.length → (p.on c).bytes.getD i 0 = (p.new.getD i none).getD (if c.valid then c.bytes.getD i 0 else 0) := by
  have hwhole : isWhole p.new p.mask = isFull p.new := by rw [hmask, isWhole, List.all_nil, Bool.and_true]
  have hlength : ∀ old : List Byte, old.length = c.bytes.length → (overlay old p.new).length = c.bytes.length := fun old ho => by
    rw [overlay, List.length_zipWith, ho, hlen, Nat.min_self]
  have hzeros : (List.replicate c.bytes.length (0 : Byte)).length = c.bytes.length := List.length_replicate
  have hmerge : ∀ old, merge old p.new p.mask = overlay old p.new := fun old => by rw [hmask]; rfl
  unfold CellWr.on
  simp only [hwhole, hmerge, hpoison]
  by_cases hfull : isFull p.new = true
  · rw [if_pos hfull]
    exact ⟨rfl, rfl, hlength _ rfl, fun i hi => overlay_full hlen hfull hi _⟩
  · rw [if_neg hfull]
    cases hvalid : c.valid with
    | false =>
      refine ⟨rfl, rfl, hlength _ hzeros, fun i hi => ?_⟩
      rw [if_pos (by decide), overlay_getD (hlen.trans hzeros.symm) (by rwa [hzeros])]
      simp [hi]
    | true =>
      rw [if_neg (by decide), hclean hvalid]
      exact ⟨rfl, rfl, hlength _ rfl, fun i hi => overlay_getD hlen hi⟩

/-! ### Words of CBUF and local memory -/

/-- The word belongs to a unit that is not OFF, its parity is right, it holds no error, and nothing has written it in this cc. -/
def wordQuiet (s : State) (w : Nat) : Prop :=
  s.eff (sramUnit w) ≠ 0 ∧ mget (fun _ => false) s.mem.badPar (w / 32) = false ∧ (s.wordValid w = true → s.wordErr w = .clean) ∧
    ∀ p, p ∈ s.cc.sram → p.cell ≠ w

/-- Between `s` and `t` only which banks were touched has changed: what a read without error does. -/
def TouchFrame (s t : State) : Prop := t = { s with cc := { s.cc with touched := t.cc.touched } }

/-- Between `s` and `t` only words of CBUF and local memory have changed, with what is noted of their accesses. -/
def SramFrame (s t : State) : Prop :=
  t = { s with mem := { s.mem with sram := t.mem.sram, sramErr := t.mem.sramErr, valid := t.mem.valid }
               cc := { s.cc with touched := t.cc.touched, sram := t.cc.sram } }

namespace TouchFrame

theorem refl (s : State) : TouchFrame s s := rfl

theorem trans {s t u : State} (h : TouchFrame s t) (k : TouchFrame t u) : TouchFrame s u := by
  unfold TouchFrame at h k
  rw [h] at k
  exact k

theorem mem {s t : State} (h : TouchFrame s t) : t.mem = s.mem := by rw [h]
theorem cbl {s t : State} (h : TouchFrame s t) (k : Nat) : t.cbl k = s.cbl k := by rw [h]; rfl

theorem programFrame {s t u : State} (h : TouchFrame s t) (k : ProgramFrame t u) : IssueFrame s u := by
  unfold TouchFrame at h
  unfold ProgramFrame at k
  rw [h] at k
  rw [k]
  rfl

/-- A read changes no byte and leaves the words without error. -/
theorem keeps {s t : State} (h : TouchFrame s t) : t.sramByte = s.sramByte ∧ ∀ w, wordQuiet s w → wordQuiet t w := by
  have hcc : t.cc.sram = s.cc.sram := by rw [h]
  refine ⟨?_, fun w hq => ?_⟩
  · rw [h]
    rfl
  · unfold wordQuiet at hq ⊢
    rw [hcc]
    rw [h]
    exact hq

end TouchFrame

namespace SramFrame

theorem refl (s : State) : SramFrame s s := rfl

theorem trans {s t u : State} (h : SramFrame s t) (k : SramFrame t u) : SramFrame s u := by
  unfold SramFrame at h k
  rw [h] at k
  exact k

theorem cbl {s t : State} (h : SramFrame s t) (k : Nat) : t.cbl k = s.cbl k := by rw [h]; rfl

end SramFrame

theorem touch_touchFrame (s : State) (w : Nat) : TouchFrame s (touch s w) := by
  unfold touch
  split
  · rfl
  · rfl

theorem sramByte_eq (s : State) (w : Nat) {i : Nat} (hi : i < 16) :
    s.sramByte (w * 16 + i) = if s.wordValid w then mget zeroByte s.mem.sram (w * 16 + i) else 0 := by
  rw [State.sramByte, show (w * 16 + i) / 16 = w by omega]

/-- A word as it is read: zeros where its valid bit is clear (R233). -/
theorem viewed_word (s : State) (w : Nat) :
    viewed s.sramByte (w * 16) 16 = if s.wordValid w then s.wordRaw w else List.replicate 16 0 := by
  have hbytes : viewed s.sramByte (w * 16) 16 =
      (List.range 16).map fun i => if s.wordValid w then mget zeroByte s.mem.sram (w * 16 + i) else 0 :=
    List.map_congr_left fun i hi => sramByte_eq s w (List.mem_range.1 hi)
  rw [hbytes]
  split
  · rfl
  · rfl

/-- Nothing has written the word in this cc: an access finds it as it stands. -/
theorem wordSeen_unwritten {s : State} {w : Nat} (r : Nat) (h : ∀ p, p ∈ s.cc.sram → p.cell ≠ w) : s.wordSeen r w = s.wordCell w := by
  have hnone : (s.cc.sram.find? fun p => p.cell == w && decide (r < p.rank)) = none :=
    List.find?_eq_none.2 fun p hp => by simp [h p hp]
  rw [State.wordSeen, ccBefore, hnone]

theorem parityCheck_right {s : State} {w : Nat} (a : Agent) (h : mget (fun _ => false) s.mem.badPar (w / 32) = false) :
    parityCheck s a w = (s, false) := by
  rw [parityCheck, h]
  rfl

/-- R233, R239: a read of a word without error gives its bytes. -/
theorem readWord_quiet {s : State} {w : Nat} (h : wordQuiet s w) (a : Agent) :
    readWord s a w = (viewed s.sramByte (w * 16) 16, false, touch s w) := by
  obtain ⟨-, hstill⟩ := (touch_touchFrame s w).keeps
  obtain ⟨-, hpar, hclean, hcc⟩ := hstill w h
  have hmem : (touch s w).mem = s.mem := (touch_touchFrame s w).mem
  have hcell : (touch s w).wordSeen 0 w = s.wordCell w := by
    rw [wordSeen_unwritten 0 hcc, State.wordCell, State.wordRaw, State.wordErr, State.wordValid, hmem]
    rfl
  unfold readWord
  extract_lets pl ag s1 k c s2
  have hk : k = (s1, false) := parityCheck_right a hpar
  have hc : c = s.wordCell w := hcell
  rw [if_neg h.1, hk, if_neg Bool.false_ne_true, viewed_word]
  clear_value k c s2
  subst hc
  cases hvalid : s.wordValid w with
  | false =>
    rw [State.wordCell, hvalid]
    rfl
  | true =>
    have herr : s.wordErr w = .clean := h.2.2.1 hvalid
    rw [State.wordCell, hvalid, herr]
    rfl

/-- R233: bytes read from words without error. -/
theorem readSram_quiet {s : State} {addr n : Nat} (h : sramQuiet s addr n) (a : Agent) :
    ∃ t, readSram s a addr n = (viewed s.sramByte addr n, false, t) ∧ TouchFrame s t := by
  have hcount : (addr % 16 + n + 15) / 16 = (addr % 16 + n + 16 - 1) / 16 := rfl
  obtain ⟨t, hfold, hframe⟩ := foldl_cells (W := 16) (view := State.sramByte) (read := fun u w => readWord u a w) TouchFrame.refl
    TouchFrame.trans TouchFrame.keeps (fun u w hq => ⟨_, readWord_quiet hq a, touch_touchFrame u w⟩) s (addr / 16)
    ((addr % 16 + n + 15) / 16) fun i hi => h _ (Nat.le_add_right _ _) ((cells_met (by decide)).1 (hcount ▸ hi))
  refine ⟨t, ?_, hframe⟩
  rw [readSram]
  dsimp only at hfold ⊢
  rw [hfold]
  refine congrArg (fun x => (x, false, t)) ((viewed_slice _ (by omega)).trans ?_)
  rw [Nat.div_add_mod']

/-! ### Words written -/

/-- The write of a word of CBUF or local memory. -/
def wordWr (s : State) (a : Agent) (w : Nat) (new : List (Option Byte)) : CellWr :=
  { cell := w, rank := sramRank s a, new := new, mask := [], poison := false }

/-- R233, R240: a write without poison of a word without error takes its place in the cc. -/
theorem writeWord_places {s : State} {w : Nat} {new : List (Option Byte)} (hlen : new.length = 16) (h : wordQuiet s w) (a : Agent) :
    writeWord s a w new false = placeWord (touch s w) (wordWr s a w new) (s.wordCell w) := by
  obtain ⟨-, hstill⟩ := (touch_touchFrame s w).keeps
  obtain ⟨-, hpar, -, hcc⟩ := hstill w h
  have hmem : (touch s w).mem = s.mem := (touch_touchFrame s w).mem
  have hseen : (touch s w).wordSeen (sramRank s a) w = s.wordCell w := by
    rw [wordSeen_unwritten _ hcc, State.wordCell, State.wordRaw, State.wordErr, State.wordValid, hmem]
    rfl
  obtain ⟨herr, -⟩ := CellWr.on_clean (p := wordWr s a w new) (c := s.wordCell w) rfl rfl
    (hlen.trans (bytesAt_length _ _ _).symm) h.2.2.1
  unfold writeWord
  extract_lets pl ag r p s1 k s2 c s3
  have hk : k = (s1, false) := parityCheck_right a hpar
  have hs2 : s2 = s1 := congrArg Prod.fst hk
  have hc : c = s.wordCell w := by
    unfold c
    rw [hs2]
    exact hseen
  have hs3 : s3 = s1 := by
    unfold s3
    rw [hk, hs2, hc, if_neg Bool.false_ne_true]
    cases hvalid : s.wordValid w with
    | false =>
      rw [State.wordCell, hvalid]
      rfl
    | true =>
      rw [State.wordCell, hvalid, h.2.2.1 hvalid]
      rfl
  rw [if_neg h.1, hs3, hc, if_neg Bool.false_ne_true]
  split
  · rw [hseen]
    rfl
  · rw [show (p.on (s.wordCell w)).err = .clean from herr]
    rfl

/-- A word stored with its valid bit set and no error, behind the other writes of the cc. -/
def wordStored (s : State) (w : Nat) (c : Cell) (x : CellWr) : State :=
  (s.putWord w c).setCc { s.cc with sram := s.cc.sram ++ [x] }

theorem wordStored_byte {s : State} {w : Nat} {c : Cell} {x : CellWr} (hlen : c.bytes.length = 16) (hvalid : c.valid = true) (b : Nat) :
    (wordStored s w c x).sramByte b = if b / 16 = w then c.bytes.getD (b % 16) 0 else s.sramByte b := by
  have hbit : (wordStored s w c x).wordValid (b / 16) = if w = b / 16 then true else s.wordValid (b / 16) := by
    rw [← hvalid]
    exact mget_mset ..
  have hsram : (wordStored s w c x).mem.sram = putBytes s.mem.sram (w * 16) c.bytes :=
    congrArg (putBytes s.mem.sram (w * 16)) (List.take_of_length_le hlen.le)
  rw [State.sramByte, hbit, hsram, mget_putBytes, hlen]
  by_cases hb : b / 16 = w
  · rw [if_pos hb.symm, if_pos rfl, if_pos (by omega), if_pos hb, show b - w * 16 = b % 16 by omega]
  · have hout : ¬ (w * 16 ≤ b ∧ b < w * 16 + 16) := by omega
    rw [if_neg (Ne.symm hb), if_neg hout, if_neg hb, State.sramByte]

theorem wordStored_quiet {s : State} {w y : Nat} {c : Cell} {x : CellWr} (hx : x.cell = w) (hy : y ≠ w) (h : wordQuiet s y) :
    wordQuiet (wordStored s w c x) y := by
  obtain ⟨hon, hpar, hclean, hcc⟩ := h
  have hbit : (wordStored s w c x).wordValid y = s.wordValid y := (mget_mset ..).trans (if_neg hy.symm)
  have herr : (wordStored s w c x).wordErr y = s.wordErr y := (mget_mset ..).trans (if_neg hy.symm)
  refine ⟨hon, hpar, by rwa [hbit, herr], fun p hp => ?_⟩
  rcases List.mem_append.1 hp with hp | hp
  · exact hcc p hp
  · rw [List.mem_singleton.1 hp, hx]
    exact hy.symm

/-- R233, R240: what a write without poison of a word without error leaves. -/
theorem writeWord_quiet {s : State} {w : Nat} {new : List (Option Byte)} (hlen : new.length = 16) (h : wordQuiet s w) (a : Agent) :
    SramFrame s (writeWord s a w new false) ∧ CellStored 16 State.sramByte wordQuiet s (writeWord s a w new false) w new := by
  have hraw : (s.wordCell w).bytes.length = 16 := bytesAt_length _ _ _
  obtain ⟨-, hvalid, hlength, hbytes⟩ := CellWr.on_clean (p := wordWr s a w new) (c := s.wordCell w) rfl rfl (hlen.trans hraw.symm) h.2.2.1
  have htouch := touch_touchFrame s w
  obtain ⟨hview, hstill⟩ := htouch.keeps
  rw [writeWord_places hlen h]
  generalize hu : touch s w = u at htouch hview hstill
  have hplace : placeWord u (wordWr s a w new) (s.wordCell w) =
      wordStored u w ((wordWr s a w new).on (s.wordCell w)) ((wordWr s a w new).found (s.wordCell w)) := by
    rw [placeWord, ccPlace_alone (wordWr s a w new) (s.wordCell w) (hstill w h).2.2.2]
    rfl
  rw [hplace]
  refine ⟨?_, fun b => ?_, fun y hy hq => wordStored_quiet rfl hy (hstill y hq)⟩
  · unfold TouchFrame at htouch
    rw [htouch]
    rfl
  · rw [wordStored_byte (hlength.trans hraw) hvalid, hview]
    refine if_ctx_congr Iff.rfl (fun hb => ?_) fun _ => rfl
    have hin : b % 16 < 16 := Nat.mod_lt b (by decide)
    have hbyte : (s.wordRaw w).getD (b % 16) 0 = mget zeroByte s.mem.sram b := by
      simp [State.wordRaw, bytesAt, hin, ← hb, Nat.div_add_mod']
    rw [hbytes _ (by rwa [hraw]), State.sramByte, hb, State.wordCell, hbyte]
    rfl

/-- R233, R240: bytes written without poison to words without error are stored, and no other byte is. -/
theorem writeSram_quiet {s : State} {addr : Nat} {new : List (Option Byte)} (h : sramQuiet s addr new.length) (a : Agent) :
    SramFrame s (writeSram s a addr new false) ∧
      ∀ b, (writeSram s a addr new false).sramByte b = (laid addr new b).getD (s.sramByte b) :=
  foldl_cut (W := 16) (view := State.sramByte) (quiet := wordQuiet) (f := fun u x => writeWord u a x.1 x.2 false) (by decide)
    SramFrame.refl SramFrame.trans (fun _ _ _ hlen hq => writeWord_quiet hlen hq a) s addr new h

/-! ### Lines of HBM -/

/-- The line's controller is ON, it holds no error, and nothing has written it in this cc. -/
def lineQuiet (s : State) (l : Nat) : Prop :=
  s.eff (88 + stackOf (l * 64)) = 3 ∧ s.lineErr l = .clean ∧ ∀ p, p ∈ s.cc.hbm → p.cell ≠ l

/-- A byte of HBM. -/
def State.hbmByte (s : State) (b : Nat) : Byte := mget zeroByte s.mem.hbm b

/-- Between `s` and `t` only HBM, its errors, accesses and caches have changed, with what is noted of the cc. -/
def HbmFrame (s t : State) : Prop := t = { s with mem := t.mem, cc := t.cc } ∧ t.mem.sram = s.mem.sram

namespace HbmFrame

theorem refl (s : State) : HbmFrame s s := ⟨rfl, rfl⟩

theorem trans {s t u : State} (h : HbmFrame s t) (k : HbmFrame t u) : HbmFrame s u := by
  obtain ⟨h, hsram⟩ := h
  obtain ⟨k, ksram⟩ := k
  refine ⟨?_, ksram.trans hsram⟩
  rw [h] at k
  exact k

end HbmFrame

/-- R239: bytes read from lines without error. -/
theorem readPhys_quiet {s : State} {pa n : Nat} (h : hbmQuiet s pa n) (a : Agent) : readPhys s a pa n = (bytesAt s.mem.hbm pa n, false, s) := by
  have hcount : (pa % 64 + n + 63) / 64 = (pa % 64 + n + 64 - 1) / 64 := rfl
  obtain ⟨t, hfold, rfl⟩ := foldl_cells (W := 64) (view := State.hbmByte) (quiet := lineQuiet) (R := Eq)
    (read := fun u l => readLine u a l) (fun _ => rfl) Eq.trans (fun h => h ▸ ⟨rfl, fun _ => id⟩)
    (fun u l hq => ⟨u, readLine_clean hq.1 hq.2.1 hq.2.2, rfl⟩) s (pa / 64)
    ((pa % 64 + n + 63) / 64) fun i hi => h _ (Nat.le_add_right _ _) ((cells_met (by decide)).1 (hcount ▸ hi))
  rw [readPhys]
  dsimp only at hfold ⊢
  rw [hfold]
  refine congrArg (fun x => (x, false, s)) ((viewed_slice _ (by omega)).trans ?_)
  rw [Nat.div_add_mod']
  rfl

/-- The write of a line of HBM. -/
def lineWr (a : Agent) (l : Nat) (new : List (Option Byte)) : CellWr :=
  { cell := l, rank := hbmRank a, new := new, mask := [], poison := false }

/-- A line whose write is accepted: the caches let go of it, and the access is on its way. -/
def lineAsked (s : State) (a : Agent) (l : Nat) : State :=
  addAcc (invalidate s l) { hc := stackOf (l * 64), line := l, write := true, who := agentWho a }

/-- The line as it is found without error. -/
def State.lineCell (s : State) (l : Nat) : Cell := { bytes := s.lineRaw l, err := .clean }

/-- R240, R241: a write without poison of a line without error takes its place in the cc. -/
theorem writeLine_places {s : State} {l : Nat} {new : List (Option Byte)} (hlen : new.length = 64) (h : lineQuiet s l) (a : Agent) :
    writeLine s a l new false = placeLine (lineAsked s a l) (lineWr a l new) (s.lineCell l) := by
  obtain ⟨hon, hclean, hcc⟩ := h
  have hseen : s.lineSeen (hbmRank a) l = s.lineCell l := by
    rw [lineSeen_unwritten _ hcc, errSeen_clean hclean, State.lineCell]
  have hhbm : ¬ (!hbmOn s l) = true := by
    rw [hbmOn, hon]
    decide
  obtain ⟨herr, -⟩ := CellWr.on_clean (p := lineWr a l new) (c := s.lineCell l) rfl rfl (hlen.trans (lineRaw_length s l).symm) fun _ => rfl
  unfold writeLine
  extract_lets st ag c p s1 s2 s3
  have hc : c = s.lineCell l := hseen
  have hs3 : s3 = s2 := by
    unfold s3
    rw [hc]
    split <;> rfl
  have hp : ¬ (p.on c).err = .poison := by
    rw [hc, show (p.on (s.lineCell l)).err = .clean from herr]
    decide
  rw [if_neg hhbm, if_neg hp, hs3, hc]
  rfl

/-- A line stored with its error state, behind the other writes of the cc. -/
def lineStored (s : State) (l : Nat) (c : Cell) (x : CellWr) : State := (s.setLine l c).setCc { s.cc with hbm := s.cc.hbm ++ [x] }

theorem lineStored_byte {s : State} {l : Nat} {c : Cell} {x : CellWr} (hlen : c.bytes.length = 64) (b : Nat) :
    (lineStored s l c x).hbmByte b = if b / 64 = l then c.bytes.getD (b % 64) 0 else s.hbmByte b := by
  have hhbm : (lineStored s l c x).mem.hbm = putBytes s.mem.hbm (l * 64) c.bytes :=
    congrArg (putBytes s.mem.hbm (l * 64)) (List.take_of_length_le hlen.le)
  rw [State.hbmByte, hhbm, mget_putBytes, hlen]
  by_cases hb : b / 64 = l
  · rw [if_pos (by omega), if_pos hb, show b - l * 64 = b % 64 by omega]
  · rw [if_neg (by omega), if_neg hb, State.hbmByte]

theorem lineStored_hbmFrame (s : State) (l : Nat) (c : Cell) (x : CellWr) : HbmFrame s (lineStored s l c x) := ⟨rfl, rfl⟩

theorem lineStored_quiet {s : State} {l y : Nat} {c : Cell} {x : CellWr} (hx : x.cell = l) (hy : y ≠ l) (h : lineQuiet s y) :
    lineQuiet (lineStored s l c x) y := by
  obtain ⟨hon, hclean, hcc⟩ := h
  have herr : (lineStored s l c x).lineErr y = s.lineErr y := (mget_mset ..).trans (if_neg hy.symm)
  refine ⟨hon, herr.trans hclean, fun p hp => ?_⟩
  rcases List.mem_append.1 hp with hp | hp
  · exact hcc p hp
  · rw [List.mem_singleton.1 hp, hx]
    exact hy.symm

/-- R240, R241: what a write without poison of a line without error leaves. -/
theorem writeLine_quiet {s : State} {l : Nat} {new : List (Option Byte)} (hlen : new.length = 64) (h : lineQuiet s l) (a : Agent) :
    HbmFrame s (writeLine s a l new false) ∧ CellStored 64 State.hbmByte lineQuiet s (writeLine s a l new false) l new := by
  have hraw : (s.lineCell l).bytes.length = 64 := lineRaw_length s l
  obtain ⟨-, -, hlength, hbytes⟩ := CellWr.on_clean (p := lineWr a l new) (c := s.lineCell l) rfl rfl (hlen.trans hraw.symm) fun _ => rfl
  have hasked : HbmFrame s (lineAsked s a l) := ⟨rfl, rfl⟩
  have hview : ∀ b, (lineAsked s a l).hbmByte b = s.hbmByte b := fun _ => rfl
  have hstill : ∀ y, lineQuiet s y → lineQuiet (lineAsked s a l) y := fun _ => id
  rw [writeLine_places hlen h]
  generalize lineAsked s a l = u at hasked hview hstill
  have hplace : placeLine u (lineWr a l new) (s.lineCell l) =
      lineStored u l ((lineWr a l new).on (s.lineCell l)) ((lineWr a l new).found (s.lineCell l)) := by
    rw [placeLine, ccPlace_alone (lineWr a l new) (s.lineCell l) (hstill l h).2.2]
    rfl
  rw [hplace]
  refine ⟨hasked.trans (lineStored_hbmFrame u l _ _), fun b => ?_, fun y hy hq => lineStored_quiet rfl hy (hstill y hq)⟩
  rw [lineStored_byte (hlength.trans hraw), hview]
  refine if_ctx_congr Iff.rfl (fun hb => ?_) fun _ => rfl
  have hin : b % 64 < 64 := Nat.mod_lt b (by decide)
  have hbyte : (s.lineCell l).bytes.getD (b % 64) 0 = s.hbmByte b := by
    simp [State.lineCell, State.lineRaw, bytesAt, State.hbmByte, hin, ← hb, Nat.div_add_mod']
  rw [hbytes _ (by rwa [hraw]), hbyte]
  rfl

/-- R240, R241: bytes written without poison to lines without error are stored, and no other byte is. -/
theorem writeLines_quiet {s : State} {pa : Nat} {new : List (Option Byte)} (h : hbmQuiet s pa new.length) (a : Agent) :
    HbmFrame s ((cut 64 pa new).foldl (fun u x => writeLine u a x.1 x.2 false) s) ∧
      ∀ b, ((cut 64 pa new).foldl (fun u x => writeLine u a x.1 x.2 false) s).hbmByte b = (laid pa new b).getD (s.hbmByte b) :=
  foldl_cut (W := 64) (view := State.hbmByte) (quiet := lineQuiet) (f := fun u x => writeLine u a x.1 x.2 false) (by decide)
    HbmFrame.refl HbmFrame.trans (fun _ _ _ hlen hq => writeLine_quiet hlen hq a) s pa new h

end Sys2Proof.Machine
end

section
/-! PROOFS. HBM operations of a Cobbler's program (R189, R193, R195 to R197). -/

namespace Sys2Proof.Machine

/-! ### What the issue leaves -/

/-- Where a Cobbler's record alone notes what was written, it is otherwise as before. -/
theorem CobNoted.cbl {s t : State} (h : CobNoted s t) (k : Nat) : t.cbl k = { s.cbl k with wrote := (t.cbl k).wrote } := by
  obtain ⟨l, h⟩ := h
  have hnotes : ∀ (l : List (Nat × List Nat)) (m : List (Nat × CblSt)), ∃ codes,
      mget (fun _ => ({} : CblSt)) (l.foldl noteWrote m) k = { mget (fun _ => ({} : CblSt)) m k with wrote := codes } := by
    intro l
    induction l with
    | nil => exact fun m => ⟨_, rfl⟩
    | cons x l ih =>
      intro m
      obtain ⟨codes, hl⟩ := ih (noteWrote m x)
      refine ⟨codes, hl.trans ?_⟩
      rw [noteWrote, mget_mset]
      split
      · rename_i hx
        rw [hx]
      · rfl
  obtain ⟨codes, hcodes⟩ := hnotes l s.cbls
  have ht : t.cbl k = { s.cbl k with wrote := codes } := by
    rw [State.cbl, h]
    exact hcodes
  rw [ht]

theorem cReadied_mem (s : State) (k w : Nat) : (cReadied s k w).mem = s.mem := (cReadied_frame s k w).workFrame.mem

/-- The issue of an instruction writes no cell. -/
theorem cReadied_cc (s : State) (k w : Nat) : (cReadied s k w).cc.hbm = s.cc.hbm ∧ (cReadied s k w).cc.sram = s.cc.sram := by
  have htouch : (cTouch s k).cc.hbm = s.cc.hbm ∧ (cTouch s k).cc.sram = s.cc.sram := by
    unfold cTouch
    extract_lets c
    split
    · exact ⟨rfl, rfl⟩
    · split
      · exact ⟨rfl, rfl⟩
      · split <;> exact ⟨rfl, rfl⟩
  have hissue : (cReadied s k w).cc = (cTouch s k).cc := by rw [cReadied, (cIssue_issues (cTouch s k) k w).1]
  rw [hissue]
  exact htouch

/-- Lines without error stay so where units, memory and the writes of the cc are as before. -/
theorem hbmQuiet_of_eq {s t : State} {pa n : Nat} (h : hbmQuiet s pa n) (hunits : t.units = s.units) (hmem : t.mem = s.mem)
    (hcc : t.cc.hbm = s.cc.hbm) : hbmQuiet t pa n := by
  intro l hlo hhi
  obtain ⟨hon, hclean, hline⟩ := h l hlo hhi
  refine ⟨?_, ?_, by rwa [hcc]⟩
  · rw [State.eff, State.unit, hunits]
    exact hon
  · rw [State.lineErr, hmem]
    exact hclean

theorem hbmQuiet_readied {s : State} {pa n : Nat} (h : hbmQuiet s pa n) (k w : Nat) : hbmQuiet (cReadied s k w) pa n :=
  hbmQuiet_of_eq h (by rw [cReadied_frame s k w]) (cReadied_mem s k w) (cReadied_cc s k w).1

theorem sramQuiet_readied {s : State} {a n : Nat} (h : sramQuiet s a n) (k w : Nat) : sramQuiet (cReadied s k w) a n := by
  intro x hlo hhi
  obtain ⟨hon, hpar, hclean, hcc⟩ := h x hlo hhi
  have hframe := cReadied_frame s k w
  refine ⟨?_, ?_, ?_, by rwa [(cReadied_cc s k w).2]⟩
  all_goals rw [hframe]
  · exact hon
  · exact hpar
  · exact hclean

theorem sramByte_readied (s : State) (k w : Nat) : (cReadied s k w).sramByte = s.sramByte := by
  rw [cReadied_frame s k w]
  rfl

theorem IssueFrame.tenRun {s t : State} (h : IssueFrame s t) (n : Nat) : t.tenRun n = s.tenRun n := by rw [h]; rfl
theorem IssueFrame.xlate {s t : State} (h : IssueFrame s t) (n a m : Nat) : xlate t n a m = xlate s n a m := by rw [h]; rfl
theorem IssueFrame.findWin {s t : State} (h : IssueFrame s t) (n a m : Nat) : findWin t n a m = findWin s n a m := by rw [h]; rfl
theorem IssueFrame.winProt {s t : State} (h : IssueFrame s t) (n v : Nat) : winProt t n v = winProt s n v := by rw [h]; rfl
theorem IssueFrame.paOf {s t : State} (h : IssueFrame s t) (n v a : Nat) : paOf t n v a = paOf s n v a := by rw [h]; rfl

theorem hbmPlace_readied (s : State) (k w x y n al : Nat) : hbmPlace (cReadied s k w) k x y n al = hbmPlace s k x y n al := by
  unfold hbmPlace
  simp only [cReadied_tenant, (cReadied_frame s k w).xlate]

/-- R195: an HBM address that is served is aligned and lies in a window of the holder. -/
theorem hbmPlace_ok {s : State} {k x y n al a : Nat} (h : hbmPlace s k x y n al = .ok a) :
    a % al = 0 ∧ (xlate s (s.cbl k).tenant a n).isSome = true := by
  unfold hbmPlace at h
  extract_lets b at h
  split at h
  · exact nomatch h
  · rename_i hwin
    split at h
    · exact nomatch h
    · rename_i halign
      obtain rfl : b = a := Except.ok.inj h
      refine ⟨not_not.1 halign, ?_⟩
      rw [not_or, Option.isNone_iff_eq_none, ← Option.not_isSome_iff_eq_none] at hwin
      exact not_not.1 hwin.2

/-! ### An operation becomes outstanding -/

/-- A Cobbler's record `x` after the operation `o` has become outstanding (R196); fault codes it may have written in between. -/
def OpAdded (o : CblOp) (x y : CblSt) : Prop :=
  y = { x with ops := x.ops ++ [{ o with id := x.nextOp, pc := x.pc }], nextOp := x.nextOp + 1, wrote := y.wrote }

theorem cAddOp_adds {v u : State} {k : Nat} (h : u.cbl k = { v.cbl k with wrote := (u.cbl k).wrote }) (o : CblOp) :
    OpAdded o (v.cbl k) ((cAddOp u k o).cbl k) := by
  rw [cAddOp, State.modCbl_cbl, if_pos rfl, h]
  rfl

theorem cGo_in_image_ops (s : State) (k wait : Nat) {pc : Nat} (hpc : pc < 128 * (s.cbl k).len) :
    ((cGo s k pc wait).cbl k).ops = (s.cbl k).ops := by
  unfold cGo
  extract_lets c s1
  have hc : (s1.cbl k).ops = c.ops := by rw [State.setCbl_cbl, if_pos rfl]
  rw [if_neg (Nat.not_le.2 hpc)]
  split
  · exact hc
  · rw [State.modCbl_cbl, if_pos rfl]
    exact hc

/-- R196: with its operation outstanding the program goes on. -/
theorem OpAdded.goes {s u : State} {k w : Nat} {o : CblOp} (h : OpAdded o ((cReadied s k w).cbl k) (u.cbl k)) (wait : Nat) :
    ((cNextIn u k wait).cbl k).pc = nextPc s k ∧ ((cNextIn u k wait).cbl k).regs = (s.cbl k).regs ∧
      (cblPath s k (nextPc s k) = true →
        ((cNextIn u k wait).cbl k).ops = (s.cbl k).ops ++ [{ o with id := (s.cbl k).nextOp, pc := (s.cbl k).pc }]) ∧
      WorkFrame u (cNextIn u k wait) := by
  have hissued : CblIssued (s.cbl k) ((cReadied s k w).cbl k) := (cReadied_cbl s k w).1
  have hpc : (u.cbl k).pc = (s.cbl k).pc := by rw [h, hissued]
  have hlen : (u.cbl k).len = (s.cbl k).len := by rw [h, hissued]
  have hops : (u.cbl k).ops = (s.cbl k).ops ++ [{ o with id := (s.cbl k).nextOp, pc := (s.cbl k).pc }] := by rw [h, hissued]
  rw [show cNextIn u k wait = cGo u k (nextPc s k) wait by rw [cNextIn, hpc, nextPc]]
  obtain ⟨hgo, hmoved, hnext, -⟩ := cGo_moves u k (nextPc s k) wait
  refine ⟨hnext, hmoved.1.regs.trans (by rw [h, hissued]), fun hpath => ?_, hgo⟩
  rw [cGo_in_image_ops u k wait, hops]
  rw [hlen]
  exact of_decide_eq_true (Bool.and_eq_true_iff.1 hpath).1

/-! ### LWH and HGET -/

/-- The bytes of an HBM operation: 16 for each word of a copy, or 4. -/
def opBytes (wide : Bool) (w : Nat) : Nat := if wide then 16 * (cFn w + 1) else 4

/-- An HBM operation's alignment. -/
def opAlign (wide : Bool) : Nat := if wide then 16 else 4

/-- The fault of the local range of a copy. -/
def opBad (wide : Bool) (l w : Nat) : Option Nat := if wide then copyBad l (opBytes wide w) else none

/-- The read that LWH or HGET `w` leaves outstanding, with its bytes. -/
def readOp (wide : Bool) (w l a : Nat) (r : List Byte × Option Nat × State) : CblOp :=
  { kind := if wide then 2 else 0, addr := a, n := if wide then cFn w + 1 else 4, dest := if wide then l else cRd w, data := r.1, bad := r.2.1 }

/-- R195: an address in no window of the holder halts the program. -/
theorem cRead_refused {s : State} {op k w c : Nat} {wide : Bool} (h : cblReady s k op w = true)
    (hplace : hbmPlace s k (cReg s k (cRs1 w)) (cReg s k (cRs2 w)) (opBytes wide w) (opAlign wide) = .error c) :
    cRead op wide k s = .next (cblFault (cReadied s k w) k c (cReg s k (cRs1 w))) := by
  rw [← hbmPlace_readied s k w, opBytes, opAlign] at hplace
  rw [cRead, cStep_ready h]
  simp only [cReadied_reg, hplace]

/-- R196: a read that is served becomes outstanding, and the program goes on. -/
theorem cRead_served {s : State} {op k w a : Nat} {wide : Bool} (h : cblReady s k op w = true)
    (hplace : hbmPlace s k (cReg s k (cRs1 w)) (cReg s k (cRs2 w)) (opBytes wide w) (opAlign wide) = .ok a)
    (hlocal : opBad wide (cReg s k (cRd w)) w = none) {r : List Byte × Option Nat × State}
    (hr : readHbmParts (cReadied s k w) k (s.cbl k).nextOp (s.cbl k).tenant a (opBytes wide w) = r) :
    cRead op wide k s = .next (cNext (cAddOp r.2.2 k (readOp wide w (cReg s k (cRd w)) a r)) k) := by
  have hissued : CblIssued (s.cbl k) ((cReadied s k w).cbl k) := (cReadied_cbl s k w).1
  have hop : ((cReadied s k w).cbl k).nextOp = (s.cbl k).nextOp := by rw [hissued]
  rw [← hbmPlace_readied s k w, opBytes, opAlign] at hplace
  rw [opBad, opBytes] at hlocal
  rw [← hop, ← cReadied_tenant s k w, opBytes] at hr
  rw [cRead, cStep_ready h]
  simp only [cReadied_reg, hplace, hlocal, hr, readOp]

/-- R196: what a read that is served leaves outstanding. -/
theorem cRead_reads {s : State} {op k w a : Nat} {wide : Bool} (h : cblReady s k op w = true)
    (hplace : hbmPlace s k (cReg s k (cRs1 w)) (cReg s k (cRs2 w)) (opBytes wide w) (opAlign wide) = .ok a)
    (hlocal : opBad wide (cReg s k (cRd w)) w = none) {r : List Byte × Option Nat × State}
    (hr : readHbmParts (cReadied s k w) k (s.cbl k).nextOp (s.cbl k).tenant a (opBytes wide w) = r) :
    ∃ t o, cRead op wide k s = .next t ∧ (cblPath s k (nextPc s k) = true → (t.cbl k).ops = (s.cbl k).ops ++ [o]) ∧
      o.kind = (if wide then 2 else 0) ∧ o.dest = (if wide then cReg s k (cRd w) else cRd w) ∧ o.addr = a ∧ o.data = r.1 ∧
      o.bad = r.2.1 ∧ o.dead = false ∧ (t.cbl k).regs = (s.cbl k).regs ∧ (t.cbl k).pc = nextPc s k ∧ WorkFrame r.2.2 t := by
  have hnoted : CobNoted (cReadied s k w) r.2.2 := hr ▸ readHbmParts_cobNoted _ _ _ _ _ _
  have hadded := cAddOp_adds (hnoted.cbl k) (readOp wide w (cReg s k (cRd w)) a r)
  have hadd : WorkFrame r.2.2 (cAddOp r.2.2 k (readOp wide w (cReg s k (cRd w)) a r)) := rfl
  obtain ⟨hpc, hregs, hops, hwork⟩ := hadded.goes 1
  exact ⟨_, _, cRead_served h hplace hlocal hr, hops, rfl, rfl, rfl, rfl, rfl, rfl, hregs, hpc, hadd.trans hwork⟩

/-- R239: a read of HBM for an operation changes no byte. -/
theorem readHbmParts_reports (s : State) (k id t a n : Nat) : Reports s (readHbmParts s k id t a n).2.2 := by
  refine foldl_reports (β := List Byte × Option Nat × State) _ (fun b => b.2.2) (fun b c => ?_) _ ([], none, s)
  dsimp only
  split
  · exact .refl b.2.2
  · rename_i r hread
    obtain ⟨pa, -, rfl⟩ := Option.map_eq_some_iff.mp hread
    exact readPhys_reports b.2.2 _ pa _

/-- Four aligned bytes lie in one line: they are read as one. -/
theorem readHbmParts_word {s : State} {k id t a pa : Nat} (ha : a % 4 = 0) (hpa : xlate s t a 4 = some pa) (hquiet : hbmQuiet s pa 4) :
    readHbmParts s k id t a 4 = (bytesAt s.mem.hbm pa 4, none, s) := by
  have hone : (a % 64 + 4 + 63) / 64 = 1 := by omega
  have hcut : cut 64 a (List.replicate 4 none) = [(a / 64, cellPart 64 a (List.replicate 4 none) (a / 64))] := by
    rw [cut_eq, List.length_replicate, show (a % 64 + 4 + 64 - 1) / 64 = 1 from hone]
    rfl
  have hlo : Nat.max a (64 * (a / 64)) = a := Nat.max_eq_left (Nat.mul_div_le a 64)
  have hhi : Nat.min (a + 4) (64 * (a / 64) + 64) = a + 4 := Nat.min_eq_left (by omega)
  rw [readHbmParts, hcut]
  simp only [List.foldl_cons, List.foldl_nil, hlo, hhi, Nat.add_sub_cancel_left]
  rw [tenRead, hpa, Option.map_some, readPhys_quiet hquiet]
  rfl

/-! ### SWH and HPUT -/

/-- R195: an address in no window of the holder halts the program. -/
theorem cWrite_refused {s : State} {op k w c : Nat} {wide : Bool} (h : cblReady s k op w = true)
    (hplace : hbmPlace s k (cReg s k (cRs1 w)) (cReg s k (cRs2 w)) (opBytes wide w) (opAlign wide) = .error c) :
    cWrite op wide k s = .next (cblFault (cReadied s k w) k c (cReg s k (cRs1 w))) := by
  rw [← hbmPlace_readied s k w, opBytes, opAlign] at hplace
  rw [cWrite, cStep_ready h]
  simp only [cReadied_reg, hplace]

/-- R304: the data SWH or HPUT `w` takes in state `v`. -/
def writeData (v : State) (wide : Bool) (k w : Nat) : List Byte × Bool × State :=
  if wide then readSram v (cAgent k 0) (localAddr k (cReg v k (cRd w))) (opBytes wide w) else (leBytes 4 (cReg v k (cRd w)), false, v)

/-- The write that SWH or HPUT `w` leaves outstanding. -/
def writeOp (wide : Bool) (w a : Nat) : CblOp := { kind := if wide then 3 else 1, addr := a, n := opBytes wide w }

/-- R196, R304: a write that is served takes its data, becomes outstanding and is made, and the program goes on. -/
theorem cWrite_served {s : State} {op k w a : Nat} {wide : Bool} (h : cblReady s k op w = true)
    (hplace : hbmPlace s k (cReg s k (cRs1 w)) (cReg s k (cRs2 w)) (opBytes wide w) (opAlign wide) = .ok a)
    (hlocal : opBad wide (cReg s k (cRd w)) w = none) {bs : List Byte} {u : State}
    (hdata : writeData (cReadied s k w) wide k w = (bs, false, u)) :
    ∃ id wait, cWrite op wide k s = .next (cThenIn (cReadied s k w)
      (tenWrite (cAddOp u k (writeOp wide w a)) (cAgent k id) (s.cbl k).tenant a (allBytes bs) false).1 k wait) := by
  rw [← hbmPlace_readied s k w, opBytes, opAlign] at hplace
  rw [opBad, opBytes] at hlocal
  rw [writeData, opBytes] at hdata
  refine ⟨((cReadied s k w).cbl k).nextOp, if wide then cFn w + 1 else 1, ?_⟩
  rw [cWrite, cStep_ready h]
  simp only [cReadied_reg] at hdata
  simp only [cReadied_reg, hplace, hlocal, hdata, cReadied_tenant, writeOp, opBytes]
  rfl

/-- R240, R304: a tenant's write of an unprotected window to lines without error is made, and no other byte changes. -/
theorem tenWrite_quiet {s : State} {t a v : Nat} {new : List (Option Byte)} (hne : new ≠ []) (hrun : s.tenRun t = true)
    (hwin : findWin s t a new.length = some v) (hprot : winProt s t v = false) (hquiet : hbmQuiet s (paOf s t v a) new.length) (ag : Agent) :
    HbmFrame s (tenWrite s ag t a new false).1 ∧
      ∀ b, (tenWrite s ag t a new false).1.hbmByte b = (laid (paOf s t v a) new b).getD (s.hbmByte b) := by
  have hlines := writeLines_quiet hquiet ag
  have hempty : ¬ new.isEmpty = true := by simpa using hne
  have hwrite : (tenWrite s ag t a new false).1 = (cut 64 (paOf s t v a) new).foldl (fun u x => writeLine u ag x.1 x.2 false) s := by
    rw [tenWrite, if_neg hempty, hrun, if_neg (by decide), hwin]
    dsimp only
    rw [winWrite, reqWrite, hprot]
    simp [List.foldl_map]
  rw [hwrite]
  exact hlines

/-- Bytes seen one by one, read as one string. -/
theorem bytesAt_stored {t : State} {pa n : Nat} {bs : List Byte} (hlen : bs.length = n)
    (h : ∀ i, i < n → t.hbmByte (pa + i) = bs.getD i 0) : bytesAt t.mem.hbm pa n = bs := by
  refine List.ext_getElem ((bytesAt_length _ _ _).trans hlen.symm) fun i hi hb => ?_
  have hbyte := h i (hlen ▸ hb)
  rw [List.getD_eq_getElem _ _ hb] at hbyte
  simpa [bytesAt, State.hbmByte] using hbyte

/-- R196: a program whose access wrote no record goes on. -/
theorem cThenIn_goes {v u : State} {k : Nat} (hwrote : (u.cbl k).wrote = (v.cbl k).wrote) (hrunning : (u.cbl k).running = true) (wait : Nat) :
    cThenIn v u k wait = cNextIn u k wait := by
  have hgoes : cHalted v u k = u := if_neg (by simp [hwrote])
  rw [cThenIn, hgoes]
  exact if_pos hrunning

/-- R196, R304: a write served in an unprotected window, to lines without error, is made as the program goes on; no other byte
changes. -/
theorem cWrite_stores {s u : State} {op k w a v pa : Nat} {wide : Bool} {bs : List Byte} (h : cblReady s k op w = true)
    (hplace : hbmPlace s k (cReg s k (cRs1 w)) (cReg s k (cRs2 w)) (opBytes wide w) (opAlign wide) = .ok a)
    (hlocal : opBad wide (cReg s k (cRd w)) w = none) (hdata : writeData (cReadied s k w) wide k w = (bs, false, u))
    (htouch : TouchFrame (cReadied s k w) u) (hlen : bs.length = opBytes wide w) (hpos : 0 < opBytes wide w)
    (hrun : s.tenRun (s.cbl k).tenant = true) (hwin : findWin s (s.cbl k).tenant a (opBytes wide w) = some v)
    (hprot : winProt s (s.cbl k).tenant v = false) (hpa : paOf s (s.cbl k).tenant v a = pa) (hquiet : hbmQuiet s pa (opBytes wide w)) :
    ∃ t o, cWrite op wide k s = .next t ∧ (cblPath s k (nextPc s k) = true → (t.cbl k).ops = (s.cbl k).ops ++ [o]) ∧
      o.kind = (if wide then 3 else 1) ∧ (t.cbl k).pc = nextPc s k ∧
      (∀ b, t.hbmByte b = (laid pa (allBytes bs) b).getD (s.hbmByte b)) ∧ t.mem.sram = s.mem.sram := by
  obtain ⟨id, wait, ht⟩ := cWrite_served h hplace hlocal hdata
  have hrecord : u.cbl k = (cReadied s k w).cbl k := htouch.cbl k
  have hadded : OpAdded (writeOp wide w a) ((cReadied s k w).cbl k) ((cAddOp u k (writeOp wide w a)).cbl k) :=
    cAddOp_adds (by rw [hrecord]) _
  have hwrote : ((cAddOp u k (writeOp wide w a)).cbl k).wrote = ((cReadied s k w).cbl k).wrote := by
    rw [cAddOp, State.modCbl_cbl, if_pos rfl, hrecord]
  have hframe : IssueFrame s (cAddOp u k (writeOp wide w a)) :=
    (cReadied_frame s k w).trans (htouch.programFrame (u := cAddOp u k (writeOp wide w a)) rfl)
  have hread : hbmQuiet u pa (opBytes wide w) :=
    hbmQuiet_of_eq (hbmQuiet_readied hquiet k w) (by rw [htouch]) htouch.mem (by rw [htouch])
  have hstill : hbmQuiet (cAddOp u k (writeOp wide w a)) pa (opBytes wide w) := hbmQuiet_of_eq hread rfl rfl rfl
  generalize cAddOp u k (writeOp wide w a) = x at ht hadded hwrote hframe hstill
  have hbytes : (allBytes bs).length = opBytes wide w := (allBytes_length bs).trans hlen
  obtain ⟨hhbm, hview⟩ := tenWrite_quiet (s := x) (t := (s.cbl k).tenant) (a := a) (v := v) (new := allBytes bs)
    (fun hnil => by rw [hnil] at hbytes; exact absurd hbytes.symm hpos.ne') (by rw [hframe.tenRun, hrun])
    (by rw [hframe.findWin, hbytes, hwin]) (by rw [hframe.winProt, hprot]) (by rwa [hframe.paOf, hpa, hbytes]) (cAgent k id)
  generalize (tenWrite x (cAgent k id) (s.cbl k).tenant a (allBytes bs) false).1 = z at ht hhbm hview
  obtain ⟨hz, hsram⟩ := hhbm
  have hzcbl : z.cbl k = x.cbl k := by
    rw [hz]
    rfl
  have hrunning : (z.cbl k).running = true := by
    rw [hzcbl, hadded, (cReadied_cbl s k w).1]
    exact cWord_running (cblReady_word h)
  rw [← hzcbl] at hadded hwrote
  rw [cThenIn_goes hwrote hrunning] at ht
  obtain ⟨hpc, -, hops, hwork⟩ := hadded.goes wait
  refine ⟨_, _, ht, hops, rfl, hpc, fun b => ?_, ?_⟩
  · rw [State.hbmByte, hwork.mem]
    refine (hview b).trans ?_
    rw [hframe.paOf, hpa, State.hbmByte, hframe.workFrame.mem]
    rfl
  · rw [hwork.mem, hsram, hframe.workFrame.mem]

/-! ### An operation completes -/

/-- The operations of Cobbler `k` are as many as before, its PC and HBM as they were: what a program's end and its accesses of local
memory leave. -/
def KeepsPlace (k : Nat) (s t : State) : Prop :=
  (t.cbl k).ops.length = (s.cbl k).ops.length ∧ (t.cbl k).pc = (s.cbl k).pc ∧ t.mem.hbm = s.mem.hbm

theorem KeepsPlace.trans {k : Nat} {s t u : State} (h : KeepsPlace k s t) (g : KeepsPlace k t u) : KeepsPlace k s u :=
  ⟨g.1.trans h.1, g.2.1.trans h.2.1, g.2.2.trans h.2.2⟩

theorem cblEnd_keepsPlace (s : State) (k : Nat) : KeepsPlace k s (cblEnd s k) := by
  refine ⟨?_, (cblEnd_cbl s k).2.2.1, by rw [(cblEnd_programFrame s k)]⟩
  unfold cblEnd
  extract_lets c s1
  have hops : (s1.cbl k).ops.length = (s.cbl k).ops.length := by
    rw [State.setCbl_cbl, if_pos rfl]
    exact List.length_map _
  split
  · rfl
  · split
    · exact hops
    · exact hops

theorem cblFaultAt_keepsPlace (s : State) (k code pc addr : Nat) : KeepsPlace k s (cblFaultAt s k code pc addr) := by
  have hframe := cblRecord_engineFrame s k code 1 (addr % 2 ^ 32 * 2 ^ 32 + pc % 2 ^ 16)
  refine KeepsPlace.trans ?_ (cblEnd_keepsPlace _ k)
  rw [KeepsPlace, State.cbl, hframe.cbls, hframe.mem]
  exact ⟨rfl, rfl, rfl⟩

theorem writeSram_keepsPlace (s : State) (k : Nat) (a : Agent) (addr : Nat) (new : List (Option Byte)) :
    KeepsPlace k s (writeSram s a addr new false) := by
  have hcbl := (writeSram_cobNoted s a addr new false).cbl k
  obtain ⟨m, hreports, hhbm, -⟩ := writeSram_writes s a addr new false
  exact ⟨by rw [hcbl], by rw [hcbl], hreports.2.1.trans hhbm⟩

/-- R196: an operation that completes is no longer outstanding. -/
def opGone (s : State) (k : Nat) (o : CblOp) : State := s.modCbl k fun c => { c with ops := c.ops.erase o }

theorem opGone_cbl (s : State) (k : Nat) (o : CblOp) : (opGone s k o).cbl k = { s.cbl k with ops := (s.cbl k).ops.erase o } :=
  (State.modCbl_cbl s k k _).trans (if_pos rfl)

/-- R196, R202: whatever comes of it, one operation less is outstanding, and the PC and HBM stay. -/
theorem cComplete_place (s : State) (k : Nat) (o : CblOp) : KeepsPlace k (opGone s k o) (cComplete s k o) := by
  unfold cComplete
  extract_lets s0 n s1
  have h0 : KeepsPlace k s0 s0 := ⟨rfl, rfl, rfl⟩
  have h1 : KeepsPlace k s0 s1 := by
    unfold s1
    split
    · exact h0
    · exact writeSram_keepsPlace s0 k _ _ _
  have hset : KeepsPlace k s0 (cSet s0 k o.dest (leNat o.data)) := by
    rw [KeepsPlace, cSet_cbl, (cSet_programFrame s0 k o.dest (leNat o.data))]
    exact ⟨rfl, rfl, rfl⟩
  have hhalted : KeepsPlace k s1 (cHalted s0 s1 k) := by
    unfold cHalted
    split
    · exact cblEnd_keepsPlace s1 k
    · exact ⟨rfl, rfl, rfl⟩
  change KeepsPlace k s0 _
  split
  · exact h0
  · split
    · split
      · exact cblFaultAt_keepsPlace s0 k _ _ _
      · exact hset
    · split
      · exact h1.trans (cblFaultAt_keepsPlace s1 k _ _ _)
      · exact h1.trans hhalted

/-- R196, R202: a write that completes, or an operation of a program that has ended, leaves nothing more to do. -/
theorem cComplete_discards (s : State) (k : Nat) {o : CblOp} (h : o.dead = true ∨ o.kind = 1 ∨ o.kind = 3) :
    cComplete s k o = opGone s k o := by
  refine if_pos ?_
  rcases h with h | h | h <;> simp [h]

/-- R196: an LWH's word reaches RD. -/
theorem cComplete_word (s : State) (k : Nat) {o : CblOp} (hdead : o.dead = false) (hkind : o.kind = 0) (hbad : o.bad = none) :
    cComplete s k o = cSet (opGone s k o) k o.dest (leNat o.data) := by
  simp [cComplete, hdead, hkind, hbad, opGone]

/-- R196: an HGET's bytes reach local memory. -/
theorem cComplete_bytes {s : State} {k : Nat} {o : CblOp} (hdead : o.dead = false) (hkind : o.kind = 2) (hbad : o.bad = none)
    (hlen : o.data.length = 16 * o.n) (hpos : 0 < o.n) (hquiet : sramQuiet s (localAddr k o.dest) (16 * o.n)) :
    SramFrame (opGone s k o) (cComplete s k o) ∧
      ∀ b, (cComplete s k o).sramByte b = (laid (localAddr k o.dest) (allBytes o.data) b).getD (s.sramByte b) := by
  have hbytes : (allBytes o.data).length = 16 * o.n := (allBytes_length _).trans hlen
  have hgone : sramQuiet (opGone s k o) (localAddr k o.dest) (allBytes o.data).length := by
    rw [hbytes]
    exact hquiet
  obtain ⟨hframe, hview⟩ := writeSram_quiet hgone (cAgent k 0)
  have hcomplete : cComplete s k o =
      cHalted (opGone s k o) (writeSram (opGone s k o) (cAgent k 0) (localAddr k o.dest) (allBytes o.data) false) k := by
    simp [cComplete, hdead, hkind, hbad, opGone, hpos.ne', ← hlen]
  have hsame : cHalted (opGone s k o) (writeSram (opGone s k o) (cAgent k 0) (localAddr k o.dest) (allBytes o.data) false) k =
      writeSram (opGone s k o) (cAgent k 0) (localAddr k o.dest) (allBytes o.data) false := if_neg (by rw [hframe.cbl k]; simp)
  rw [hcomplete, hsame]
  exact ⟨hframe, hview⟩

theorem exec_cblHbmComplete {s : State} {k : Fin 16} {n : Nat} {o : CblOp} (hfind : (s.cbl k).ops.find? (fun o => o.id == n) = some o)
    (hlive : s.live = true) (hacc : noAcc s (.cobbler k o.id) = true) : exec (.cblHbmComplete k n) s = .next (cComplete s k o) := by
  show execCblHbmComplete k n s = _
  rw [execCblHbmComplete, hfind]
  dsimp only
  rw [if_neg (by simp [hlive, hacc])]

/-! ### FENCE -/

/-- R197: FENCE waits until nothing is outstanding. -/
theorem fence_nothing_out {s : State} {k w : Nat} (h : cblReady s k 0x30 w = true) : cOut s k = [] := by
  simp only [cblReady, Bool.and_eq_true, beq_iff_eq, decide_eq_true_eq] at h
  obtain ⟨⟨⟨⟨-, hop⟩, -⟩, -⟩, hclear⟩ := h
  unfold cClear at hclear
  extract_lets out op at hclear
  have hlast := (Bool.and_eq_true_iff.1 hclear).2
  have hout : out.isEmpty = true := by simpa [op, hop] using hlast
  exact List.isEmpty_iff.1 hout

/-- Settles O37: an access by what it leaves outstanding and stores, a completion by its kind. -/
theorem cobblerHbmAccess : Obligations.CobblerHbmAccess := by
  unfold Obligations.CobblerHbmAccess
  refine ⟨fun s k w a hok => ?_, fun s k hok => ⟨fun n o hfind hlive hacc => ?_, fun w h => ?_⟩⟩
  · intro x y l n ten nx
    refine ⟨fun hplace => ⟨fun pa hpa _ hquiet h => ?_, fun v pa hrun hwin hprot hpa _ hquiet h => ?_⟩,
      fun hplace hlocal => ⟨fun r hr h => ?_, fun v pa hrun hwin hprot hpa hquiet hlocalQuiet h => ?_⟩,
      fun c hplace => ⟨fun h => ?_, fun h => ?_⟩⟩
    · have hread : readHbmParts (cReadied s k w) k (s.cbl k).nextOp (s.cbl k).tenant a 4 =
          (bytesAt s.mem.hbm pa 4, none, cReadied s k w) := by
        rw [readHbmParts_word (hbmPlace_ok hplace).1 (by rwa [(cReadied_frame s k w).xlate]) (hbmQuiet_readied hquiet k w), cReadied_mem]
      obtain ⟨t, o, ht, hops, hkind, hdest, haddr, hdata, hbad, hdead, hregs, hpc, hwork⟩ := cRead_reads (wide := false) h hplace rfl hread
      exact ⟨t, o, ht, hops, hkind, hdest, haddr, hdata, hbad, hdead, hregs, hpc, hwork.mem.trans (cReadied_mem s k w)⟩
    · obtain ⟨t, o, ht, hops, hkind, hpc, hview, hsram⟩ := cWrite_stores (wide := false) (bs := leBytes 4 (cReg s k (cRd w)))
        h hplace rfl (by rw [writeData, cReadied_reg]; rfl) (.refl _) (leBytes_length 4 _) (by simp [opBytes]) hrun hwin hprot hpa hquiet
      refine ⟨t, o, ht, hops, hkind, hpc, ?_, fun b hb => ?_, hsram⟩
      · exact bytesAt_stored (leBytes_length 4 _) fun i hi => (hview _).trans (by rw [laid_allBytes _ (by rwa [leBytes_length])]; rfl)
      · exact (hview b).trans (by rw [laid_outside (by simpa [allBytes_length, leBytes_length] using hb)]; rfl)
    · obtain ⟨t, o, ht, hops, hkind, hdest, haddr, hdata, hbad, -, -, hpc, hwork⟩ := cRead_reads (wide := true) h hplace hlocal hr
      have hreports : Reports (cReadied s k w) r.2.2 := hr ▸ readHbmParts_reports _ _ _ _ _ _
      refine ⟨t, o, ht, hops, hkind, hdest, haddr, hdata, hbad, hpc, ?_, ?_⟩
      · rw [hwork.mem, hreports.2.1, cReadied_mem]
      · rw [hwork.mem, hreports.2.2, cReadied_mem]
    · obtain ⟨u, hread, htouch⟩ := readSram_quiet (sramQuiet_readied hlocalQuiet k w) (cAgent k 0)
      rw [sramByte_readied] at hread
      have hlen : (viewed s.sramByte (localAddr k l) n).length = opBytes true w := by simp [viewed, opBytes, n]
      obtain ⟨t, o, ht, hops, hkind, hpc, hview, hsram⟩ := cWrite_stores (wide := true) h hplace hlocal
        (by rw [writeData, cReadied_reg]; exact hread) htouch hlen (by simp [opBytes]) hrun hwin hprot hpa hquiet
      refine ⟨t, o, ht, hops, hkind, hpc, fun i hi => ?_, fun b hb => ?_, hsram⟩
      · refine (hview _).trans ?_
        rw [laid_allBytes _ (by rw [hlen]; exact hi)]
        simp [viewed, hi]
      · exact (hview b).trans (by rw [laid_outside (by rw [allBytes_length, hlen]; exact hb)]; rfl)
    · exact ⟨_, cRead_refused (wide := false) h hplace, (cblFault_faulted (cReadied_frame s k w).workFrame (cReadied_cbl s k w).1 c _).1⟩
    · exact ⟨_, cWrite_refused (wide := false) h hplace, (cblFault_faulted (cReadied_frame s k w).workFrame (cReadied_cbl s k w).1 c _).1⟩
  · obtain ⟨hops, hpc, hhbm⟩ := cComplete_place s k o
    have hmem : o ∈ (s.cbl k).ops := List.mem_of_find?_eq_some hfind
    have hregs : ((opGone s k o).cbl k).regs = (s.cbl k).regs := by rw [opGone_cbl]
    rw [opGone_cbl] at hops hpc
    refine ⟨_, exec_cblHbmComplete hfind hlive hacc, ?_, hpc, hhbm, fun hdone => ?_, fun hdead hkind hbad => ?_,
      fun hdead hkind hbad hlen hpos _ hquiet => ?_⟩
    · rw [hops]
      exact (List.length_erase_add_one hmem)
    · rw [cComplete_discards s k hdone]
      exact ⟨hregs, rfl⟩
    · rw [cComplete_word s k hdead hkind hbad]
      refine ⟨fun i hi => ?_, ?_⟩
      · rw [cSet_reg (by rw [hregs, cblOk_regs hok]) o.dest _ hi, cReg_congr hregs, BitVec.toNat_ofNat]
      · rw [cSet_programFrame (opGone s k o) k o.dest (leNat o.data)]
        rfl
    · obtain ⟨hframe, hview⟩ := cComplete_bytes hdead hkind hbad hlen hpos hquiet
      refine ⟨fun i hi => ?_, ?_, fun b hb => ?_⟩
      · rw [hview, laid_allBytes _ (by rwa [hlen])]
        rfl
      · rw [hframe.cbl, hregs]
      · rw [hview, laid_outside (by rwa [allBytes_length, hlen])]
        rfl
  · obtain ⟨-, hregs⟩ := cNext_readied (u := cReadied s k w) (s := s) (k := k) (w := w) rfl
    have hexec : execCblFence k s = .next (cNext (cReadied s k w) k) := cStep_ready h _
    refine ⟨fence_nothing_out h, cNext (cReadied s k w) k, hexec, hregs, ?_⟩
    rw [cNext_eq, nextPc, cReadied_pc]
    exact (cWritten_goes hok h 0 0 _ 1).2

end Sys2Proof.Machine
end
